-- ==== Sys2Proof/Word.lean ====
section
/-!
DEFINITION. The word types and the plainest operations on bit patterns.
-/

namespace Sys2Proof

/-- A register number (R58). -/
abbrev Reg := BitVec 5
/-- The contents of a general register (R14). -/
abbrev Word64 := BitVec 64
/-- An instruction word (R57). -/
abbrev Word32 := BitVec 32
/-- One byte of memory. -/
abbrev Byte := BitVec 8

/-- The 64-bit pattern congruent to `x` (the primitive Wrap(x, 64) of R39). -/
def wrap64 (x : Int) : Word64 := BitVec.ofInt 64 x

/-- The 64-bit pattern of a natural number (Wrap(x, 64)). -/
def nat64 (x : Nat) : Word64 := BitVec.ofNat 64 x

/-- A bit of a word as a Bool. -/
def bitOf (w : Word64) (i : Nat) : Bool := w.getLsbD i

/-- Field [lo + len - 1 : lo] of a word as an unsigned integer. -/
def fieldOf (w : Word64) (lo len : Nat) : Nat := (w.extractLsb' lo len).toNat

/-- One bit of a word from a Bool. -/
def boolBit (b : Bool) (i : Nat) : Nat := if b then 2 ^ i else 0

end Sys2Proof
end

