-- ==== Sys2Proof/Syntax.lean ====
section
/-!
DEFINITION. The instructions: one constructor for each row of the opcode table.
The first 273 constructors are the instruction words of R57-R66 with exactly the variable fields
that R58 and R61 give them.  The others are the device's own indivisible steps (the table's rows
without a word, file 95); the table gives them no fields, so their arguments are the model's and say
which unit takes the step (log entry 2: DESIGN CHOICE, unsafe).
-/

namespace Sys2Proof

/-- The instruction words and the device steps. -/
inductive Instr where
  -- ILLEGAL
  | illegal (x : BitVec 26)
  -- INT: two-register integer operations (R89-R95)
  | add (d a b : BitVec 5)
  | sub (d a b : BitVec 5)
  | and (d a b : BitVec 5)
  | or (d a b : BitVec 5)
  | xor (d a b : BitVec 5)
  | andn (d a b : BitVec 5)
  | sll (d a b : BitVec 5)
  | srl (d a b : BitVec 5)
  | sra (d a b : BitVec 5)
  | ror (d a b : BitVec 5)
  | slt (d a b : BitVec 5)
  | sltn (d a b : BitVec 5)
  | seq (d a b : BitVec 5)
  | min (d a b : BitVec 5)
  | max (d a b : BitVec 5)
  | minn (d a b : BitVec 5)
  | maxn (d a b : BitVec 5)
  | mul (d a b : BitVec 5)
  | mulh (d a b : BitVec 5)
  | mulhn (d a b : BitVec 5)
  | div (d a b : BitVec 5)
  | divn (d a b : BitVec 5)
  | rem (d a b : BitVec 5)
  | remn (d a b : BitVec 5)
  | clz (d a : BitVec 5)
  | ctz (d a : BitVec 5)
  | popc (d a : BitVec 5)
  | brev (d a : BitVec 5)
  | bswap (d a : BitVec 5)
  | addw (d a b : BitVec 5)
  | subw (d a b : BitVec 5)
  | mulw (d a b : BitVec 5)
  | sllw (d a b : BitVec 5)
  | srlw (d a b : BitVec 5)
  | sraw (d a b : BitVec 5)
  | divw (d a b : BitVec 5)
  | remw (d a b : BitVec 5)
  -- INT4 (R96)
  | csel (d a b c : BitVec 5)
  | madd (d a b c : BitVec 5)
  | msub (d a b c : BitVec 5)
  | funnel (d a b c : BitVec 5)
  -- Immediates (R97-R98)
  | addi (d a : BitVec 5) (i : BitVec 16)
  | andi (d a : BitVec 5) (i : BitVec 16)
  | ori (d a : BitVec 5) (i : BitVec 16)
  | xori (d a : BitVec 5) (i : BitVec 16)
  | slti (d a : BitVec 5) (i : BitVec 16)
  | sltni (d a : BitVec 5) (i : BitVec 16)
  | lui (d : BitVec 5) (i : BitVec 16)
  -- SHI (R99)
  | slli (d a : BitVec 5) (s : BitVec 6)
  | srli (d a : BitVec 5) (s : BitVec 6)
  | srai (d a : BitVec 5) (s : BitVec 6)
  | rori (d a : BitVec 5) (s : BitVec 6)
  | sllwi (d a s : BitVec 5)
  | srlwi (d a s : BitVec 5)
  | srawi (d a s : BitVec 5)
  -- BF (R100)
  | bfx (d a : BitVec 5) (p l : BitVec 6)
  | bfxn (d a : BitVec 5) (p l : BitVec 6)
  | bfi (d a : BitVec 5) (p l : BitVec 6)
  -- PTR and ADDPI (R101-R104)
  | mkp (d a b : BitVec 5)
  | phd (d a : BitVec 5)
  | pof (d a : BitVec 5)
  | addp (d a b : BitVec 5)
  | subp (d a b : BitVec 5)
  | pchk (d a : BitVec 5)
  | addpi (d a : BitVec 5) (i : BitVec 16)
  -- Branches, LOOP, JMP, CALL, JR, CALLR (R105-R110)
  | beq (a b : BitVec 5) (x : BitVec 16)
  | bne (a b : BitVec 5) (x : BitVec 16)
  | blt (a b : BitVec 5) (x : BitVec 16)
  | bge (a b : BitVec 5) (x : BitVec 16)
  | bltn (a b : BitVec 5) (x : BitVec 16)
  | bgen (a b : BitVec 5) (x : BitVec 16)
  | loop (a : BitVec 5) (x : BitVec 16)
  | jmp (x : BitVec 26)
  | call (x : BitVec 26)
  | jr (a : BitVec 5)
  | callr (a : BitVec 5)
  -- LD, ST, PAIR, BURST (R148-R151)
  | ld (d a : BitVec 5) (f : BitVec 4) (x : BitVec 10)
  | ldacq (d a : BitVec 5) (f : BitVec 4) (x : BitVec 10)
  | st (d a : BitVec 5) (f : BitVec 4) (x : BitVec 10)
  | strel (d a : BitVec 5) (f : BitVec 4) (x : BitVec 10)
  | ldp (d : BitVec 4) (a : BitVec 5) (x : BitVec 10)
  | stp (d : BitVec 4) (a : BitVec 5) (x : BitVec 10)
  | ldb (d a : BitVec 5) (n : BitVec 3) (x : BitVec 10)
  | stb (d a : BitVec 5) (n : BitVec 3) (x : BitVec 10)
  -- Full/empty (R152-R154)
  | lde (d a : BitVec 5) (x : BitVec 10)
  | ldc (d a : BitVec 5) (x : BitVec 10)
  | stf (d a : BitVec 5) (x : BitVec 10)
  | sto (d a : BitVec 5) (x : BitVec 10)
  | sete (a : BitVec 5) (x : BitVec 10)
  | setf (a : BitVec 5) (x : BitVec 10)
  | feq (d a : BitVec 5) (x : BitVec 10)
  -- AMO and CAS (R155-R157)
  | amoadd (d a b : BitVec 5) (p : BitVec 2) (w : BitVec 1)
  | amoand (d a b : BitVec 5) (p : BitVec 2) (w : BitVec 1)
  | amoor (d a b : BitVec 5) (p : BitVec 2) (w : BitVec 1)
  | amoxor (d a b : BitVec 5) (p : BitVec 2) (w : BitVec 1)
  | amomin (d a b : BitVec 5) (p : BitVec 2) (w : BitVec 1)
  | amomax (d a b : BitVec 5) (p : BitVec 2) (w : BitVec 1)
  | amominn (d a b : BitVec 5) (p : BitVec 2) (w : BitVec 1)
  | amomaxn (d a b : BitVec 5) (p : BitVec 2) (w : BitVec 1)
  | amoswp (d a b : BitVec 5) (p : BitVec 2) (w : BitVec 1)
  | cas (d a b : BitVec 5) (p : BitVec 2) (w : BitVec 1)
  | cas2 (d : BitVec 4) (a : BitVec 5) (b : BitVec 4) (p : BitVec 2)
  -- SYNC (R158-R163)
  | fence
  | fenceSys
  | fenceEng
  | cwb (a b : BitVec 5)
  | cinv (a b : BitVec 5)
  | pref (a : BitVec 5)
  | monw (d a b : BitVec 5)
  -- CHAN (R164-R169)
  | chb (d : BitVec 5) (c : BitVec 4)
  | chld (d : BitVec 5) (c f : BitVec 4) (n : BitVec 9)
  | chst (d : BitVec 5) (c f : BitVec 4) (n : BitVec 9)
  | chadvp (c : BitVec 4) (n : BitVec 9)
  | chadvc (c : BitVec 4) (n : BitVec 9)
  | chwaitp (c : BitVec 4) (n : BitVec 9)
  | chwaitc (c : BitVec 4) (n : BitVec 9)
  | chcnt (d : BitVec 5) (c : BitVec 4)
  | chptrHd (d : BitVec 5) (c : BitVec 4) (i : BitVec 8)
  | chptrTl (d : BitVec 5) (c : BitVec 4) (i : BitVec 8)
  -- PKA (R115-R117)
  | padd (d a b : BitVec 5) (w : BitVec 2)
  | psub (d a b : BitVec 5) (w : BitVec 2)
  | padds (d a b : BitVec 5) (w : BitVec 2)
  | psubs (d a b : BitVec 5) (w : BitVec 2)
  | paddns (d a b : BitVec 5) (w : BitVec 2)
  | psubns (d a b : BitVec 5) (w : BitVec 2)
  | pavg (d a b : BitVec 5) (w : BitVec 2)
  | pmin (d a b : BitVec 5) (w : BitVec 2)
  | pmax (d a b : BitVec 5) (w : BitVec 2)
  | pminn (d a b : BitVec 5) (w : BitVec 2)
  | pmaxn (d a b : BitVec 5) (w : BitVec 2)
  | pabs (d a : BitVec 5) (w : BitVec 2)
  | pneg (d a : BitVec 5) (w : BitVec 2)
  | pcmpeq (d a b : BitVec 5) (w : BitVec 2)
  | pcmplt (d a b : BitVec 5) (w : BitVec 2)
  | pcmpltn (d a b : BitVec 5) (w : BitVec 2)
  | psllv (d a b : BitVec 5) (w : BitVec 2)
  | psrlv (d a b : BitVec 5) (w : BitVec 2)
  | psrav (d a b : BitVec 5) (w : BitVec 2)
  | psum (d a : BitVec 5) (w : BitVec 2)
  | psumn (d a : BitVec 5) (w : BitVec 2)
  -- PKM (R118-R119)
  | pmul (d a b : BitVec 5) (w : BitVec 2)
  | pmulh (d a b : BitVec 5) (w : BitVec 2)
  | pmulhn (d a b : BitVec 5) (w : BitVec 2)
  | pmulq (d a b : BitVec 5) (w : BitVec 2)
  | pdot (d a b : BitVec 5) (w : BitVec 2)
  | pdotn (d a b : BitVec 5) (w : BitVec 2)
  -- PKX (R120-R122)
  | pslli (d a : BitVec 5) (w : BitVec 2) (i : BitVec 5)
  | psrli (d a : BitVec 5) (w : BitVec 2) (i : BitVec 5)
  | psrai (d a : BitVec 5) (w : BitVec 2) (i : BitVec 5)
  | psrari (d a : BitVec 5) (w : BitVec 2) (i : BitVec 5)
  | ppacks (d a b : BitVec 5) (w : BitVec 2)
  | ppackns (d a b : BitVec 5) (w : BitVec 2)
  | ppack (d a b : BitVec 5) (w : BitVec 2)
  | punpkl (d a : BitVec 5) (w : BitVec 2)
  | punpkh (d a : BitVec 5) (w : BitVec 2)
  | punpkln (d a : BitVec 5) (w : BitVec 2)
  | punpkhn (d a : BitVec 5) (w : BitVec 2)
  | pshuf (d a b : BitVec 5)
  | pbcast (d a : BitVec 5) (w : BitVec 2) (i : BitVec 5)
  | pins (d a : BitVec 5) (w : BitVec 2) (i : BitVec 5)
  | pext (d a : BitVec 5) (w : BitVec 2) (i : BitVec 5)
  | psel (d a b : BitVec 5)
  -- CPLX (R123-R125)
  | cadd (d a b : BitVec 5)
  | csub (d a b : BitVec 5)
  | caddh (d a b : BitVec 5)
  | csubh (d a b : BitVec 5)
  | cmul (d a b : BitVec 5)
  | cmulj (d a b : BitVec 5)
  | cj (d a : BitVec 5)
  | cmj (d a : BitVec 5)
  | cnorm (d a : BitVec 5)
  | cdot (d a b : BitVec 5)
  | cdotj (d a b : BitVec 5)
  | cbfly (d a b : BitVec 5)
  | cscl (d a b : BitVec 5)
  | crnd (d a b : BitVec 5)
  -- FP (R126-R131)
  | fadd (d a b : BitVec 5) (r : BitVec 3)
  | fsub (d a b : BitVec 5) (r : BitVec 3)
  | fmul (d a b : BitVec 5) (r : BitVec 3)
  | fdiv (d a b : BitVec 5) (r : BitVec 3)
  | fsqrt (d a : BitVec 5) (r : BitVec 3)
  | fmin (d a b : BitVec 5)
  | fmax (d a b : BitVec 5)
  | fabs (d a : BitVec 5)
  | fneg (d a : BitVec 5)
  | fsgnj (d a b : BitVec 5)
  | fcmpeq (d a b : BitVec 5)
  | fcmplt (d a b : BitVec 5)
  | fcmple (d a b : BitVec 5)
  | fclass (d a : BitVec 5)
  | frnd (d a : BitVec 5) (r : BitVec 3)
  -- FMA (R132-R133)
  | fma (d a b c : BitVec 5)
  | fms (d a b c : BitVec 5)
  | fnma (d a b c : BitVec 5)
  | fnms (d a b c : BitVec 5)
  | pfma (d a b c : BitVec 5)
  | pbfdot (d a b c : BitVec 5)
  -- FPK (R134-R136)
  | pfadd (d a b : BitVec 5)
  | pfsub (d a b : BitVec 5)
  | pfmul (d a b : BitVec 5)
  | pfmin (d a b : BitVec 5)
  | pfmax (d a b : BitVec 5)
  | pbfpack (d a b : BitVec 5)
  | pbfunpl (d a : BitVec 5)
  | pbfunph (d a : BitVec 5)
  | ptop2 (d a : BitVec 5)
  -- FCVT (R137-R139)
  | fcvtF32I32 (d a : BitVec 5) (r : BitVec 3)
  | fcvtF32N32 (d a : BitVec 5) (r : BitVec 3)
  | fcvtF32I64 (d a : BitVec 5) (r : BitVec 3)
  | fcvtF32N64 (d a : BitVec 5) (r : BitVec 3)
  | fcvtF32Q15 (d a : BitVec 5) (r : BitVec 3)
  | fcvtF32Q31 (d a : BitVec 5) (r : BitVec 3)
  | fcvtI32F32 (d a : BitVec 5) (r : BitVec 3)
  | fcvtN32F32 (d a : BitVec 5) (r : BitVec 3)
  | fcvtI64F32 (d a : BitVec 5) (r : BitVec 3)
  | fcvtN64F32 (d a : BitVec 5) (r : BitVec 3)
  | fcvtQ15F32 (d a : BitVec 5) (r : BitVec 3)
  | fcvtQ31F32 (d a : BitVec 5) (r : BitVec 3)
  | fcvtBf16F32 (d a : BitVec 5) (r : BitVec 3)
  | fcvtF32Bf16 (d a : BitVec 5) (r : BitVec 3)
  -- MMA (R175-R178)
  | mmaI8 (a b : BitVec 5) (m : BitVec 2) (n l : BitVec 6) (s z : BitVec 1)
  | mmaI16 (a b : BitVec 5) (m : BitVec 2) (n l : BitVec 6) (s z : BitVec 1)
  | mmaCq15 (a b : BitVec 5) (m : BitVec 2) (n l : BitVec 6) (s z : BitVec 1)
  | mmaDp8 (a b : BitVec 5) (m : BitVec 2) (n l : BitVec 6) (s z : BitVec 1)
  -- MCTL (R179-R182)
  | mzero (a b : BitVec 5)
  | mdrain (a b : BitVec 5)
  | msca (a : BitVec 5)
  | mstride (a b : BitVec 5)
  | mbmap (a : BitVec 5)
  | mstat (d : BitVec 5)
  | mwaitq
  -- CPY (R183-R187)
  | cpy (d a b : BitVec 5)
  | cpy2d (d a b : BitVec 5)
  | cpyg (d a b : BitVec 5)
  | cpys (d a b : BitVec 5)
  | cpyf (d a b : BitVec 5)
  | cpych (d a b : BitVec 5)
  -- KNOT (R188-R191)
  | kinit (a b : BitVec 5)
  | ksel (a : BitVec 5)
  | karr (a b : BitVec 5)
  | kwait (d a b : BitVec 5)
  | ktest (d a : BitVec 5)
  -- BAR (R192-R193)
  | barw (a : BitVec 5)
  | bara (a : BitVec 5)
  | barwt (d a b : BitVec 5)
  | wake (a b : BitVec 5)
  | wfw (d : BitVec 5)
  | wclr (a : BitVec 5)
  | wrd (d : BitVec 5)
  -- TASK (R194-R200)
  | spawn (d a b : BitVec 5)
  | spawnr (d a b : BitVec 5)
  | migr (a : BitVec 5)
  | join (a : BitVec 5)
  | yield (d : BitVec 5)
  | exit
  | launch (d a b : BitVec 5)
  | rankq (d a : BitVec 5)
  -- SYS (R201-R206)
  | trap (i : BitVec 12)
  | brk (i : BitVec 12)
  | svc (i : BitVec 12)
  | tfence
  | srd (d : BitVec 5) (i : BitVec 12)
  | swr (a : BitVec 5) (i : BitVec 12)
  | srx (d a : BitVec 5) (i : BitVec 12)
  | waitc (i : BitVec 12)
  | tret
  -- HINT (R64, R207)
  | immx (p : BitVec 23)
  | align (i : BitVec 23)
  | brp (p : BitVec 7)
  | prio (n : BitVec 5)
  | stream (p : BitVec 2)
  | noph (x : BitVec 23)
  -- Device steps (file 95; rows 273-393)
  | storeBufferDrain (core : Nat) (index : Nat)
  | bankAccess (bank : Nat) (present : List (Nat × Nat × Nat)) (err : Nat)
  | waitListRetry (bank : Nat)
  | overflowTableMove (bank : Nat)
  | refusedRepresentation (tile : Nat)
  | selfTestEnd (index : Nat) (lasting : Bool) (spare : Bool)
  | cacheFill (cluster : Nat) (index : Nat) (err : Nat) (source : Nat)
  | sweepPass (cluster : Nat)
  | sweepPassEnd (cluster : Nat)
  | epochWriteback (cluster : Nat) (index : Nat)
  | cacheConversion (cluster : Nat) (frames : Nat)
  | cacheGrowth (cluster : Nat) (frames : Nat)
  | conversionComplete (cluster : Nat)
  | writeback (cluster : Nat) (index : Nat)
  | homeRelease (present : List Nat)
  | homeAcquire (present : List Nat)
  | homeAtomic (present : List Nat)
  | drain (index : Nat)
  | drainDone (index : Nat)
  | drainBusy (agent : Nat)
  | agentDead (agent : Nat)
  | agentReadmit (agent : Nat)
  | monwPoll (line : Nat)
  | monwWake (line : Nat)
  | monwTimeout (ctx : Nat)
  | wakeDelivery (index : Nat)
  | crossClusterHandoffDrain (ctx : Nat)
  | barrierArrival (index : Nat)
  | barwtTimeout (ctx : Nat)
  | waitcExpiry (ctx : Nat)
  | alignTimeout (ctx : Nat)
  | svcServiceDone (ctx : Nat)
  | matrixTurn (tile : Nat)
  | operandFetch (core : Nat)
  | copyChunk (core : Nat)
  | calendarSlot (pch : Nat)
  | cpychAppend (core : Nat)
  | engineCompletion (core : Nat) (copy : Bool)
  | knotCountUpdate (index : Nat)
  | translationMiss (ctx : Nat)
  | translationLowered (cluster : Nat)
  | moduleLoad (id : Nat) (asid : Nat) (root : Nat) (codeAt : Nat) (bases : List Nat) (file : List (BitVec 8))
  | moduleLowering (cluster : Nat) (id : Nat)
  | translationInvalidate (clusters : List Nat) (id : Nat) (lo : Nat) (hi : Nat)
  | moduleUnload (id : Nat)
  | fetchRequest (tile : Nat)
  | doorbell (queue : Nat) (n : BitVec 6)
  | qctlTeardown (queue : Nat)
  | qctlReset (queue : Nat)
  | queueTeardownComplete (queue : Nat)
  | dependencySatisfied (queue : Nat) (index : Nat) (entry : Nat)
  | dispatch (place : List Nat)
  | residencyStage (id : Nat)
  | stageRelease (id : Nat)
  | stepCut (id : Nat)
  | taskPickup (ctx : Nat)
  | steal (ctx : Nat)
  | travellerArrival (index : Nat)
  | overflowListMove (core : Nat)
  | rankRelocate (id : Nat) (rank : Nat) (ctx : Nat)
  | deadlock (id : Nat)
  | strandThrottle (strand : Nat) (low : Nat) (cycles : Nat)
  | strandUnthrottle (strand : Nat) (peak : Nat) (cycles : Nat)
  | strimbWindow (strand : Nat) (devs : List Nat)
  | strandPowerUp
  | preemptionRequest (ctx : Nat)
  | yieldDeadline (ctx : Nat)
  | engineAcknowledge (ctx : Nat) (engine : Nat)
  | saveComplete (ctx : Nat)
  | resuming (ctx : Nat)
  | faultHold
  | hostCmdResume (ctx : Nat)
  | hostCmdEnd (ctx : Nat)
  | faultHoldExpiry (ctx : Nat)
  | rollback (id : Nat)
  | l1pageRefill (ctx : Nat)
  | frameEviction (cluster : Nat) (frame : Nat)
  | tlbWalk (cluster : Nat) (asid : Nat) (va : Nat) (ats : Nat) (addr : Nat)
  | hostSnoop (line : Nat) (write : Bool) (data : BitVec 1024)
  | recall (cluster : Nat) (line : Nat)
  | hostLineGrant (line : Nat) (exclusive : Bool)
  | cxlMemRead (addr : Nat) (size : Nat)
  | cxlMemWrite (addr : Nat) (mask : BitVec 128) (data : BitVec 1024)
  | biasFlip (v : BitVec 64)
  | biasFlipDone
  | shootdown (v : BitVec 64)
  | shootdownDone
  | pcieCompletion (tag : Nat) (status : Nat) (data : Nat)
  | priResponse (tag : Nat) (ok : Bool)
  | frsizeWrite (v : BitVec 64)
  | frheadWrite (v : BitVec 32)
  | frrplyDone (tag : BitVec 8)
  | frrplyFailed (tag : BitVec 8)
  | elclr
  | pcapWrite (v : BitVec 64)
  | dieClockWrite (v : BitVec 64)
  | registerWrite (offset : Nat) (v : BitVec 64)
  | governorTick (power : Nat)
  | frequencyStep (die : Nat) (code : Nat)
  | relockEnd (die : Nat)
  | supplyRampDone (die : Nat)
  | rtmSet (v : Nat)
  | powerGood
  | bootStageComplete
  | brownoutAssert
  | checkpointSealed
  | brownoutDeassert
  | brownoutRestart
  | frameReceive (lport : Nat) (bytes : List (BitVec 8)) (badFcs : Bool)
  | frameTransmit (id : Nat) (chan : Nat)
  | getVersion (req : List (BitVec 8))
  | getCapabilities (req : List (BitVec 8))
  | negotiateAlgorithms (req : List (BitVec 8))
  | getDigests (req : List (BitVec 8))
  | getCertificate (req : List (BitVec 8))
  | challenge (req : List (BitVec 8))
  | getMeasurements (req : List (BitVec 8))
  | handleTableRewrite (ctx : Nat) (h : Nat) (w0 : BitVec 64) (w1 : BitVec 64) (w2 : BitVec 64)
  | rtmSlew (ppm : Int)
  | supplyFailure
  | ballastIssue (core : Nat) (dev : Int)
  deriving DecidableEq, Repr

end Sys2Proof
end

