-- ==== Sys2Proof/WellFormed.lean ====
section
/-!
DEFINITION. Which instructions have an encoding: the values that R59, R61 and the members' own
entries rule out are ill-formed.  A word that encodes an ill-formed instruction is a stub (R62).
-/

namespace Sys2Proof

/-- A lane width: 00, 01 or 10 (R115, R118, R120). -/
def laneWidth (w : BitVec 2) : Bool := w != 3#2

/-- A rounding field: 0 to 3 static, 7 for TMR.frm; 4 to 6 are ruled out (R126, R137). -/
def rounding (r : BitVec 3) : Bool := r != 4#3 && r != 5#3 && r != 6#3

/-- Does the instruction obey every restriction of its entry that depends on the word alone (R59)?
A device step has no word and no restriction. -/
def Instr.wf : Instr → Bool
  | .illegal _ => true
  | .add _ _ _ => true
  | .sub _ _ _ => true
  | .and _ _ _ => true
  | .or _ _ _ => true
  | .xor _ _ _ => true
  | .andn _ _ _ => true
  | .sll _ _ _ => true
  | .srl _ _ _ => true
  | .sra _ _ _ => true
  | .ror _ _ _ => true
  | .slt _ _ _ => true
  | .sltn _ _ _ => true
  | .seq _ _ _ => true
  | .min _ _ _ => true
  | .max _ _ _ => true
  | .minn _ _ _ => true
  | .maxn _ _ _ => true
  | .mul _ _ _ => true
  | .mulh _ _ _ => true
  | .mulhn _ _ _ => true
  | .div _ _ _ => true
  | .divn _ _ _ => true
  | .rem _ _ _ => true
  | .remn _ _ _ => true
  | .clz _ _ => true
  | .ctz _ _ => true
  | .popc _ _ => true
  | .brev _ _ => true
  | .bswap _ _ => true
  | .addw _ _ _ => true
  | .subw _ _ _ => true
  | .mulw _ _ _ => true
  | .sllw _ _ _ => true
  | .srlw _ _ _ => true
  | .sraw _ _ _ => true
  | .divw _ _ _ => true
  | .remw _ _ _ => true
  | .csel _ _ _ _ => true
  | .madd _ _ _ _ => true
  | .msub _ _ _ _ => true
  | .funnel _ _ _ _ => true
  | .addi _ _ _ => true
  | .andi _ _ _ => true
  | .ori _ _ _ => true
  | .xori _ _ _ => true
  | .slti _ _ _ => true
  | .sltni _ _ _ => true
  | .lui _ _ => true
  | .slli _ _ _ => true
  | .srli _ _ _ => true
  | .srai _ _ _ => true
  | .rori _ _ _ => true
  | .sllwi _ _ _ => true
  | .srlwi _ _ _ => true
  | .srawi _ _ _ => true
  | .bfx _ _ p l => decide (p.toNat + (l.toNat + 1) ≤ 64)
  | .bfxn _ _ p l => decide (p.toNat + (l.toNat + 1) ≤ 64)
  | .bfi _ _ p l => decide (p.toNat + (l.toNat + 1) ≤ 64)
  | .mkp _ _ _ => true
  | .phd _ _ => true
  | .pof _ _ => true
  | .addp _ _ _ => true
  | .subp _ _ _ => true
  | .pchk _ _ => true
  | .addpi _ _ _ => true
  | .beq _ _ _ => true
  | .bne _ _ _ => true
  | .blt _ _ _ => true
  | .bge _ _ _ => true
  | .bltn _ _ _ => true
  | .bgen _ _ _ => true
  | .loop _ _ => true
  | .jmp _ => true
  | .call _ => true
  | .jr _ => true
  | .callr _ => true
  | .ld _ _ f _ => f != 15#4
  | .ldacq _ _ f _ => f != 15#4
  | .st _ _ f _ => f != 15#4
  | .strel _ _ f _ => f != 15#4
  | .ldp _ _ _ => true
  | .stp _ _ _ => true
  | .ldb d _ n _ => decide (d.toNat + n.toNat ≤ 31)
  | .stb d _ n _ => decide (d.toNat + n.toNat ≤ 31)
  | .lde _ _ _ => true
  | .ldc _ _ _ => true
  | .stf _ _ _ => true
  | .sto _ _ _ => true
  | .sete _ _ => true
  | .setf _ _ => true
  | .feq _ _ _ => true
  | .amoadd _ _ _ _ _ => true
  | .amoand _ _ _ _ _ => true
  | .amoor _ _ _ _ _ => true
  | .amoxor _ _ _ _ _ => true
  | .amomin _ _ _ _ _ => true
  | .amomax _ _ _ _ _ => true
  | .amominn _ _ _ _ _ => true
  | .amomaxn _ _ _ _ _ => true
  | .amoswp _ _ _ _ _ => true
  | .cas _ _ _ _ _ => true
  | .cas2 _ _ _ _ => true
  | .fence => true
  | .fenceSys => true
  | .fenceEng => true
  | .cwb _ _ => true
  | .cinv _ _ => true
  | .pref _ => true
  | .monw _ _ _ => true
  | .chb _ _ => true
  | .chld _ _ f _ => f != 15#4
  | .chst _ _ f _ => f != 15#4
  | .chadvp _ n => n != 0#9
  | .chadvc _ n => n != 0#9
  | .chwaitp _ n => n != 0#9
  | .chwaitc _ n => n != 0#9
  | .chcnt _ _ => true
  | .chptrHd _ _ _ => true
  | .chptrTl _ _ _ => true
  | .padd _ _ _ w => laneWidth w
  | .psub _ _ _ w => laneWidth w
  | .padds _ _ _ w => laneWidth w
  | .psubs _ _ _ w => laneWidth w
  | .paddns _ _ _ w => laneWidth w
  | .psubns _ _ _ w => laneWidth w
  | .pavg _ _ _ w => laneWidth w
  | .pmin _ _ _ w => laneWidth w
  | .pmax _ _ _ w => laneWidth w
  | .pminn _ _ _ w => laneWidth w
  | .pmaxn _ _ _ w => laneWidth w
  | .pabs _ _ w => laneWidth w
  | .pneg _ _ w => laneWidth w
  | .pcmpeq _ _ _ w => laneWidth w
  | .pcmplt _ _ _ w => laneWidth w
  | .pcmpltn _ _ _ w => laneWidth w
  | .psllv _ _ _ w => laneWidth w
  | .psrlv _ _ _ w => laneWidth w
  | .psrav _ _ _ w => laneWidth w
  | .psum _ _ w => laneWidth w
  | .psumn _ _ w => laneWidth w
  | .pmul _ _ _ w => laneWidth w
  | .pmulh _ _ _ w => laneWidth w
  | .pmulhn _ _ _ w => laneWidth w
  | .pmulq _ _ _ w => laneWidth w && w != 0#2
  | .pdot _ _ _ w => laneWidth w && w != 2#2
  | .pdotn _ _ _ w => laneWidth w && w != 2#2
  | .pslli _ _ w i => laneWidth w && decide (i.toNat < 8 * 2 ^ w.toNat)
  | .psrli _ _ w i => laneWidth w && decide (i.toNat < 8 * 2 ^ w.toNat)
  | .psrai _ _ w i => laneWidth w && decide (i.toNat < 8 * 2 ^ w.toNat)
  | .psrari _ _ w i => laneWidth w && decide (i.toNat < 8 * 2 ^ w.toNat)
  | .ppacks _ _ _ w => w == 1#2 || w == 2#2
  | .ppackns _ _ _ w => w == 1#2 || w == 2#2
  | .ppack _ _ _ w => w == 1#2 || w == 2#2
  | .punpkl _ _ w => w == 1#2 || w == 2#2
  | .punpkh _ _ w => w == 1#2 || w == 2#2
  | .punpkln _ _ w => w == 1#2 || w == 2#2
  | .punpkhn _ _ w => w == 1#2 || w == 2#2
  | .pshuf _ _ _ => true
  | .pbcast _ _ w i => laneWidth w && decide (i.toNat * 2 ^ w.toNat < 8)
  | .pins _ _ w i => laneWidth w && decide (i.toNat * 2 ^ w.toNat < 8)
  | .pext _ _ w i => laneWidth w && decide (i.toNat * 2 ^ w.toNat < 8)
  | .psel _ _ _ => true
  | .cadd _ _ _ => true
  | .csub _ _ _ => true
  | .caddh _ _ _ => true
  | .csubh _ _ _ => true
  | .cmul _ _ _ => true
  | .cmulj _ _ _ => true
  | .cj _ _ => true
  | .cmj _ _ => true
  | .cnorm _ _ => true
  | .cdot _ _ _ => true
  | .cdotj _ _ _ => true
  | .cbfly _ _ _ => true
  | .cscl _ _ _ => true
  | .crnd _ _ _ => true
  | .fadd _ _ _ r => rounding r
  | .fsub _ _ _ r => rounding r
  | .fmul _ _ _ r => rounding r
  | .fdiv _ _ _ r => rounding r
  | .fsqrt _ _ r => rounding r
  | .fmin _ _ _ => true
  | .fmax _ _ _ => true
  | .fabs _ _ => true
  | .fneg _ _ => true
  | .fsgnj _ _ _ => true
  | .fcmpeq _ _ _ => true
  | .fcmplt _ _ _ => true
  | .fcmple _ _ _ => true
  | .fclass _ _ => true
  | .frnd _ _ r => rounding r
  | .fma _ _ _ _ => true
  | .fms _ _ _ _ => true
  | .fnma _ _ _ _ => true
  | .fnms _ _ _ _ => true
  | .pfma _ _ _ _ => true
  | .pbfdot _ _ _ _ => true
  | .pfadd _ _ _ => true
  | .pfsub _ _ _ => true
  | .pfmul _ _ _ => true
  | .pfmin _ _ _ => true
  | .pfmax _ _ _ => true
  | .pbfpack _ _ _ => true
  | .pbfunpl _ _ => true
  | .pbfunph _ _ => true
  | .ptop2 _ _ => true
  | .fcvtF32I32 _ _ r => rounding r
  | .fcvtF32N32 _ _ r => rounding r
  | .fcvtF32I64 _ _ r => rounding r
  | .fcvtF32N64 _ _ r => rounding r
  | .fcvtF32Q15 _ _ r => rounding r
  | .fcvtF32Q31 _ _ r => rounding r
  | .fcvtI32F32 _ _ r => rounding r
  | .fcvtN32F32 _ _ r => rounding r
  | .fcvtI64F32 _ _ r => rounding r
  | .fcvtN64F32 _ _ r => rounding r
  | .fcvtQ15F32 _ _ r => rounding r
  | .fcvtQ31F32 _ _ r => rounding r
  | .fcvtBf16F32 _ _ r => rounding r
  | .fcvtF32Bf16 _ _ r => rounding r
  | .mmaI8 _ _ m n _ _ _ => m != 3#2 && n != 0#6
  | .mmaI16 _ _ m n _ _ _ => m != 3#2 && n != 0#6
  | .mmaCq15 _ _ m n _ _ _ => m != 3#2 && n != 0#6
  | .mmaDp8 _ _ m n _ _ _ => m != 3#2 && n != 0#6
  | .mzero _ _ => true
  | .mdrain _ _ => true
  | .msca _ => true
  | .mstride _ _ => true
  | .mbmap _ => true
  | .mstat _ => true
  | .mwaitq => true
  | .cpy _ _ _ => true
  | .cpy2d _ _ _ => true
  | .cpyg _ _ _ => true
  | .cpys _ _ _ => true
  | .cpyf _ _ _ => true
  | .cpych _ _ _ => true
  | .kinit _ _ => true
  | .ksel _ => true
  | .karr _ _ => true
  | .kwait _ _ _ => true
  | .ktest _ _ => true
  | .barw _ => true
  | .bara _ => true
  | .barwt _ _ _ => true
  | .wake _ _ => true
  | .wfw _ => true
  | .wclr _ => true
  | .wrd _ => true
  | .spawn _ _ _ => true
  | .spawnr _ _ _ => true
  | .migr _ => true
  | .join _ => true
  | .yield _ => true
  | .exit => true
  | .launch _ _ _ => true
  | .rankq _ _ => true
  | .trap _ => true
  | .brk _ => true
  | .svc _ => true
  | .tfence => true
  | .srd _ _ => true
  | .swr _ _ => true
  | .srx _ _ _ => true
  | .waitc _ => true
  | .tret => true
  | .immx _ => true
  | .align _ => true
  | .brp _ => true
  | .prio _ => true
  | .stream _ => true
  | .noph _ => true
  | .storeBufferDrain _ _ => true
  | .bankAccess _ _ _ => true
  | .waitListRetry _ => true
  | .overflowTableMove _ => true
  | .refusedRepresentation _ => true
  | .selfTestEnd _ _ _ => true
  | .cacheFill _ _ _ _ => true
  | .sweepPass _ => true
  | .sweepPassEnd _ => true
  | .epochWriteback _ _ => true
  | .cacheConversion _ _ => true
  | .cacheGrowth _ _ => true
  | .conversionComplete _ => true
  | .writeback _ _ => true
  | .homeRelease _ => true
  | .homeAcquire _ => true
  | .homeAtomic _ => true
  | .drain _ => true
  | .drainDone _ => true
  | .drainBusy _ => true
  | .agentDead _ => true
  | .agentReadmit _ => true
  | .monwPoll _ => true
  | .monwWake _ => true
  | .monwTimeout _ => true
  | .wakeDelivery _ => true
  | .crossClusterHandoffDrain _ => true
  | .barrierArrival _ => true
  | .barwtTimeout _ => true
  | .waitcExpiry _ => true
  | .alignTimeout _ => true
  | .svcServiceDone _ => true
  | .matrixTurn _ => true
  | .operandFetch _ => true
  | .copyChunk _ => true
  | .calendarSlot _ => true
  | .cpychAppend _ => true
  | .engineCompletion _ _ => true
  | .knotCountUpdate _ => true
  | .translationMiss _ => true
  | .translationLowered _ => true
  | .moduleLoad _ _ _ _ _ _ => true
  | .moduleLowering _ _ => true
  | .translationInvalidate _ _ _ _ => true
  | .moduleUnload _ => true
  | .fetchRequest _ => true
  | .doorbell _ _ => true
  | .qctlTeardown _ => true
  | .qctlReset _ => true
  | .queueTeardownComplete _ => true
  | .dependencySatisfied _ _ _ => true
  | .dispatch _ => true
  | .residencyStage _ => true
  | .stageRelease _ => true
  | .stepCut _ => true
  | .taskPickup _ => true
  | .steal _ => true
  | .travellerArrival _ => true
  | .overflowListMove _ => true
  | .rankRelocate _ _ _ => true
  | .deadlock _ => true
  | .strandThrottle _ _ _ => true
  | .strandUnthrottle _ _ _ => true
  | .strimbWindow _ _ => true
  | .strandPowerUp => true
  | .preemptionRequest _ => true
  | .yieldDeadline _ => true
  | .engineAcknowledge _ _ => true
  | .saveComplete _ => true
  | .resuming _ => true
  | .faultHold => true
  | .hostCmdResume _ => true
  | .hostCmdEnd _ => true
  | .faultHoldExpiry _ => true
  | .rollback _ => true
  | .l1pageRefill _ => true
  | .frameEviction _ _ => true
  | .tlbWalk _ _ _ _ _ => true
  | .hostSnoop _ _ _ => true
  | .recall _ _ => true
  | .hostLineGrant _ _ => true
  | .cxlMemRead _ _ => true
  | .cxlMemWrite _ _ _ => true
  | .biasFlip _ => true
  | .biasFlipDone => true
  | .shootdown _ => true
  | .shootdownDone => true
  | .pcieCompletion _ _ _ => true
  | .priResponse _ _ => true
  | .frsizeWrite _ => true
  | .frheadWrite _ => true
  | .frrplyDone _ => true
  | .frrplyFailed _ => true
  | .elclr => true
  | .pcapWrite _ => true
  | .dieClockWrite _ => true
  | .registerWrite _ _ => true
  | .governorTick _ => true
  | .frequencyStep _ _ => true
  | .relockEnd _ => true
  | .supplyRampDone _ => true
  | .rtmSet _ => true
  | .powerGood => true
  | .bootStageComplete => true
  | .brownoutAssert => true
  | .checkpointSealed => true
  | .brownoutDeassert => true
  | .brownoutRestart => true
  | .frameReceive _ _ _ => true
  | .frameTransmit _ _ => true
  | .getVersion _ => true
  | .getCapabilities _ => true
  | .negotiateAlgorithms _ => true
  | .getDigests _ => true
  | .getCertificate _ => true
  | .challenge _ => true
  | .getMeasurements _ => true
  | .handleTableRewrite _ _ _ _ _ => true
  | .rtmSlew _ => true
  | .supplyFailure => true
  | .ballastIssue _ _ => true

/-- Is this constructor an instruction word (R57), rather than a device step? -/
def Instr.isWord : Instr → Bool
  | .illegal _ => true
  | .add _ _ _ => true
  | .sub _ _ _ => true
  | .and _ _ _ => true
  | .or _ _ _ => true
  | .xor _ _ _ => true
  | .andn _ _ _ => true
  | .sll _ _ _ => true
  | .srl _ _ _ => true
  | .sra _ _ _ => true
  | .ror _ _ _ => true
  | .slt _ _ _ => true
  | .sltn _ _ _ => true
  | .seq _ _ _ => true
  | .min _ _ _ => true
  | .max _ _ _ => true
  | .minn _ _ _ => true
  | .maxn _ _ _ => true
  | .mul _ _ _ => true
  | .mulh _ _ _ => true
  | .mulhn _ _ _ => true
  | .div _ _ _ => true
  | .divn _ _ _ => true
  | .rem _ _ _ => true
  | .remn _ _ _ => true
  | .clz _ _ => true
  | .ctz _ _ => true
  | .popc _ _ => true
  | .brev _ _ => true
  | .bswap _ _ => true
  | .addw _ _ _ => true
  | .subw _ _ _ => true
  | .mulw _ _ _ => true
  | .sllw _ _ _ => true
  | .srlw _ _ _ => true
  | .sraw _ _ _ => true
  | .divw _ _ _ => true
  | .remw _ _ _ => true
  | .csel _ _ _ _ => true
  | .madd _ _ _ _ => true
  | .msub _ _ _ _ => true
  | .funnel _ _ _ _ => true
  | .addi _ _ _ => true
  | .andi _ _ _ => true
  | .ori _ _ _ => true
  | .xori _ _ _ => true
  | .slti _ _ _ => true
  | .sltni _ _ _ => true
  | .lui _ _ => true
  | .slli _ _ _ => true
  | .srli _ _ _ => true
  | .srai _ _ _ => true
  | .rori _ _ _ => true
  | .sllwi _ _ _ => true
  | .srlwi _ _ _ => true
  | .srawi _ _ _ => true
  | .bfx _ _ _ _ => true
  | .bfxn _ _ _ _ => true
  | .bfi _ _ _ _ => true
  | .mkp _ _ _ => true
  | .phd _ _ => true
  | .pof _ _ => true
  | .addp _ _ _ => true
  | .subp _ _ _ => true
  | .pchk _ _ => true
  | .addpi _ _ _ => true
  | .beq _ _ _ => true
  | .bne _ _ _ => true
  | .blt _ _ _ => true
  | .bge _ _ _ => true
  | .bltn _ _ _ => true
  | .bgen _ _ _ => true
  | .loop _ _ => true
  | .jmp _ => true
  | .call _ => true
  | .jr _ => true
  | .callr _ => true
  | .ld _ _ _ _ => true
  | .ldacq _ _ _ _ => true
  | .st _ _ _ _ => true
  | .strel _ _ _ _ => true
  | .ldp _ _ _ => true
  | .stp _ _ _ => true
  | .ldb _ _ _ _ => true
  | .stb _ _ _ _ => true
  | .lde _ _ _ => true
  | .ldc _ _ _ => true
  | .stf _ _ _ => true
  | .sto _ _ _ => true
  | .sete _ _ => true
  | .setf _ _ => true
  | .feq _ _ _ => true
  | .amoadd _ _ _ _ _ => true
  | .amoand _ _ _ _ _ => true
  | .amoor _ _ _ _ _ => true
  | .amoxor _ _ _ _ _ => true
  | .amomin _ _ _ _ _ => true
  | .amomax _ _ _ _ _ => true
  | .amominn _ _ _ _ _ => true
  | .amomaxn _ _ _ _ _ => true
  | .amoswp _ _ _ _ _ => true
  | .cas _ _ _ _ _ => true
  | .cas2 _ _ _ _ => true
  | .fence => true
  | .fenceSys => true
  | .fenceEng => true
  | .cwb _ _ => true
  | .cinv _ _ => true
  | .pref _ => true
  | .monw _ _ _ => true
  | .chb _ _ => true
  | .chld _ _ _ _ => true
  | .chst _ _ _ _ => true
  | .chadvp _ _ => true
  | .chadvc _ _ => true
  | .chwaitp _ _ => true
  | .chwaitc _ _ => true
  | .chcnt _ _ => true
  | .chptrHd _ _ _ => true
  | .chptrTl _ _ _ => true
  | .padd _ _ _ _ => true
  | .psub _ _ _ _ => true
  | .padds _ _ _ _ => true
  | .psubs _ _ _ _ => true
  | .paddns _ _ _ _ => true
  | .psubns _ _ _ _ => true
  | .pavg _ _ _ _ => true
  | .pmin _ _ _ _ => true
  | .pmax _ _ _ _ => true
  | .pminn _ _ _ _ => true
  | .pmaxn _ _ _ _ => true
  | .pabs _ _ _ => true
  | .pneg _ _ _ => true
  | .pcmpeq _ _ _ _ => true
  | .pcmplt _ _ _ _ => true
  | .pcmpltn _ _ _ _ => true
  | .psllv _ _ _ _ => true
  | .psrlv _ _ _ _ => true
  | .psrav _ _ _ _ => true
  | .psum _ _ _ => true
  | .psumn _ _ _ => true
  | .pmul _ _ _ _ => true
  | .pmulh _ _ _ _ => true
  | .pmulhn _ _ _ _ => true
  | .pmulq _ _ _ _ => true
  | .pdot _ _ _ _ => true
  | .pdotn _ _ _ _ => true
  | .pslli _ _ _ _ => true
  | .psrli _ _ _ _ => true
  | .psrai _ _ _ _ => true
  | .psrari _ _ _ _ => true
  | .ppacks _ _ _ _ => true
  | .ppackns _ _ _ _ => true
  | .ppack _ _ _ _ => true
  | .punpkl _ _ _ => true
  | .punpkh _ _ _ => true
  | .punpkln _ _ _ => true
  | .punpkhn _ _ _ => true
  | .pshuf _ _ _ => true
  | .pbcast _ _ _ _ => true
  | .pins _ _ _ _ => true
  | .pext _ _ _ _ => true
  | .psel _ _ _ => true
  | .cadd _ _ _ => true
  | .csub _ _ _ => true
  | .caddh _ _ _ => true
  | .csubh _ _ _ => true
  | .cmul _ _ _ => true
  | .cmulj _ _ _ => true
  | .cj _ _ => true
  | .cmj _ _ => true
  | .cnorm _ _ => true
  | .cdot _ _ _ => true
  | .cdotj _ _ _ => true
  | .cbfly _ _ _ => true
  | .cscl _ _ _ => true
  | .crnd _ _ _ => true
  | .fadd _ _ _ _ => true
  | .fsub _ _ _ _ => true
  | .fmul _ _ _ _ => true
  | .fdiv _ _ _ _ => true
  | .fsqrt _ _ _ => true
  | .fmin _ _ _ => true
  | .fmax _ _ _ => true
  | .fabs _ _ => true
  | .fneg _ _ => true
  | .fsgnj _ _ _ => true
  | .fcmpeq _ _ _ => true
  | .fcmplt _ _ _ => true
  | .fcmple _ _ _ => true
  | .fclass _ _ => true
  | .frnd _ _ _ => true
  | .fma _ _ _ _ => true
  | .fms _ _ _ _ => true
  | .fnma _ _ _ _ => true
  | .fnms _ _ _ _ => true
  | .pfma _ _ _ _ => true
  | .pbfdot _ _ _ _ => true
  | .pfadd _ _ _ => true
  | .pfsub _ _ _ => true
  | .pfmul _ _ _ => true
  | .pfmin _ _ _ => true
  | .pfmax _ _ _ => true
  | .pbfpack _ _ _ => true
  | .pbfunpl _ _ => true
  | .pbfunph _ _ => true
  | .ptop2 _ _ => true
  | .fcvtF32I32 _ _ _ => true
  | .fcvtF32N32 _ _ _ => true
  | .fcvtF32I64 _ _ _ => true
  | .fcvtF32N64 _ _ _ => true
  | .fcvtF32Q15 _ _ _ => true
  | .fcvtF32Q31 _ _ _ => true
  | .fcvtI32F32 _ _ _ => true
  | .fcvtN32F32 _ _ _ => true
  | .fcvtI64F32 _ _ _ => true
  | .fcvtN64F32 _ _ _ => true
  | .fcvtQ15F32 _ _ _ => true
  | .fcvtQ31F32 _ _ _ => true
  | .fcvtBf16F32 _ _ _ => true
  | .fcvtF32Bf16 _ _ _ => true
  | .mmaI8 _ _ _ _ _ _ _ => true
  | .mmaI16 _ _ _ _ _ _ _ => true
  | .mmaCq15 _ _ _ _ _ _ _ => true
  | .mmaDp8 _ _ _ _ _ _ _ => true
  | .mzero _ _ => true
  | .mdrain _ _ => true
  | .msca _ => true
  | .mstride _ _ => true
  | .mbmap _ => true
  | .mstat _ => true
  | .mwaitq => true
  | .cpy _ _ _ => true
  | .cpy2d _ _ _ => true
  | .cpyg _ _ _ => true
  | .cpys _ _ _ => true
  | .cpyf _ _ _ => true
  | .cpych _ _ _ => true
  | .kinit _ _ => true
  | .ksel _ => true
  | .karr _ _ => true
  | .kwait _ _ _ => true
  | .ktest _ _ => true
  | .barw _ => true
  | .bara _ => true
  | .barwt _ _ _ => true
  | .wake _ _ => true
  | .wfw _ => true
  | .wclr _ => true
  | .wrd _ => true
  | .spawn _ _ _ => true
  | .spawnr _ _ _ => true
  | .migr _ => true
  | .join _ => true
  | .yield _ => true
  | .exit => true
  | .launch _ _ _ => true
  | .rankq _ _ => true
  | .trap _ => true
  | .brk _ => true
  | .svc _ => true
  | .tfence => true
  | .srd _ _ => true
  | .swr _ _ => true
  | .srx _ _ _ => true
  | .waitc _ => true
  | .tret => true
  | .immx _ => true
  | .align _ => true
  | .brp _ => true
  | .prio _ => true
  | .stream _ => true
  | .noph _ => true
  | .storeBufferDrain _ _ => false
  | .bankAccess _ _ _ => false
  | .waitListRetry _ => false
  | .overflowTableMove _ => false
  | .refusedRepresentation _ => false
  | .selfTestEnd _ _ _ => false
  | .cacheFill _ _ _ _ => false
  | .sweepPass _ => false
  | .sweepPassEnd _ => false
  | .epochWriteback _ _ => false
  | .cacheConversion _ _ => false
  | .cacheGrowth _ _ => false
  | .conversionComplete _ => false
  | .writeback _ _ => false
  | .homeRelease _ => false
  | .homeAcquire _ => false
  | .homeAtomic _ => false
  | .drain _ => false
  | .drainDone _ => false
  | .drainBusy _ => false
  | .agentDead _ => false
  | .agentReadmit _ => false
  | .monwPoll _ => false
  | .monwWake _ => false
  | .monwTimeout _ => false
  | .wakeDelivery _ => false
  | .crossClusterHandoffDrain _ => false
  | .barrierArrival _ => false
  | .barwtTimeout _ => false
  | .waitcExpiry _ => false
  | .alignTimeout _ => false
  | .svcServiceDone _ => false
  | .matrixTurn _ => false
  | .operandFetch _ => false
  | .copyChunk _ => false
  | .calendarSlot _ => false
  | .cpychAppend _ => false
  | .engineCompletion _ _ => false
  | .knotCountUpdate _ => false
  | .translationMiss _ => false
  | .translationLowered _ => false
  | .moduleLoad _ _ _ _ _ _ => false
  | .moduleLowering _ _ => false
  | .translationInvalidate _ _ _ _ => false
  | .moduleUnload _ => false
  | .fetchRequest _ => false
  | .doorbell _ _ => false
  | .qctlTeardown _ => false
  | .qctlReset _ => false
  | .queueTeardownComplete _ => false
  | .dependencySatisfied _ _ _ => false
  | .dispatch _ => false
  | .residencyStage _ => false
  | .stageRelease _ => false
  | .stepCut _ => false
  | .taskPickup _ => false
  | .steal _ => false
  | .travellerArrival _ => false
  | .overflowListMove _ => false
  | .rankRelocate _ _ _ => false
  | .deadlock _ => false
  | .strandThrottle _ _ _ => false
  | .strandUnthrottle _ _ _ => false
  | .strimbWindow _ _ => false
  | .strandPowerUp => false
  | .preemptionRequest _ => false
  | .yieldDeadline _ => false
  | .engineAcknowledge _ _ => false
  | .saveComplete _ => false
  | .resuming _ => false
  | .faultHold => false
  | .hostCmdResume _ => false
  | .hostCmdEnd _ => false
  | .faultHoldExpiry _ => false
  | .rollback _ => false
  | .l1pageRefill _ => false
  | .frameEviction _ _ => false
  | .tlbWalk _ _ _ _ _ => false
  | .hostSnoop _ _ _ => false
  | .recall _ _ => false
  | .hostLineGrant _ _ => false
  | .cxlMemRead _ _ => false
  | .cxlMemWrite _ _ _ => false
  | .biasFlip _ => false
  | .biasFlipDone => false
  | .shootdown _ => false
  | .shootdownDone => false
  | .pcieCompletion _ _ _ => false
  | .priResponse _ _ => false
  | .frsizeWrite _ => false
  | .frheadWrite _ => false
  | .frrplyDone _ => false
  | .frrplyFailed _ => false
  | .elclr => false
  | .pcapWrite _ => false
  | .dieClockWrite _ => false
  | .registerWrite _ _ => false
  | .governorTick _ => false
  | .frequencyStep _ _ => false
  | .relockEnd _ => false
  | .supplyRampDone _ => false
  | .rtmSet _ => false
  | .powerGood => false
  | .bootStageComplete => false
  | .brownoutAssert => false
  | .checkpointSealed => false
  | .brownoutDeassert => false
  | .brownoutRestart => false
  | .frameReceive _ _ _ => false
  | .frameTransmit _ _ => false
  | .getVersion _ => false
  | .getCapabilities _ => false
  | .negotiateAlgorithms _ => false
  | .getDigests _ => false
  | .getCertificate _ => false
  | .challenge _ => false
  | .getMeasurements _ => false
  | .handleTableRewrite _ _ _ _ _ => false
  | .rtmSlew _ => false
  | .supplyFailure => false
  | .ballastIssue _ _ => false

/-- The module revision that adds the member (R63). -/
def Instr.revision : Instr → Nat
  | .illegal _ => 1
  | .add _ _ _ => 1
  | .sub _ _ _ => 1
  | .and _ _ _ => 1
  | .or _ _ _ => 1
  | .xor _ _ _ => 1
  | .andn _ _ _ => 1
  | .sll _ _ _ => 1
  | .srl _ _ _ => 1
  | .sra _ _ _ => 1
  | .ror _ _ _ => 1
  | .slt _ _ _ => 1
  | .sltn _ _ _ => 1
  | .seq _ _ _ => 1
  | .min _ _ _ => 1
  | .max _ _ _ => 1
  | .minn _ _ _ => 1
  | .maxn _ _ _ => 1
  | .mul _ _ _ => 1
  | .mulh _ _ _ => 1
  | .mulhn _ _ _ => 1
  | .div _ _ _ => 1
  | .divn _ _ _ => 1
  | .rem _ _ _ => 1
  | .remn _ _ _ => 1
  | .clz _ _ => 1
  | .ctz _ _ => 1
  | .popc _ _ => 1
  | .brev _ _ => 1
  | .bswap _ _ => 1
  | .addw _ _ _ => 1
  | .subw _ _ _ => 1
  | .mulw _ _ _ => 1
  | .sllw _ _ _ => 1
  | .srlw _ _ _ => 1
  | .sraw _ _ _ => 1
  | .divw _ _ _ => 1
  | .remw _ _ _ => 1
  | .csel _ _ _ _ => 1
  | .madd _ _ _ _ => 1
  | .msub _ _ _ _ => 1
  | .funnel _ _ _ _ => 1
  | .addi _ _ _ => 1
  | .andi _ _ _ => 1
  | .ori _ _ _ => 1
  | .xori _ _ _ => 1
  | .slti _ _ _ => 1
  | .sltni _ _ _ => 1
  | .lui _ _ => 1
  | .slli _ _ _ => 1
  | .srli _ _ _ => 1
  | .srai _ _ _ => 1
  | .rori _ _ _ => 1
  | .sllwi _ _ _ => 1
  | .srlwi _ _ _ => 1
  | .srawi _ _ _ => 1
  | .bfx _ _ _ _ => 1
  | .bfxn _ _ _ _ => 1
  | .bfi _ _ _ _ => 1
  | .mkp _ _ _ => 1
  | .phd _ _ => 1
  | .pof _ _ => 1
  | .addp _ _ _ => 1
  | .subp _ _ _ => 1
  | .pchk _ _ => 1
  | .addpi _ _ _ => 1
  | .beq _ _ _ => 1
  | .bne _ _ _ => 1
  | .blt _ _ _ => 1
  | .bge _ _ _ => 1
  | .bltn _ _ _ => 1
  | .bgen _ _ _ => 1
  | .loop _ _ => 1
  | .jmp _ => 1
  | .call _ => 1
  | .jr _ => 1
  | .callr _ => 1
  | .ld _ _ f _ => if f == 7#4 then 2 else 1
  | .ldacq _ _ f _ => if f == 7#4 then 2 else 1
  | .st _ _ f _ => if f == 7#4 then 2 else 1
  | .strel _ _ f _ => if f == 7#4 then 2 else 1
  | .ldp _ _ _ => 1
  | .stp _ _ _ => 1
  | .ldb _ _ _ _ => 1
  | .stb _ _ _ _ => 1
  | .lde _ _ _ => 1
  | .ldc _ _ _ => 1
  | .stf _ _ _ => 1
  | .sto _ _ _ => 1
  | .sete _ _ => 1
  | .setf _ _ => 1
  | .feq _ _ _ => 1
  | .amoadd _ _ _ _ _ => 1
  | .amoand _ _ _ _ _ => 1
  | .amoor _ _ _ _ _ => 1
  | .amoxor _ _ _ _ _ => 1
  | .amomin _ _ _ _ _ => 1
  | .amomax _ _ _ _ _ => 1
  | .amominn _ _ _ _ _ => 1
  | .amomaxn _ _ _ _ _ => 1
  | .amoswp _ _ _ _ _ => 1
  | .cas _ _ _ _ _ => 1
  | .cas2 _ _ _ _ => 3
  | .fence => 1
  | .fenceSys => 1
  | .fenceEng => 1
  | .cwb _ _ => 1
  | .cinv _ _ => 1
  | .pref _ => 1
  | .monw _ _ _ => 3
  | .chb _ _ => 1
  | .chld _ _ f _ => if f == 7#4 then 2 else 1
  | .chst _ _ f _ => if f == 7#4 then 2 else 1
  | .chadvp _ _ => 1
  | .chadvc _ _ => 1
  | .chwaitp _ _ => 1
  | .chwaitc _ _ => 1
  | .chcnt _ _ => 1
  | .chptrHd _ _ _ => 1
  | .chptrTl _ _ _ => 1
  | .padd _ _ _ _ => 1
  | .psub _ _ _ _ => 1
  | .padds _ _ _ _ => 1
  | .psubs _ _ _ _ => 1
  | .paddns _ _ _ _ => 1
  | .psubns _ _ _ _ => 1
  | .pavg _ _ _ _ => 1
  | .pmin _ _ _ _ => 1
  | .pmax _ _ _ _ => 1
  | .pminn _ _ _ _ => 1
  | .pmaxn _ _ _ _ => 1
  | .pabs _ _ _ => 1
  | .pneg _ _ _ => 1
  | .pcmpeq _ _ _ _ => 1
  | .pcmplt _ _ _ _ => 1
  | .pcmpltn _ _ _ _ => 1
  | .psllv _ _ _ _ => 1
  | .psrlv _ _ _ _ => 1
  | .psrav _ _ _ _ => 1
  | .psum _ _ _ => 1
  | .psumn _ _ _ => 1
  | .pmul _ _ _ _ => 1
  | .pmulh _ _ _ _ => 1
  | .pmulhn _ _ _ _ => 1
  | .pmulq _ _ _ _ => 1
  | .pdot _ _ _ _ => 1
  | .pdotn _ _ _ _ => 1
  | .pslli _ _ _ _ => 1
  | .psrli _ _ _ _ => 1
  | .psrai _ _ _ _ => 1
  | .psrari _ _ _ _ => 1
  | .ppacks _ _ _ _ => 1
  | .ppackns _ _ _ _ => 1
  | .ppack _ _ _ _ => 1
  | .punpkl _ _ _ => 1
  | .punpkh _ _ _ => 1
  | .punpkln _ _ _ => 1
  | .punpkhn _ _ _ => 1
  | .pshuf _ _ _ => 1
  | .pbcast _ _ _ _ => 1
  | .pins _ _ _ _ => 1
  | .pext _ _ _ _ => 1
  | .psel _ _ _ => 1
  | .cadd _ _ _ => 1
  | .csub _ _ _ => 1
  | .caddh _ _ _ => 1
  | .csubh _ _ _ => 1
  | .cmul _ _ _ => 1
  | .cmulj _ _ _ => 1
  | .cj _ _ => 1
  | .cmj _ _ => 1
  | .cnorm _ _ => 1
  | .cdot _ _ _ => 1
  | .cdotj _ _ _ => 1
  | .cbfly _ _ _ => 1
  | .cscl _ _ _ => 1
  | .crnd _ _ _ => 1
  | .fadd _ _ _ _ => 1
  | .fsub _ _ _ _ => 1
  | .fmul _ _ _ _ => 1
  | .fdiv _ _ _ _ => 1
  | .fsqrt _ _ _ => 1
  | .fmin _ _ _ => 1
  | .fmax _ _ _ => 1
  | .fabs _ _ => 1
  | .fneg _ _ => 1
  | .fsgnj _ _ _ => 1
  | .fcmpeq _ _ _ => 1
  | .fcmplt _ _ _ => 1
  | .fcmple _ _ _ => 1
  | .fclass _ _ => 1
  | .frnd _ _ _ => 1
  | .fma _ _ _ _ => 1
  | .fms _ _ _ _ => 1
  | .fnma _ _ _ _ => 1
  | .fnms _ _ _ _ => 1
  | .pfma _ _ _ _ => 1
  | .pbfdot _ _ _ _ => 2
  | .pfadd _ _ _ => 1
  | .pfsub _ _ _ => 1
  | .pfmul _ _ _ => 1
  | .pfmin _ _ _ => 1
  | .pfmax _ _ _ => 1
  | .pbfpack _ _ _ => 2
  | .pbfunpl _ _ => 2
  | .pbfunph _ _ => 2
  | .ptop2 _ _ => 2
  | .fcvtF32I32 _ _ _ => 1
  | .fcvtF32N32 _ _ _ => 1
  | .fcvtF32I64 _ _ _ => 1
  | .fcvtF32N64 _ _ _ => 1
  | .fcvtF32Q15 _ _ _ => 1
  | .fcvtF32Q31 _ _ _ => 1
  | .fcvtI32F32 _ _ _ => 1
  | .fcvtN32F32 _ _ _ => 1
  | .fcvtI64F32 _ _ _ => 1
  | .fcvtN64F32 _ _ _ => 1
  | .fcvtQ15F32 _ _ _ => 1
  | .fcvtQ31F32 _ _ _ => 1
  | .fcvtBf16F32 _ _ _ => 2
  | .fcvtF32Bf16 _ _ _ => 2
  | .mmaI8 _ _ _ _ _ _ _ => 1
  | .mmaI16 _ _ _ _ _ _ _ => 1
  | .mmaCq15 _ _ _ _ _ _ _ => 1
  | .mmaDp8 _ _ _ _ _ _ _ => 3
  | .mzero _ _ => 1
  | .mdrain _ _ => 1
  | .msca _ => 1
  | .mstride _ _ => 1
  | .mbmap _ => 1
  | .mstat _ => 1
  | .mwaitq => 1
  | .cpy _ _ _ => 1
  | .cpy2d _ _ _ => 1
  | .cpyg _ _ _ => 1
  | .cpys _ _ _ => 1
  | .cpyf _ _ _ => 1
  | .cpych _ _ _ => 3
  | .kinit _ _ => 1
  | .ksel _ => 1
  | .karr _ _ => 1
  | .kwait _ _ _ => 1
  | .ktest _ _ => 1
  | .barw _ => 1
  | .bara _ => 1
  | .barwt _ _ _ => 1
  | .wake _ _ => 1
  | .wfw _ => 1
  | .wclr _ => 1
  | .wrd _ => 1
  | .spawn _ _ _ => 1
  | .spawnr _ _ _ => 1
  | .migr _ => 1
  | .join _ => 1
  | .yield _ => 1
  | .exit => 1
  | .launch _ _ _ => 1
  | .rankq _ _ => 1
  | .trap _ => 1
  | .brk _ => 1
  | .svc _ => 1
  | .tfence => 1
  | .srd _ _ => 1
  | .swr _ _ => 1
  | .srx _ _ _ => 1
  | .waitc _ => 1
  | .tret => 1
  | .immx _ => 1
  | .align _ => 1
  | .brp _ => 1
  | .prio _ => 1
  | .stream _ => 1
  | .noph _ => 1
  | .storeBufferDrain _ _ => 1
  | .bankAccess _ _ _ => 1
  | .waitListRetry _ => 1
  | .overflowTableMove _ => 1
  | .refusedRepresentation _ => 1
  | .selfTestEnd _ _ _ => 1
  | .cacheFill _ _ _ _ => 1
  | .sweepPass _ => 1
  | .sweepPassEnd _ => 1
  | .epochWriteback _ _ => 1
  | .cacheConversion _ _ => 1
  | .cacheGrowth _ _ => 1
  | .conversionComplete _ => 1
  | .writeback _ _ => 1
  | .homeRelease _ => 1
  | .homeAcquire _ => 1
  | .homeAtomic _ => 1
  | .drain _ => 1
  | .drainDone _ => 1
  | .drainBusy _ => 1
  | .agentDead _ => 1
  | .agentReadmit _ => 1
  | .monwPoll _ => 1
  | .monwWake _ => 1
  | .monwTimeout _ => 1
  | .wakeDelivery _ => 1
  | .crossClusterHandoffDrain _ => 1
  | .barrierArrival _ => 1
  | .barwtTimeout _ => 1
  | .waitcExpiry _ => 1
  | .alignTimeout _ => 1
  | .svcServiceDone _ => 1
  | .matrixTurn _ => 1
  | .operandFetch _ => 1
  | .copyChunk _ => 1
  | .calendarSlot _ => 1
  | .cpychAppend _ => 1
  | .engineCompletion _ _ => 1
  | .knotCountUpdate _ => 1
  | .translationMiss _ => 1
  | .translationLowered _ => 1
  | .moduleLoad _ _ _ _ _ _ => 1
  | .moduleLowering _ _ => 1
  | .translationInvalidate _ _ _ _ => 1
  | .moduleUnload _ => 1
  | .fetchRequest _ => 1
  | .doorbell _ _ => 1
  | .qctlTeardown _ => 1
  | .qctlReset _ => 1
  | .queueTeardownComplete _ => 1
  | .dependencySatisfied _ _ _ => 1
  | .dispatch _ => 1
  | .residencyStage _ => 1
  | .stageRelease _ => 1
  | .stepCut _ => 1
  | .taskPickup _ => 1
  | .steal _ => 1
  | .travellerArrival _ => 1
  | .overflowListMove _ => 1
  | .rankRelocate _ _ _ => 1
  | .deadlock _ => 1
  | .strandThrottle _ _ _ => 1
  | .strandUnthrottle _ _ _ => 1
  | .strimbWindow _ _ => 1
  | .strandPowerUp => 1
  | .preemptionRequest _ => 1
  | .yieldDeadline _ => 1
  | .engineAcknowledge _ _ => 1
  | .saveComplete _ => 1
  | .resuming _ => 1
  | .faultHold => 1
  | .hostCmdResume _ => 1
  | .hostCmdEnd _ => 1
  | .faultHoldExpiry _ => 1
  | .rollback _ => 1
  | .l1pageRefill _ => 1
  | .frameEviction _ _ => 1
  | .tlbWalk _ _ _ _ _ => 1
  | .hostSnoop _ _ _ => 1
  | .recall _ _ => 1
  | .hostLineGrant _ _ => 1
  | .cxlMemRead _ _ => 1
  | .cxlMemWrite _ _ _ => 1
  | .biasFlip _ => 1
  | .biasFlipDone => 1
  | .shootdown _ => 1
  | .shootdownDone => 1
  | .pcieCompletion _ _ _ => 1
  | .priResponse _ _ => 1
  | .frsizeWrite _ => 1
  | .frheadWrite _ => 1
  | .frrplyDone _ => 1
  | .frrplyFailed _ => 1
  | .elclr => 1
  | .pcapWrite _ => 1
  | .dieClockWrite _ => 1
  | .registerWrite _ _ => 1
  | .governorTick _ => 1
  | .frequencyStep _ _ => 1
  | .relockEnd _ => 1
  | .supplyRampDone _ => 1
  | .rtmSet _ => 1
  | .powerGood => 1
  | .bootStageComplete => 1
  | .brownoutAssert => 1
  | .checkpointSealed => 1
  | .brownoutDeassert => 1
  | .brownoutRestart => 1
  | .frameReceive _ _ _ => 1
  | .frameTransmit _ _ => 1
  | .getVersion _ => 1
  | .getCapabilities _ => 1
  | .negotiateAlgorithms _ => 1
  | .getDigests _ => 1
  | .getCertificate _ => 1
  | .challenge _ => 1
  | .getMeasurements _ => 1
  | .handleTableRewrite _ _ _ _ _ => 1
  | .rtmSlew _ => 1
  | .supplyFailure => 1
  | .ballastIssue _ _ => 1

end Sys2Proof
end

