-- ==== Sys2Proof/Decode.lean ====
section
/-!
DEFINITION. Decoding of instruction words (R57-R66) and the encoder, from the encoding tables of the
spec.  Decoding is total: a word that R60, R61 or a member's entry rules out is rejected by name, and
the machine lowers it to the trap stub of R62.  It goes in two parts: which member the word is
(memberOf, the opcode map), then the member's fields (Member.build).  Only the second part builds an
Instr, which Lean's code generator cannot do for a type of this many constructors, so it is
noncomputable; the kernel evaluates it, and compiled code runs a member without building its Instr
(Machine/Step.lean).
-/

namespace Sys2Proof

/-- Why a word is no instruction (R62). -/
inductive DecodeReject where
  /-- one of the reserved majors of R60 -/
  | reservedMajor
  /-- a secondary value that R61 does not list -/
  | reservedMember
  /-- a field the member does not use, or one its entry requires to be zero, is nonzero (R59) -/
  | unusedField
  /-- a field holds a value that the member's entry rules out (R59) -/
  | forbiddenValue
  /-- a member above the module's revision (R63) -/
  | aboveRevision
  /-- fewer bytes than one word -/
  | tooShort
  deriving DecidableEq, Repr

/-- The members of the opcode map (R60, R61): the rows of the opcode table that are words. -/
inductive Member where
  | illegal | add | sub | and | or | xor | andn | sll | srl | sra | ror | slt | sltn
  | seq | min | max | minn | maxn | mul | mulh | mulhn | div | divn | rem | remn | clz
  | ctz | popc | brev | bswap | addw | subw | mulw | sllw | srlw | sraw | divw | remw
  | csel | madd | msub | funnel | addi | andi | ori | xori | slti | sltni | lui | slli
  | srli | srai | rori | sllwi | srlwi | srawi | bfx | bfxn | bfi | mkp | phd | pof
  | addp | subp | pchk | addpi | beq | bne | blt | bge | bltn | bgen | loop | jmp | call
  | jr | callr | ld | ldacq | st | strel | ldp | stp | ldb | stb | lde | ldc | stf | sto
  | sete | setf | feq | amoadd | amoand | amoor | amoxor | amomin | amomax | amominn
  | amomaxn | amoswp | cas | cas2 | fence | fenceSys | fenceEng | cwb | cinv | pref
  | monw | chb | chld | chst | chadvp | chadvc | chwaitp | chwaitc | chcnt | chptrHd
  | chptrTl | padd | psub | padds | psubs | paddns | psubns | pavg | pmin | pmax | pminn
  | pmaxn | pabs | pneg | pcmpeq | pcmplt | pcmpltn | psllv | psrlv | psrav | psum
  | psumn | pmul | pmulh | pmulhn | pmulq | pdot | pdotn | pslli | psrli | psrai | psrari
  | ppacks | ppackns | ppack | punpkl | punpkh | punpkln | punpkhn | pshuf | pbcast
  | pins | pext | psel | cadd | csub | caddh | csubh | cmul | cmulj | cj | cmj | cnorm
  | cdot | cdotj | cbfly | cscl | crnd | fadd | fsub | fmul | fdiv | fsqrt | fmin | fmax
  | fabs | fneg | fsgnj | fcmpeq | fcmplt | fcmple | fclass | frnd | fma | fms | fnma
  | fnms | pfma | pbfdot | pfadd | pfsub | pfmul | pfmin | pfmax | pbfpack | pbfunpl
  | pbfunph | ptop2 | fcvtF32I32 | fcvtF32N32 | fcvtF32I64 | fcvtF32N64 | fcvtF32Q15
  | fcvtF32Q31 | fcvtI32F32 | fcvtN32F32 | fcvtI64F32 | fcvtN64F32 | fcvtQ15F32
  | fcvtQ31F32 | fcvtBf16F32 | fcvtF32Bf16 | mmaI8 | mmaI16 | mmaCq15 | mmaDp8 | mzero
  | mdrain | msca | mstride | mbmap | mstat | mwaitq | cpy | cpy2d | cpyg | cpys | cpyf
  | cpych | kinit | ksel | karr | kwait | ktest | barw | bara | barwt | wake | wfw | wclr
  | wrd | spawn | spawnr | migr | join | yield | exit | launch | rankq | trap | brk | svc
  | tfence | srd | swr | srx | waitc | tret | immx | align | brp | prio | stream | noph
  deriving DecidableEq, Repr

/-- Bits [31:26], the major opcode (R57). -/
def opOf (w : Word32) : BitVec 6 := w.extractLsb' 26 6
/-- Bits [25:21]: field d, or a of formats B and X (R58). -/
def dOf (w : Word32) : Reg := w.extractLsb' 21 5
/-- Bits [20:16]: field a, or b of formats B and X (R58). -/
def aOf (w : Word32) : Reg := w.extractLsb' 16 5
/-- Bits [15:11]: field b of formats A and Q (R58). -/
def bOf (w : Word32) : Reg := w.extractLsb' 11 5
/-- Bits [10:6]: field c of format Q (R58). -/
def cOf (w : Word32) : Reg := w.extractLsb' 6 5
/-- Bits [10:0]: fn of format A (R58). -/
def fnOf (w : Word32) : BitVec 11 := w.extractLsb' 0 11
/-- Bits [15:0]: imm16 or disp16 (R58). -/
def immOf (w : Word32) : BitVec 16 := w.extractLsb' 0 16
/-- Bits [15:12]: fmt of format M, sub of format S (R58). -/
def fmtOf (w : Word32) : BitVec 4 := w.extractLsb' 12 4
/-- Bits [11:10]: ord of format M (R58). -/
def ordOf (w : Word32) : BitVec 2 := w.extractLsb' 10 2
/-- Bits [9:0]: disp10 of format M (R58). -/
def dispOf (w : Word32) : BitVec 10 := w.extractLsb' 0 10

/-- Go on if the fields that the member does not use are zero (R59, R61). -/
def unused (ok : Bool) (r : Except DecodeReject Member) : Except DecodeReject Member :=
  if ok then r else .error .unusedField

/-- Accept the member if its fields hold values that its entry allows (R59). -/
def ruled (ok : Bool) (m : Member) : Except DecodeReject Member :=
  if ok then .ok m else .error .forbiddenValue

/-- The members of major 0x01 (R61). -/
def memberMajor01 (w : Word32) : Except DecodeReject Member :=
  match fnOf w with
  | 0x000#11 => .ok .add
  | 0x001#11 => .ok .sub
  | 0x002#11 => .ok .and
  | 0x003#11 => .ok .or
  | 0x004#11 => .ok .xor
  | 0x005#11 => .ok .andn
  | 0x008#11 => .ok .sll
  | 0x009#11 => .ok .srl
  | 0x00A#11 => .ok .sra
  | 0x00B#11 => .ok .ror
  | 0x010#11 => .ok .slt
  | 0x011#11 => .ok .sltn
  | 0x012#11 => .ok .seq
  | 0x018#11 => .ok .min
  | 0x019#11 => .ok .max
  | 0x01A#11 => .ok .minn
  | 0x01B#11 => .ok .maxn
  | 0x020#11 => .ok .mul
  | 0x021#11 => .ok .mulh
  | 0x022#11 => .ok .mulhn
  | 0x024#11 => .ok .div
  | 0x025#11 => .ok .divn
  | 0x026#11 => .ok .rem
  | 0x027#11 => .ok .remn
  | 0x030#11 => unused (bOf w == 0#5) (.ok .clz)
  | 0x031#11 => unused (bOf w == 0#5) (.ok .ctz)
  | 0x032#11 => unused (bOf w == 0#5) (.ok .popc)
  | 0x033#11 => unused (bOf w == 0#5) (.ok .brev)
  | 0x034#11 => unused (bOf w == 0#5) (.ok .bswap)
  | 0x040#11 => .ok .addw
  | 0x041#11 => .ok .subw
  | 0x042#11 => .ok .mulw
  | 0x043#11 => .ok .sllw
  | 0x044#11 => .ok .srlw
  | 0x045#11 => .ok .sraw
  | 0x046#11 => .ok .divw
  | 0x047#11 => .ok .remw
  | _ => .error .reservedMember

/-- The members of major 0x02 (R61). -/
def memberMajor02 (w : Word32) : Except DecodeReject Member :=
  match w.extractLsb' 0 6 with
  | 0#6 => .ok .csel
  | 1#6 => .ok .madd
  | 2#6 => .ok .msub
  | 3#6 => .ok .funnel
  | _ => .error .reservedMember

/-- The members of major 0x0A (R61). -/
def memberMajor0A (w : Word32) : Except DecodeReject Member :=
  match fmtOf w with
  | 0#4 => unused (ordOf w == 0#2 && w.extractLsb' 6 4 == 0#4) (.ok .slli)
  | 1#4 => unused (ordOf w == 0#2 && w.extractLsb' 6 4 == 0#4) (.ok .srli)
  | 2#4 => unused (ordOf w == 0#2 && w.extractLsb' 6 4 == 0#4) (.ok .srai)
  | 3#4 => unused (ordOf w == 0#2 && w.extractLsb' 6 4 == 0#4) (.ok .rori)
  | 4#4 => unused (ordOf w == 0#2 && w.extractLsb' 5 5 == 0#5) (.ok .sllwi)
  | 5#4 => unused (ordOf w == 0#2 && w.extractLsb' 5 5 == 0#5) (.ok .srlwi)
  | 6#4 => unused (ordOf w == 0#2 && w.extractLsb' 5 5 == 0#5) (.ok .srawi)
  | _ => .error .reservedMember

/-- The members of major 0x0B (R61). -/
def memberMajor0B (w : Word32) : Except DecodeReject Member :=
  match w.extractLsb' 14 2 with
  | 0#2 => unused (w.extractLsb' 12 2 == 0#2) (ruled (decide ((w.extractLsb' 6 6).toNat + ((w.extractLsb' 0 6).toNat + 1) ≤ 64)) .bfx)
  | 1#2 => unused (w.extractLsb' 12 2 == 0#2) (ruled (decide ((w.extractLsb' 6 6).toNat + ((w.extractLsb' 0 6).toNat + 1) ≤ 64)) .bfxn)
  | 2#2 => unused (w.extractLsb' 12 2 == 0#2) (ruled (decide ((w.extractLsb' 6 6).toNat + ((w.extractLsb' 0 6).toNat + 1) ≤ 64)) .bfi)
  | _ => .error .reservedMember

/-- The members of major 0x0C (R61). -/
def memberMajor0C (w : Word32) : Except DecodeReject Member :=
  match fnOf w with
  | 0x000#11 => .ok .mkp
  | 0x001#11 => unused (bOf w == 0#5) (.ok .phd)
  | 0x002#11 => unused (bOf w == 0#5) (.ok .pof)
  | 0x003#11 => .ok .addp
  | 0x004#11 => .ok .subp
  | 0x005#11 => unused (bOf w == 0#5) (.ok .pchk)
  | _ => .error .reservedMember

/-- The members of major 0x19 (R61). -/
def memberMajor19 (w : Word32) : Except DecodeReject Member :=
  match fnOf w with
  | 0x000#11 => unused (dOf w == 0#5 && bOf w == 0#5) (.ok .jr)
  | 0x001#11 => unused (dOf w == 0#5 && bOf w == 0#5) (.ok .callr)
  | _ => .error .reservedMember

/-- The members of major 0x20 (R61). -/
def memberMajor20 (w : Word32) : Except DecodeReject Member :=
  match ordOf w with
  | 0#2 => ruled ((fmtOf w) != 15#4) .ld
  | 1#2 => ruled ((fmtOf w) != 15#4) .ldacq
  | _ => .error .reservedMember

/-- The members of major 0x21 (R61). -/
def memberMajor21 (w : Word32) : Except DecodeReject Member :=
  match ordOf w with
  | 0#2 => ruled ((fmtOf w) != 15#4) .st
  | 2#2 => ruled ((fmtOf w) != 15#4) .strel
  | _ => .error .reservedMember

/-- The members of major 0x22 (R61). -/
def memberMajor22 (w : Word32) : Except DecodeReject Member :=
  match w.extractLsb' 15 1 with
  | 0#1 => unused (w.extractLsb' 21 1 == 0#1 && w.extractLsb' 10 5 == 0#5) (.ok .ldp)
  | 1#1 => unused (w.extractLsb' 21 1 == 0#1 && w.extractLsb' 10 5 == 0#5) (.ok .stp)

/-- The members of major 0x23 (R61). -/
def memberMajor23 (w : Word32) : Except DecodeReject Member :=
  match w.extractLsb' 15 1 with
  | 0#1 => unused (ordOf w == 0#2) (ruled (decide ((dOf w).toNat + (w.extractLsb' 12 3).toNat ≤ 31)) .ldb)
  | 1#1 => unused (ordOf w == 0#2) (ruled (decide ((dOf w).toNat + (w.extractLsb' 12 3).toNat ≤ 31)) .stb)

/-- The members of major 0x24 (R61). -/
def memberMajor24 (w : Word32) : Except DecodeReject Member :=
  match fmtOf w with
  | 0#4 => unused (ordOf w == 0#2) (.ok .lde)
  | 1#4 => unused (ordOf w == 0#2) (.ok .ldc)
  | 2#4 => unused (ordOf w == 0#2) (.ok .stf)
  | 3#4 => unused (ordOf w == 0#2) (.ok .sto)
  | 4#4 => unused (dOf w == 0#5 && ordOf w == 0#2) (.ok .sete)
  | 5#4 => unused (dOf w == 0#5 && ordOf w == 0#2) (.ok .setf)
  | 6#4 => unused (ordOf w == 0#2) (.ok .feq)
  | _ => .error .reservedMember

/-- The members of major 0x25 (R61). -/
def memberMajor25 (w : Word32) : Except DecodeReject Member :=
  match w.extractLsb' 7 4 with
  | 0#4 => unused (w.extractLsb' 0 4 == 0#4) (.ok .amoadd)
  | 1#4 => unused (w.extractLsb' 0 4 == 0#4) (.ok .amoand)
  | 2#4 => unused (w.extractLsb' 0 4 == 0#4) (.ok .amoor)
  | 3#4 => unused (w.extractLsb' 0 4 == 0#4) (.ok .amoxor)
  | 4#4 => unused (w.extractLsb' 0 4 == 0#4) (.ok .amomin)
  | 5#4 => unused (w.extractLsb' 0 4 == 0#4) (.ok .amomax)
  | 6#4 => unused (w.extractLsb' 0 4 == 0#4) (.ok .amominn)
  | 7#4 => unused (w.extractLsb' 0 4 == 0#4) (.ok .amomaxn)
  | 8#4 => unused (w.extractLsb' 0 4 == 0#4) (.ok .amoswp)
  | _ => .error .reservedMember

/-- The members of major 0x26 (R61). -/
def memberMajor26 (w : Word32) : Except DecodeReject Member :=
  match w.extractLsb' 0 1 with
  | 0#1 => unused (w.extractLsb' 7 4 == 0#4 && w.extractLsb' 1 3 == 0#3) (.ok .cas)
  | 1#1 => unused (w.extractLsb' 21 1 == 0#1 && w.extractLsb' 7 5 == 0#5 && w.extractLsb' 1 4 == 0#4) (.ok .cas2)

/-- The members of major 0x27 (R61). -/
def memberMajor27 (w : Word32) : Except DecodeReject Member :=
  match fnOf w with
  | 0x000#11 => unused (dOf w == 0#5 && aOf w == 0#5 && bOf w == 0#5) (.ok .fence)
  | 0x001#11 => unused (dOf w == 0#5 && aOf w == 0#5 && bOf w == 0#5) (.ok .fenceSys)
  | 0x002#11 => unused (dOf w == 0#5 && aOf w == 0#5 && bOf w == 0#5) (.ok .fenceEng)
  | 0x003#11 => unused (dOf w == 0#5) (.ok .cwb)
  | 0x004#11 => unused (dOf w == 0#5) (.ok .cinv)
  | 0x005#11 => unused (dOf w == 0#5 && bOf w == 0#5) (.ok .pref)
  | 0x006#11 => .ok .monw
  | _ => .error .reservedMember

/-- The members of major 0x28 (R61). -/
def memberMajor28 (w : Word32) : Except DecodeReject Member :=
  match w.extractLsb' 13 4 with
  | 0#4 => unused (w.extractLsb' 9 4 == 0#4 && w.extractLsb' 0 9 == 0#9) (.ok .chb)
  | 1#4 => ruled ((w.extractLsb' 9 4) != 15#4) .chld
  | 2#4 => ruled ((w.extractLsb' 9 4) != 15#4) .chst
  | 3#4 => unused (dOf w == 0#5 && w.extractLsb' 9 4 == 0#4) (ruled ((w.extractLsb' 0 9) != 0#9) .chadvp)
  | 4#4 => unused (dOf w == 0#5 && w.extractLsb' 9 4 == 0#4) (ruled ((w.extractLsb' 0 9) != 0#9) .chadvc)
  | 5#4 => unused (dOf w == 0#5 && w.extractLsb' 9 4 == 0#4) (ruled ((w.extractLsb' 0 9) != 0#9) .chwaitp)
  | 6#4 => unused (dOf w == 0#5 && w.extractLsb' 9 4 == 0#4) (ruled ((w.extractLsb' 0 9) != 0#9) .chwaitc)
  | 7#4 => unused (w.extractLsb' 9 4 == 0#4 && w.extractLsb' 0 9 == 0#9) (.ok .chcnt)
  | 8#4 => unused (w.extractLsb' 9 4 == 0#4) (if w.extractLsb' 8 1 == 0#1 then .ok .chptrHd else .ok .chptrTl)
  | _ => .error .reservedMember

/-- The members of major 0x29 (R61). -/
def memberMajor29 (w : Word32) : Except DecodeReject Member :=
  match w.extractLsb' 0 9 with
  | 0x000#9 => ruled (laneWidth (w.extractLsb' 9 2)) .padd
  | 0x001#9 => ruled (laneWidth (w.extractLsb' 9 2)) .psub
  | 0x002#9 => ruled (laneWidth (w.extractLsb' 9 2)) .padds
  | 0x003#9 => ruled (laneWidth (w.extractLsb' 9 2)) .psubs
  | 0x004#9 => ruled (laneWidth (w.extractLsb' 9 2)) .paddns
  | 0x005#9 => ruled (laneWidth (w.extractLsb' 9 2)) .psubns
  | 0x006#9 => ruled (laneWidth (w.extractLsb' 9 2)) .pavg
  | 0x007#9 => ruled (laneWidth (w.extractLsb' 9 2)) .pmin
  | 0x008#9 => ruled (laneWidth (w.extractLsb' 9 2)) .pmax
  | 0x009#9 => ruled (laneWidth (w.extractLsb' 9 2)) .pminn
  | 0x00A#9 => ruled (laneWidth (w.extractLsb' 9 2)) .pmaxn
  | 0x00B#9 => unused (bOf w == 0#5) (ruled (laneWidth (w.extractLsb' 9 2)) .pabs)
  | 0x00C#9 => unused (bOf w == 0#5) (ruled (laneWidth (w.extractLsb' 9 2)) .pneg)
  | 0x00D#9 => ruled (laneWidth (w.extractLsb' 9 2)) .pcmpeq
  | 0x00E#9 => ruled (laneWidth (w.extractLsb' 9 2)) .pcmplt
  | 0x00F#9 => ruled (laneWidth (w.extractLsb' 9 2)) .pcmpltn
  | 0x010#9 => ruled (laneWidth (w.extractLsb' 9 2)) .psllv
  | 0x011#9 => ruled (laneWidth (w.extractLsb' 9 2)) .psrlv
  | 0x012#9 => ruled (laneWidth (w.extractLsb' 9 2)) .psrav
  | 0x013#9 => unused (bOf w == 0#5) (ruled (laneWidth (w.extractLsb' 9 2)) .psum)
  | 0x014#9 => unused (bOf w == 0#5) (ruled (laneWidth (w.extractLsb' 9 2)) .psumn)
  | _ => .error .reservedMember

/-- The members of major 0x2A (R61). -/
def memberMajor2A (w : Word32) : Except DecodeReject Member :=
  match w.extractLsb' 0 9 with
  | 0x000#9 => ruled (laneWidth (w.extractLsb' 9 2)) .pmul
  | 0x001#9 => ruled (laneWidth (w.extractLsb' 9 2)) .pmulh
  | 0x002#9 => ruled (laneWidth (w.extractLsb' 9 2)) .pmulhn
  | 0x003#9 => ruled (laneWidth (w.extractLsb' 9 2) && (w.extractLsb' 9 2) != 0#2) .pmulq
  | 0x004#9 => ruled (laneWidth (w.extractLsb' 9 2) && (w.extractLsb' 9 2) != 2#2) .pdot
  | 0x005#9 => ruled (laneWidth (w.extractLsb' 9 2) && (w.extractLsb' 9 2) != 2#2) .pdotn
  | _ => .error .reservedMember

/-- The members of major 0x2B (R61). -/
def memberMajor2B (w : Word32) : Except DecodeReject Member :=
  match w.extractLsb' 5 4 with
  | 0#4 => unused (bOf w == 0#5) (ruled (laneWidth (w.extractLsb' 9 2) && decide ((w.extractLsb' 0 5).toNat < 8 * 2 ^ (w.extractLsb' 9 2).toNat)) .pslli)
  | 1#4 => unused (bOf w == 0#5) (ruled (laneWidth (w.extractLsb' 9 2) && decide ((w.extractLsb' 0 5).toNat < 8 * 2 ^ (w.extractLsb' 9 2).toNat)) .psrli)
  | 2#4 => unused (bOf w == 0#5) (ruled (laneWidth (w.extractLsb' 9 2) && decide ((w.extractLsb' 0 5).toNat < 8 * 2 ^ (w.extractLsb' 9 2).toNat)) .psrai)
  | 3#4 => unused (bOf w == 0#5) (ruled (laneWidth (w.extractLsb' 9 2) && decide ((w.extractLsb' 0 5).toNat < 8 * 2 ^ (w.extractLsb' 9 2).toNat)) .psrari)
  | 4#4 => unused (w.extractLsb' 0 5 == 0#5) (ruled ((w.extractLsb' 9 2) == 1#2 || (w.extractLsb' 9 2) == 2#2) .ppacks)
  | 5#4 => unused (w.extractLsb' 0 5 == 0#5) (ruled ((w.extractLsb' 9 2) == 1#2 || (w.extractLsb' 9 2) == 2#2) .ppackns)
  | 6#4 => unused (w.extractLsb' 0 5 == 0#5) (ruled ((w.extractLsb' 9 2) == 1#2 || (w.extractLsb' 9 2) == 2#2) .ppack)
  | 7#4 => unused (bOf w == 0#5 && w.extractLsb' 0 5 == 0#5) (ruled ((w.extractLsb' 9 2) == 1#2 || (w.extractLsb' 9 2) == 2#2) .punpkl)
  | 8#4 => unused (bOf w == 0#5 && w.extractLsb' 0 5 == 0#5) (ruled ((w.extractLsb' 9 2) == 1#2 || (w.extractLsb' 9 2) == 2#2) .punpkh)
  | 9#4 => unused (bOf w == 0#5 && w.extractLsb' 0 5 == 0#5) (ruled ((w.extractLsb' 9 2) == 1#2 || (w.extractLsb' 9 2) == 2#2) .punpkln)
  | 10#4 => unused (bOf w == 0#5 && w.extractLsb' 0 5 == 0#5) (ruled ((w.extractLsb' 9 2) == 1#2 || (w.extractLsb' 9 2) == 2#2) .punpkhn)
  | 11#4 => unused (w.extractLsb' 9 2 == 0#2 && w.extractLsb' 0 5 == 0#5) (.ok .pshuf)
  | 12#4 => unused (bOf w == 0#5) (ruled (laneWidth (w.extractLsb' 9 2) && decide ((w.extractLsb' 0 5).toNat * 2 ^ (w.extractLsb' 9 2).toNat < 8)) .pbcast)
  | 13#4 => unused (bOf w == 0#5) (ruled (laneWidth (w.extractLsb' 9 2) && decide ((w.extractLsb' 0 5).toNat * 2 ^ (w.extractLsb' 9 2).toNat < 8)) .pins)
  | 14#4 => unused (bOf w == 0#5) (ruled (laneWidth (w.extractLsb' 9 2) && decide ((w.extractLsb' 0 5).toNat * 2 ^ (w.extractLsb' 9 2).toNat < 8)) .pext)
  | 15#4 => unused (w.extractLsb' 9 2 == 0#2 && w.extractLsb' 0 5 == 0#5) (.ok .psel)
  | _ => .error .reservedMember

/-- The members of major 0x2C (R61). -/
def memberMajor2C (w : Word32) : Except DecodeReject Member :=
  match fnOf w with
  | 0x000#11 => .ok .cadd
  | 0x001#11 => .ok .csub
  | 0x002#11 => .ok .caddh
  | 0x003#11 => .ok .csubh
  | 0x004#11 => .ok .cmul
  | 0x005#11 => .ok .cmulj
  | 0x006#11 => unused (bOf w == 0#5) (.ok .cj)
  | 0x007#11 => unused (bOf w == 0#5) (.ok .cmj)
  | 0x008#11 => unused (bOf w == 0#5) (.ok .cnorm)
  | 0x009#11 => .ok .cdot
  | 0x00A#11 => .ok .cdotj
  | 0x00B#11 => .ok .cbfly
  | 0x00C#11 => .ok .cscl
  | 0x00D#11 => .ok .crnd
  | _ => .error .reservedMember

/-- The members of major 0x2D (R61). -/
def memberMajor2D (w : Word32) : Except DecodeReject Member :=
  match w.extractLsb' 0 8 with
  | 0x000#8 => ruled (rounding (w.extractLsb' 8 3)) .fadd
  | 0x001#8 => ruled (rounding (w.extractLsb' 8 3)) .fsub
  | 0x002#8 => ruled (rounding (w.extractLsb' 8 3)) .fmul
  | 0x003#8 => ruled (rounding (w.extractLsb' 8 3)) .fdiv
  | 0x004#8 => unused (bOf w == 0#5) (ruled (rounding (w.extractLsb' 8 3)) .fsqrt)
  | 0x005#8 => unused (w.extractLsb' 8 3 == 0#3) (.ok .fmin)
  | 0x006#8 => unused (w.extractLsb' 8 3 == 0#3) (.ok .fmax)
  | 0x007#8 => unused (bOf w == 0#5 && w.extractLsb' 8 3 == 0#3) (.ok .fabs)
  | 0x008#8 => unused (bOf w == 0#5 && w.extractLsb' 8 3 == 0#3) (.ok .fneg)
  | 0x009#8 => unused (w.extractLsb' 8 3 == 0#3) (.ok .fsgnj)
  | 0x00A#8 => unused (w.extractLsb' 8 3 == 0#3) (.ok .fcmpeq)
  | 0x00B#8 => unused (w.extractLsb' 8 3 == 0#3) (.ok .fcmplt)
  | 0x00C#8 => unused (w.extractLsb' 8 3 == 0#3) (.ok .fcmple)
  | 0x00D#8 => unused (bOf w == 0#5 && w.extractLsb' 8 3 == 0#3) (.ok .fclass)
  | 0x00E#8 => unused (bOf w == 0#5) (ruled (rounding (w.extractLsb' 8 3)) .frnd)
  | _ => .error .reservedMember

/-- The members of major 0x2E (R61). -/
def memberMajor2E (w : Word32) : Except DecodeReject Member :=
  match w.extractLsb' 0 6 with
  | 0#6 => .ok .fma
  | 1#6 => .ok .fms
  | 2#6 => .ok .fnma
  | 3#6 => .ok .fnms
  | 4#6 => .ok .pfma
  | 5#6 => .ok .pbfdot
  | _ => .error .reservedMember

/-- The members of major 0x2F (R61). -/
def memberMajor2F (w : Word32) : Except DecodeReject Member :=
  match fnOf w with
  | 0x000#11 => .ok .pfadd
  | 0x001#11 => .ok .pfsub
  | 0x002#11 => .ok .pfmul
  | 0x003#11 => .ok .pfmin
  | 0x004#11 => .ok .pfmax
  | 0x005#11 => .ok .pbfpack
  | 0x006#11 => unused (bOf w == 0#5) (.ok .pbfunpl)
  | 0x007#11 => unused (bOf w == 0#5) (.ok .pbfunph)
  | 0x008#11 => unused (bOf w == 0#5) (.ok .ptop2)
  | _ => .error .reservedMember

/-- The members of major 0x30 (R61). -/
def memberMajor30 (w : Word32) : Except DecodeReject Member :=
  match w.extractLsb' 3 8 with
  | 0x004#8 => unused (bOf w == 0#5) (ruled (rounding (w.extractLsb' 0 3)) .fcvtF32I32)
  | 0x014#8 => unused (bOf w == 0#5) (ruled (rounding (w.extractLsb' 0 3)) .fcvtF32N32)
  | 0x024#8 => unused (bOf w == 0#5) (ruled (rounding (w.extractLsb' 0 3)) .fcvtF32I64)
  | 0x034#8 => unused (bOf w == 0#5) (ruled (rounding (w.extractLsb' 0 3)) .fcvtF32N64)
  | 0x064#8 => unused (bOf w == 0#5) (ruled (rounding (w.extractLsb' 0 3)) .fcvtF32Q15)
  | 0x074#8 => unused (bOf w == 0#5) (ruled (rounding (w.extractLsb' 0 3)) .fcvtF32Q31)
  | 0x040#8 => unused (bOf w == 0#5) (ruled (rounding (w.extractLsb' 0 3)) .fcvtI32F32)
  | 0x041#8 => unused (bOf w == 0#5) (ruled (rounding (w.extractLsb' 0 3)) .fcvtN32F32)
  | 0x042#8 => unused (bOf w == 0#5) (ruled (rounding (w.extractLsb' 0 3)) .fcvtI64F32)
  | 0x043#8 => unused (bOf w == 0#5) (ruled (rounding (w.extractLsb' 0 3)) .fcvtN64F32)
  | 0x046#8 => unused (bOf w == 0#5) (ruled (rounding (w.extractLsb' 0 3)) .fcvtQ15F32)
  | 0x047#8 => unused (bOf w == 0#5) (ruled (rounding (w.extractLsb' 0 3)) .fcvtQ31F32)
  | 0x045#8 => unused (bOf w == 0#5) (ruled (rounding (w.extractLsb' 0 3)) .fcvtBf16F32)
  | 0x054#8 => unused (bOf w == 0#5) (ruled (rounding (w.extractLsb' 0 3)) .fcvtF32Bf16)
  | _ => .error .reservedMember

/-- The members of major 0x35 (R61). -/
def memberMajor35 (w : Word32) : Except DecodeReject Member :=
  match fnOf w with
  | 0x000#11 => unused (dOf w == 0#5) (.ok .mzero)
  | 0x001#11 => unused (dOf w == 0#5) (.ok .mdrain)
  | 0x002#11 => unused (dOf w == 0#5 && bOf w == 0#5) (.ok .msca)
  | 0x003#11 => unused (dOf w == 0#5) (.ok .mstride)
  | 0x004#11 => unused (dOf w == 0#5 && bOf w == 0#5) (.ok .mbmap)
  | 0x005#11 => unused (aOf w == 0#5 && bOf w == 0#5) (.ok .mstat)
  | 0x006#11 => unused (dOf w == 0#5 && aOf w == 0#5 && bOf w == 0#5) (.ok .mwaitq)
  | _ => .error .reservedMember

/-- The members of major 0x36 (R61). -/
def memberMajor36 (w : Word32) : Except DecodeReject Member :=
  match fnOf w with
  | 0x000#11 => .ok .cpy
  | 0x001#11 => .ok .cpy2d
  | 0x002#11 => .ok .cpyg
  | 0x003#11 => .ok .cpys
  | 0x004#11 => .ok .cpyf
  | 0x005#11 => .ok .cpych
  | _ => .error .reservedMember

/-- The members of major 0x37 (R61). -/
def memberMajor37 (w : Word32) : Except DecodeReject Member :=
  match fnOf w with
  | 0x000#11 => unused (dOf w == 0#5) (.ok .kinit)
  | 0x001#11 => unused (dOf w == 0#5 && bOf w == 0#5) (.ok .ksel)
  | 0x002#11 => unused (dOf w == 0#5) (.ok .karr)
  | 0x003#11 => .ok .kwait
  | 0x004#11 => unused (bOf w == 0#5) (.ok .ktest)
  | _ => .error .reservedMember

/-- The members of major 0x38 (R61). -/
def memberMajor38 (w : Word32) : Except DecodeReject Member :=
  match fnOf w with
  | 0x000#11 => unused (dOf w == 0#5 && bOf w == 0#5) (.ok .barw)
  | 0x001#11 => unused (dOf w == 0#5 && bOf w == 0#5) (.ok .bara)
  | 0x002#11 => .ok .barwt
  | 0x003#11 => unused (dOf w == 0#5) (.ok .wake)
  | 0x004#11 => unused (aOf w == 0#5 && bOf w == 0#5) (.ok .wfw)
  | 0x005#11 => unused (dOf w == 0#5 && bOf w == 0#5) (.ok .wclr)
  | 0x006#11 => unused (aOf w == 0#5 && bOf w == 0#5) (.ok .wrd)
  | _ => .error .reservedMember

/-- The members of major 0x39 (R61). -/
def memberMajor39 (w : Word32) : Except DecodeReject Member :=
  match fnOf w with
  | 0x000#11 => .ok .spawn
  | 0x001#11 => .ok .spawnr
  | 0x002#11 => unused (dOf w == 0#5 && bOf w == 0#5) (.ok .migr)
  | 0x003#11 => unused (dOf w == 0#5 && bOf w == 0#5) (.ok .join)
  | 0x004#11 => unused (aOf w == 0#5 && bOf w == 0#5) (.ok .yield)
  | 0x005#11 => unused (dOf w == 0#5 && aOf w == 0#5 && bOf w == 0#5) (.ok .exit)
  | 0x006#11 => .ok .launch
  | 0x007#11 => unused (bOf w == 0#5) (.ok .rankq)
  | _ => .error .reservedMember

/-- The members of major 0x3A (R61). -/
def memberMajor3A (w : Word32) : Except DecodeReject Member :=
  match fmtOf w with
  | 0#4 => unused (dOf w == 0#5 && aOf w == 0#5) (.ok .trap)
  | 1#4 => unused (dOf w == 0#5 && aOf w == 0#5) (.ok .brk)
  | 2#4 => unused (dOf w == 0#5 && aOf w == 0#5) (.ok .svc)
  | 3#4 => unused (dOf w == 0#5 && aOf w == 0#5 && ordOf w == 0#2 && dispOf w == 0#10) (.ok .tfence)
  | 4#4 => unused (aOf w == 0#5) (.ok .srd)
  | 5#4 => unused (dOf w == 0#5) (.ok .swr)
  | 6#4 => .ok .srx
  | 7#4 => unused (dOf w == 0#5 && aOf w == 0#5) (.ok .waitc)
  | 8#4 => unused (dOf w == 0#5 && aOf w == 0#5 && ordOf w == 0#2 && dispOf w == 0#10) (.ok .tret)
  | _ => .error .reservedMember

/-- The eight hint kinds (R64).  A hint whose reserved payload bits are nonzero, and the reserved
kinds 6 and 7, execute as NOPH. -/
def memberMajor3F (w : Word32) : Except DecodeReject Member :=
  match w.extractLsb' 23 3 with
  | 0#3 => .ok .immx
  | 1#3 => .ok .align
  | 2#3 => if w.extractLsb' 7 16 == 0#16 then .ok .brp else .ok .noph
  | 3#3 => if w.extractLsb' 5 18 == 0#18 then .ok .prio else .ok .noph
  | 4#3 => if w.extractLsb' 2 21 == 0#21 then .ok .stream else .ok .noph
  | _ => .ok .noph

/-- The opcode map of R60: the member a word is, every restriction on its fields checked (R59). -/
def memberOf (w : Word32) : Except DecodeReject Member :=
  match opOf w with
  | 0x00#6 => .ok .illegal
  | 0x01#6 => memberMajor01 w
  | 0x02#6 => memberMajor02 w
  | 0x03#6 => .ok .addi
  | 0x04#6 => .ok .andi
  | 0x05#6 => .ok .ori
  | 0x06#6 => .ok .xori
  | 0x07#6 => .ok .slti
  | 0x08#6 => .ok .sltni
  | 0x09#6 => unused (aOf w == 0#5) (.ok .lui)
  | 0x0A#6 => memberMajor0A w
  | 0x0B#6 => memberMajor0B w
  | 0x0C#6 => memberMajor0C w
  | 0x0D#6 => .ok .addpi
  | 0x10#6 => .ok .beq
  | 0x11#6 => .ok .bne
  | 0x12#6 => .ok .blt
  | 0x13#6 => .ok .bge
  | 0x14#6 => .ok .bltn
  | 0x15#6 => .ok .bgen
  | 0x16#6 => unused (aOf w == 0#5) (.ok .loop)
  | 0x17#6 => .ok .jmp
  | 0x18#6 => .ok .call
  | 0x19#6 => memberMajor19 w
  | 0x20#6 => memberMajor20 w
  | 0x21#6 => memberMajor21 w
  | 0x22#6 => memberMajor22 w
  | 0x23#6 => memberMajor23 w
  | 0x24#6 => memberMajor24 w
  | 0x25#6 => memberMajor25 w
  | 0x26#6 => memberMajor26 w
  | 0x27#6 => memberMajor27 w
  | 0x28#6 => memberMajor28 w
  | 0x29#6 => memberMajor29 w
  | 0x2A#6 => memberMajor2A w
  | 0x2B#6 => memberMajor2B w
  | 0x2C#6 => memberMajor2C w
  | 0x2D#6 => memberMajor2D w
  | 0x2E#6 => memberMajor2E w
  | 0x2F#6 => memberMajor2F w
  | 0x30#6 => memberMajor30 w
  | 0x31#6 => ruled ((w.extractLsb' 14 2) != 3#2 && (w.extractLsb' 8 6) != 0#6) .mmaI8
  | 0x32#6 => ruled ((w.extractLsb' 14 2) != 3#2 && (w.extractLsb' 8 6) != 0#6) .mmaI16
  | 0x33#6 => ruled ((w.extractLsb' 14 2) != 3#2 && (w.extractLsb' 8 6) != 0#6) .mmaCq15
  | 0x34#6 => ruled ((w.extractLsb' 14 2) != 3#2 && (w.extractLsb' 8 6) != 0#6) .mmaDp8
  | 0x35#6 => memberMajor35 w
  | 0x36#6 => memberMajor36 w
  | 0x37#6 => memberMajor37 w
  | 0x38#6 => memberMajor38 w
  | 0x39#6 => memberMajor39 w
  | 0x3A#6 => memberMajor3A w
  | 0x3F#6 => memberMajor3F w
  | _ => .error .reservedMajor

/-- The instruction of a member, its fields read from the word (R58, R61). -/
noncomputable def Member.build (m : Member) (w : Word32) : Instr :=
  match m with
  | .illegal => .illegal (w.extractLsb' 0 26)
  | .add => .add (dOf w) (aOf w) (bOf w)
  | .sub => .sub (dOf w) (aOf w) (bOf w)
  | .and => .and (dOf w) (aOf w) (bOf w)
  | .or => .or (dOf w) (aOf w) (bOf w)
  | .xor => .xor (dOf w) (aOf w) (bOf w)
  | .andn => .andn (dOf w) (aOf w) (bOf w)
  | .sll => .sll (dOf w) (aOf w) (bOf w)
  | .srl => .srl (dOf w) (aOf w) (bOf w)
  | .sra => .sra (dOf w) (aOf w) (bOf w)
  | .ror => .ror (dOf w) (aOf w) (bOf w)
  | .slt => .slt (dOf w) (aOf w) (bOf w)
  | .sltn => .sltn (dOf w) (aOf w) (bOf w)
  | .seq => .seq (dOf w) (aOf w) (bOf w)
  | .min => .min (dOf w) (aOf w) (bOf w)
  | .max => .max (dOf w) (aOf w) (bOf w)
  | .minn => .minn (dOf w) (aOf w) (bOf w)
  | .maxn => .maxn (dOf w) (aOf w) (bOf w)
  | .mul => .mul (dOf w) (aOf w) (bOf w)
  | .mulh => .mulh (dOf w) (aOf w) (bOf w)
  | .mulhn => .mulhn (dOf w) (aOf w) (bOf w)
  | .div => .div (dOf w) (aOf w) (bOf w)
  | .divn => .divn (dOf w) (aOf w) (bOf w)
  | .rem => .rem (dOf w) (aOf w) (bOf w)
  | .remn => .remn (dOf w) (aOf w) (bOf w)
  | .clz => .clz (dOf w) (aOf w)
  | .ctz => .ctz (dOf w) (aOf w)
  | .popc => .popc (dOf w) (aOf w)
  | .brev => .brev (dOf w) (aOf w)
  | .bswap => .bswap (dOf w) (aOf w)
  | .addw => .addw (dOf w) (aOf w) (bOf w)
  | .subw => .subw (dOf w) (aOf w) (bOf w)
  | .mulw => .mulw (dOf w) (aOf w) (bOf w)
  | .sllw => .sllw (dOf w) (aOf w) (bOf w)
  | .srlw => .srlw (dOf w) (aOf w) (bOf w)
  | .sraw => .sraw (dOf w) (aOf w) (bOf w)
  | .divw => .divw (dOf w) (aOf w) (bOf w)
  | .remw => .remw (dOf w) (aOf w) (bOf w)
  | .csel => .csel (dOf w) (aOf w) (bOf w) (cOf w)
  | .madd => .madd (dOf w) (aOf w) (bOf w) (cOf w)
  | .msub => .msub (dOf w) (aOf w) (bOf w) (cOf w)
  | .funnel => .funnel (dOf w) (aOf w) (bOf w) (cOf w)
  | .addi => .addi (dOf w) (aOf w) (immOf w)
  | .andi => .andi (dOf w) (aOf w) (immOf w)
  | .ori => .ori (dOf w) (aOf w) (immOf w)
  | .xori => .xori (dOf w) (aOf w) (immOf w)
  | .slti => .slti (dOf w) (aOf w) (immOf w)
  | .sltni => .sltni (dOf w) (aOf w) (immOf w)
  | .lui => .lui (dOf w) (immOf w)
  | .slli => .slli (dOf w) (aOf w) (w.extractLsb' 0 6)
  | .srli => .srli (dOf w) (aOf w) (w.extractLsb' 0 6)
  | .srai => .srai (dOf w) (aOf w) (w.extractLsb' 0 6)
  | .rori => .rori (dOf w) (aOf w) (w.extractLsb' 0 6)
  | .sllwi => .sllwi (dOf w) (aOf w) (w.extractLsb' 0 5)
  | .srlwi => .srlwi (dOf w) (aOf w) (w.extractLsb' 0 5)
  | .srawi => .srawi (dOf w) (aOf w) (w.extractLsb' 0 5)
  | .bfx => .bfx (dOf w) (aOf w) (w.extractLsb' 6 6) (w.extractLsb' 0 6)
  | .bfxn => .bfxn (dOf w) (aOf w) (w.extractLsb' 6 6) (w.extractLsb' 0 6)
  | .bfi => .bfi (dOf w) (aOf w) (w.extractLsb' 6 6) (w.extractLsb' 0 6)
  | .mkp => .mkp (dOf w) (aOf w) (bOf w)
  | .phd => .phd (dOf w) (aOf w)
  | .pof => .pof (dOf w) (aOf w)
  | .addp => .addp (dOf w) (aOf w) (bOf w)
  | .subp => .subp (dOf w) (aOf w) (bOf w)
  | .pchk => .pchk (dOf w) (aOf w)
  | .addpi => .addpi (dOf w) (aOf w) (immOf w)
  | .beq => .beq (dOf w) (aOf w) (immOf w)
  | .bne => .bne (dOf w) (aOf w) (immOf w)
  | .blt => .blt (dOf w) (aOf w) (immOf w)
  | .bge => .bge (dOf w) (aOf w) (immOf w)
  | .bltn => .bltn (dOf w) (aOf w) (immOf w)
  | .bgen => .bgen (dOf w) (aOf w) (immOf w)
  | .loop => .loop (dOf w) (immOf w)
  | .jmp => .jmp (w.extractLsb' 0 26)
  | .call => .call (w.extractLsb' 0 26)
  | .jr => .jr (aOf w)
  | .callr => .callr (aOf w)
  | .ld => .ld (dOf w) (aOf w) (fmtOf w) (dispOf w)
  | .ldacq => .ldacq (dOf w) (aOf w) (fmtOf w) (dispOf w)
  | .st => .st (dOf w) (aOf w) (fmtOf w) (dispOf w)
  | .strel => .strel (dOf w) (aOf w) (fmtOf w) (dispOf w)
  | .ldp => .ldp (w.extractLsb' 22 4) (aOf w) (dispOf w)
  | .stp => .stp (w.extractLsb' 22 4) (aOf w) (dispOf w)
  | .ldb => .ldb (dOf w) (aOf w) (w.extractLsb' 12 3) (dispOf w)
  | .stb => .stb (dOf w) (aOf w) (w.extractLsb' 12 3) (dispOf w)
  | .lde => .lde (dOf w) (aOf w) (dispOf w)
  | .ldc => .ldc (dOf w) (aOf w) (dispOf w)
  | .stf => .stf (dOf w) (aOf w) (dispOf w)
  | .sto => .sto (dOf w) (aOf w) (dispOf w)
  | .sete => .sete (aOf w) (dispOf w)
  | .setf => .setf (aOf w) (dispOf w)
  | .feq => .feq (dOf w) (aOf w) (dispOf w)
  | .amoadd => .amoadd (dOf w) (aOf w) (bOf w) (w.extractLsb' 5 2) (w.extractLsb' 4 1)
  | .amoand => .amoand (dOf w) (aOf w) (bOf w) (w.extractLsb' 5 2) (w.extractLsb' 4 1)
  | .amoor => .amoor (dOf w) (aOf w) (bOf w) (w.extractLsb' 5 2) (w.extractLsb' 4 1)
  | .amoxor => .amoxor (dOf w) (aOf w) (bOf w) (w.extractLsb' 5 2) (w.extractLsb' 4 1)
  | .amomin => .amomin (dOf w) (aOf w) (bOf w) (w.extractLsb' 5 2) (w.extractLsb' 4 1)
  | .amomax => .amomax (dOf w) (aOf w) (bOf w) (w.extractLsb' 5 2) (w.extractLsb' 4 1)
  | .amominn => .amominn (dOf w) (aOf w) (bOf w) (w.extractLsb' 5 2) (w.extractLsb' 4 1)
  | .amomaxn => .amomaxn (dOf w) (aOf w) (bOf w) (w.extractLsb' 5 2) (w.extractLsb' 4 1)
  | .amoswp => .amoswp (dOf w) (aOf w) (bOf w) (w.extractLsb' 5 2) (w.extractLsb' 4 1)
  | .cas => .cas (dOf w) (aOf w) (bOf w) (w.extractLsb' 5 2) (w.extractLsb' 4 1)
  | .cas2 => .cas2 (w.extractLsb' 22 4) (aOf w) (fmtOf w) (w.extractLsb' 5 2)
  | .fence => .fence
  | .fenceSys => .fenceSys
  | .fenceEng => .fenceEng
  | .cwb => .cwb (aOf w) (bOf w)
  | .cinv => .cinv (aOf w) (bOf w)
  | .pref => .pref (aOf w)
  | .monw => .monw (dOf w) (aOf w) (bOf w)
  | .chb => .chb (dOf w) (w.extractLsb' 17 4)
  | .chld => .chld (dOf w) (w.extractLsb' 17 4) (w.extractLsb' 9 4) (w.extractLsb' 0 9)
  | .chst => .chst (dOf w) (w.extractLsb' 17 4) (w.extractLsb' 9 4) (w.extractLsb' 0 9)
  | .chadvp => .chadvp (w.extractLsb' 17 4) (w.extractLsb' 0 9)
  | .chadvc => .chadvc (w.extractLsb' 17 4) (w.extractLsb' 0 9)
  | .chwaitp => .chwaitp (w.extractLsb' 17 4) (w.extractLsb' 0 9)
  | .chwaitc => .chwaitc (w.extractLsb' 17 4) (w.extractLsb' 0 9)
  | .chcnt => .chcnt (dOf w) (w.extractLsb' 17 4)
  | .chptrHd => .chptrHd (dOf w) (w.extractLsb' 17 4) (w.extractLsb' 0 8)
  | .chptrTl => .chptrTl (dOf w) (w.extractLsb' 17 4) (w.extractLsb' 0 8)
  | .padd => .padd (dOf w) (aOf w) (bOf w) (w.extractLsb' 9 2)
  | .psub => .psub (dOf w) (aOf w) (bOf w) (w.extractLsb' 9 2)
  | .padds => .padds (dOf w) (aOf w) (bOf w) (w.extractLsb' 9 2)
  | .psubs => .psubs (dOf w) (aOf w) (bOf w) (w.extractLsb' 9 2)
  | .paddns => .paddns (dOf w) (aOf w) (bOf w) (w.extractLsb' 9 2)
  | .psubns => .psubns (dOf w) (aOf w) (bOf w) (w.extractLsb' 9 2)
  | .pavg => .pavg (dOf w) (aOf w) (bOf w) (w.extractLsb' 9 2)
  | .pmin => .pmin (dOf w) (aOf w) (bOf w) (w.extractLsb' 9 2)
  | .pmax => .pmax (dOf w) (aOf w) (bOf w) (w.extractLsb' 9 2)
  | .pminn => .pminn (dOf w) (aOf w) (bOf w) (w.extractLsb' 9 2)
  | .pmaxn => .pmaxn (dOf w) (aOf w) (bOf w) (w.extractLsb' 9 2)
  | .pabs => .pabs (dOf w) (aOf w) (w.extractLsb' 9 2)
  | .pneg => .pneg (dOf w) (aOf w) (w.extractLsb' 9 2)
  | .pcmpeq => .pcmpeq (dOf w) (aOf w) (bOf w) (w.extractLsb' 9 2)
  | .pcmplt => .pcmplt (dOf w) (aOf w) (bOf w) (w.extractLsb' 9 2)
  | .pcmpltn => .pcmpltn (dOf w) (aOf w) (bOf w) (w.extractLsb' 9 2)
  | .psllv => .psllv (dOf w) (aOf w) (bOf w) (w.extractLsb' 9 2)
  | .psrlv => .psrlv (dOf w) (aOf w) (bOf w) (w.extractLsb' 9 2)
  | .psrav => .psrav (dOf w) (aOf w) (bOf w) (w.extractLsb' 9 2)
  | .psum => .psum (dOf w) (aOf w) (w.extractLsb' 9 2)
  | .psumn => .psumn (dOf w) (aOf w) (w.extractLsb' 9 2)
  | .pmul => .pmul (dOf w) (aOf w) (bOf w) (w.extractLsb' 9 2)
  | .pmulh => .pmulh (dOf w) (aOf w) (bOf w) (w.extractLsb' 9 2)
  | .pmulhn => .pmulhn (dOf w) (aOf w) (bOf w) (w.extractLsb' 9 2)
  | .pmulq => .pmulq (dOf w) (aOf w) (bOf w) (w.extractLsb' 9 2)
  | .pdot => .pdot (dOf w) (aOf w) (bOf w) (w.extractLsb' 9 2)
  | .pdotn => .pdotn (dOf w) (aOf w) (bOf w) (w.extractLsb' 9 2)
  | .pslli => .pslli (dOf w) (aOf w) (w.extractLsb' 9 2) (w.extractLsb' 0 5)
  | .psrli => .psrli (dOf w) (aOf w) (w.extractLsb' 9 2) (w.extractLsb' 0 5)
  | .psrai => .psrai (dOf w) (aOf w) (w.extractLsb' 9 2) (w.extractLsb' 0 5)
  | .psrari => .psrari (dOf w) (aOf w) (w.extractLsb' 9 2) (w.extractLsb' 0 5)
  | .ppacks => .ppacks (dOf w) (aOf w) (bOf w) (w.extractLsb' 9 2)
  | .ppackns => .ppackns (dOf w) (aOf w) (bOf w) (w.extractLsb' 9 2)
  | .ppack => .ppack (dOf w) (aOf w) (bOf w) (w.extractLsb' 9 2)
  | .punpkl => .punpkl (dOf w) (aOf w) (w.extractLsb' 9 2)
  | .punpkh => .punpkh (dOf w) (aOf w) (w.extractLsb' 9 2)
  | .punpkln => .punpkln (dOf w) (aOf w) (w.extractLsb' 9 2)
  | .punpkhn => .punpkhn (dOf w) (aOf w) (w.extractLsb' 9 2)
  | .pshuf => .pshuf (dOf w) (aOf w) (bOf w)
  | .pbcast => .pbcast (dOf w) (aOf w) (w.extractLsb' 9 2) (w.extractLsb' 0 5)
  | .pins => .pins (dOf w) (aOf w) (w.extractLsb' 9 2) (w.extractLsb' 0 5)
  | .pext => .pext (dOf w) (aOf w) (w.extractLsb' 9 2) (w.extractLsb' 0 5)
  | .psel => .psel (dOf w) (aOf w) (bOf w)
  | .cadd => .cadd (dOf w) (aOf w) (bOf w)
  | .csub => .csub (dOf w) (aOf w) (bOf w)
  | .caddh => .caddh (dOf w) (aOf w) (bOf w)
  | .csubh => .csubh (dOf w) (aOf w) (bOf w)
  | .cmul => .cmul (dOf w) (aOf w) (bOf w)
  | .cmulj => .cmulj (dOf w) (aOf w) (bOf w)
  | .cj => .cj (dOf w) (aOf w)
  | .cmj => .cmj (dOf w) (aOf w)
  | .cnorm => .cnorm (dOf w) (aOf w)
  | .cdot => .cdot (dOf w) (aOf w) (bOf w)
  | .cdotj => .cdotj (dOf w) (aOf w) (bOf w)
  | .cbfly => .cbfly (dOf w) (aOf w) (bOf w)
  | .cscl => .cscl (dOf w) (aOf w) (bOf w)
  | .crnd => .crnd (dOf w) (aOf w) (bOf w)
  | .fadd => .fadd (dOf w) (aOf w) (bOf w) (w.extractLsb' 8 3)
  | .fsub => .fsub (dOf w) (aOf w) (bOf w) (w.extractLsb' 8 3)
  | .fmul => .fmul (dOf w) (aOf w) (bOf w) (w.extractLsb' 8 3)
  | .fdiv => .fdiv (dOf w) (aOf w) (bOf w) (w.extractLsb' 8 3)
  | .fsqrt => .fsqrt (dOf w) (aOf w) (w.extractLsb' 8 3)
  | .fmin => .fmin (dOf w) (aOf w) (bOf w)
  | .fmax => .fmax (dOf w) (aOf w) (bOf w)
  | .fabs => .fabs (dOf w) (aOf w)
  | .fneg => .fneg (dOf w) (aOf w)
  | .fsgnj => .fsgnj (dOf w) (aOf w) (bOf w)
  | .fcmpeq => .fcmpeq (dOf w) (aOf w) (bOf w)
  | .fcmplt => .fcmplt (dOf w) (aOf w) (bOf w)
  | .fcmple => .fcmple (dOf w) (aOf w) (bOf w)
  | .fclass => .fclass (dOf w) (aOf w)
  | .frnd => .frnd (dOf w) (aOf w) (w.extractLsb' 8 3)
  | .fma => .fma (dOf w) (aOf w) (bOf w) (cOf w)
  | .fms => .fms (dOf w) (aOf w) (bOf w) (cOf w)
  | .fnma => .fnma (dOf w) (aOf w) (bOf w) (cOf w)
  | .fnms => .fnms (dOf w) (aOf w) (bOf w) (cOf w)
  | .pfma => .pfma (dOf w) (aOf w) (bOf w) (cOf w)
  | .pbfdot => .pbfdot (dOf w) (aOf w) (bOf w) (cOf w)
  | .pfadd => .pfadd (dOf w) (aOf w) (bOf w)
  | .pfsub => .pfsub (dOf w) (aOf w) (bOf w)
  | .pfmul => .pfmul (dOf w) (aOf w) (bOf w)
  | .pfmin => .pfmin (dOf w) (aOf w) (bOf w)
  | .pfmax => .pfmax (dOf w) (aOf w) (bOf w)
  | .pbfpack => .pbfpack (dOf w) (aOf w) (bOf w)
  | .pbfunpl => .pbfunpl (dOf w) (aOf w)
  | .pbfunph => .pbfunph (dOf w) (aOf w)
  | .ptop2 => .ptop2 (dOf w) (aOf w)
  | .fcvtF32I32 => .fcvtF32I32 (dOf w) (aOf w) (w.extractLsb' 0 3)
  | .fcvtF32N32 => .fcvtF32N32 (dOf w) (aOf w) (w.extractLsb' 0 3)
  | .fcvtF32I64 => .fcvtF32I64 (dOf w) (aOf w) (w.extractLsb' 0 3)
  | .fcvtF32N64 => .fcvtF32N64 (dOf w) (aOf w) (w.extractLsb' 0 3)
  | .fcvtF32Q15 => .fcvtF32Q15 (dOf w) (aOf w) (w.extractLsb' 0 3)
  | .fcvtF32Q31 => .fcvtF32Q31 (dOf w) (aOf w) (w.extractLsb' 0 3)
  | .fcvtI32F32 => .fcvtI32F32 (dOf w) (aOf w) (w.extractLsb' 0 3)
  | .fcvtN32F32 => .fcvtN32F32 (dOf w) (aOf w) (w.extractLsb' 0 3)
  | .fcvtI64F32 => .fcvtI64F32 (dOf w) (aOf w) (w.extractLsb' 0 3)
  | .fcvtN64F32 => .fcvtN64F32 (dOf w) (aOf w) (w.extractLsb' 0 3)
  | .fcvtQ15F32 => .fcvtQ15F32 (dOf w) (aOf w) (w.extractLsb' 0 3)
  | .fcvtQ31F32 => .fcvtQ31F32 (dOf w) (aOf w) (w.extractLsb' 0 3)
  | .fcvtBf16F32 => .fcvtBf16F32 (dOf w) (aOf w) (w.extractLsb' 0 3)
  | .fcvtF32Bf16 => .fcvtF32Bf16 (dOf w) (aOf w) (w.extractLsb' 0 3)
  | .mmaI8 => .mmaI8 (dOf w) (aOf w) (w.extractLsb' 14 2) (w.extractLsb' 8 6) (w.extractLsb' 2 6) (w.extractLsb' 1 1) (w.extractLsb' 0 1)
  | .mmaI16 => .mmaI16 (dOf w) (aOf w) (w.extractLsb' 14 2) (w.extractLsb' 8 6) (w.extractLsb' 2 6) (w.extractLsb' 1 1) (w.extractLsb' 0 1)
  | .mmaCq15 => .mmaCq15 (dOf w) (aOf w) (w.extractLsb' 14 2) (w.extractLsb' 8 6) (w.extractLsb' 2 6) (w.extractLsb' 1 1) (w.extractLsb' 0 1)
  | .mmaDp8 => .mmaDp8 (dOf w) (aOf w) (w.extractLsb' 14 2) (w.extractLsb' 8 6) (w.extractLsb' 2 6) (w.extractLsb' 1 1) (w.extractLsb' 0 1)
  | .mzero => .mzero (aOf w) (bOf w)
  | .mdrain => .mdrain (aOf w) (bOf w)
  | .msca => .msca (aOf w)
  | .mstride => .mstride (aOf w) (bOf w)
  | .mbmap => .mbmap (aOf w)
  | .mstat => .mstat (dOf w)
  | .mwaitq => .mwaitq
  | .cpy => .cpy (dOf w) (aOf w) (bOf w)
  | .cpy2d => .cpy2d (dOf w) (aOf w) (bOf w)
  | .cpyg => .cpyg (dOf w) (aOf w) (bOf w)
  | .cpys => .cpys (dOf w) (aOf w) (bOf w)
  | .cpyf => .cpyf (dOf w) (aOf w) (bOf w)
  | .cpych => .cpych (dOf w) (aOf w) (bOf w)
  | .kinit => .kinit (aOf w) (bOf w)
  | .ksel => .ksel (aOf w)
  | .karr => .karr (aOf w) (bOf w)
  | .kwait => .kwait (dOf w) (aOf w) (bOf w)
  | .ktest => .ktest (dOf w) (aOf w)
  | .barw => .barw (aOf w)
  | .bara => .bara (aOf w)
  | .barwt => .barwt (dOf w) (aOf w) (bOf w)
  | .wake => .wake (aOf w) (bOf w)
  | .wfw => .wfw (dOf w)
  | .wclr => .wclr (aOf w)
  | .wrd => .wrd (dOf w)
  | .spawn => .spawn (dOf w) (aOf w) (bOf w)
  | .spawnr => .spawnr (dOf w) (aOf w) (bOf w)
  | .migr => .migr (aOf w)
  | .join => .join (aOf w)
  | .yield => .yield (dOf w)
  | .exit => .exit
  | .launch => .launch (dOf w) (aOf w) (bOf w)
  | .rankq => .rankq (dOf w) (aOf w)
  | .trap => .trap (w.extractLsb' 0 12)
  | .brk => .brk (w.extractLsb' 0 12)
  | .svc => .svc (w.extractLsb' 0 12)
  | .tfence => .tfence
  | .srd => .srd (dOf w) (w.extractLsb' 0 12)
  | .swr => .swr (aOf w) (w.extractLsb' 0 12)
  | .srx => .srx (dOf w) (aOf w) (w.extractLsb' 0 12)
  | .waitc => .waitc (w.extractLsb' 0 12)
  | .tret => .tret
  | .immx => .immx (w.extractLsb' 0 23)
  | .align => .align (w.extractLsb' 0 23)
  | .brp => .brp (w.extractLsb' 0 7)
  | .prio => .prio (w.extractLsb' 0 5)
  | .stream => .stream (w.extractLsb' 0 2)
  | .noph => .noph (w.extractLsb' 0 23)

/-- The instruction a word encodes, in a module of revision 3 (R59-R63). -/
noncomputable def decode (w : Word32) : Except DecodeReject Instr :=
  match memberOf w with
  | .ok m => .ok (m.build w)
  | .error e => .error e

/-- The module revision that adds the member, given the word's typed format where that decides it
(R63). -/
def Member.revision (m : Member) (w : Word32) : Nat :=
  match m with
  | .ld | .ldacq | .st | .strel => if fmtOf w == 7#4 then 2 else 1
  | .chld | .chst => if w.extractLsb' 9 4 == 7#4 then 2 else 1
  | .pbfdot | .pbfpack | .pbfunpl | .pbfunph | .ptop2 | .fcvtBf16F32 | .fcvtF32Bf16 => 2
  | .mmaDp8 | .cpych | .monw | .cas2 => 3
  | _ => 1

/-- The member a word is in a module that declares revision `rev`: a member added in a later revision
is a stub, and the ALIGN hint is a no-op (R63). -/
def memberAt (rev : Nat) (w : Word32) : Except DecodeReject Member :=
  match memberOf w with
  | .error e => .error e
  | .ok m =>
    if m = .align ∧ rev < 3 then .ok .noph
    else if m.revision w ≤ rev then .ok m else .error .aboveRevision

/-- The instruction a word is in a module that declares revision `rev` (R63). -/
noncomputable def decodeAt (rev : Nat) (w : Word32) : Except DecodeReject Instr :=
  match memberAt rev w with
  | .ok m => .ok (m.build w)
  | .error e => .error e

/-- A word is widenable when its major, or its major and sub, are those of a member that accepts
IMMX (R65). -/
def widenable (w : Word32) : Bool :=
  let o := (opOf w).toNat
  (decide (3 ≤ o) && decide (o ≤ 9)) || o == 0x0D || (decide (0x10 ≤ o) && decide (o ≤ 0x18)) ||
  (decide (0x20 ≤ o) && decide (o ≤ 0x24)) ||
  (o == 0x3A && (fmtOf w == 0#4 || fmtOf w == 1#4 || fmtOf w == 2#4 || fmtOf w == 7#4))

/-- Is the word an IMMX word (R64)? -/
def isImmx (w : Word32) : Bool := w.extractLsb' 23 9 == 0x1F8#9

/-! The formats of R58. -/

/-- Format A. -/
def fmtA (op : BitVec 6) (d a b : Reg) (fn : BitVec 11) : Word32 := op ++ d ++ a ++ b ++ fn
/-- Format Q. -/
def fmtQ (op : BitVec 6) (d a b c : Reg) (sub : BitVec 6) : Word32 := op ++ d ++ a ++ b ++ c ++ sub
/-- Formats I and B. -/
def fmtI (op : BitVec 6) (d a : Reg) (imm : BitVec 16) : Word32 := op ++ d ++ a ++ imm
/-- Format M. -/
def fmtM (op : BitVec 6) (d a : Reg) (f : BitVec 4) (ord : BitVec 2) (x : BitVec 10) : Word32 :=
  op ++ d ++ a ++ f ++ ord ++ x
/-- Format J. -/
def fmtJ (op : BitVec 6) (x : BitVec 26) : Word32 := op ++ x
/-- Format C. -/
def fmtC (op : BitVec 6) (d : Reg) (c sub f : BitVec 4) (n : BitVec 9) : Word32 :=
  op ++ d ++ c ++ sub ++ f ++ n
/-- Format X. -/
def fmtX (op : BitVec 6) (a b : Reg) (m : BitVec 2) (n l : BitVec 6) (s z : BitVec 1) : Word32 :=
  op ++ a ++ b ++ m ++ n ++ l ++ s ++ z
/-- Format S. -/
def fmtS (op : BitVec 6) (d a : Reg) (sub : BitVec 4) (i : BitVec 12) : Word32 :=
  op ++ d ++ a ++ sub ++ i
/-- Format H. -/
def fmtH (kind : BitVec 3) (p : BitVec 23) : Word32 := 0x3F#6 ++ kind ++ p

/-- The word of an instruction.  A device step has no word; the value given for it is zero. -/
def encodeWord : Instr → Word32
  | .illegal x => fmtJ 0x00#6 x
  | .add d a b => fmtA 0x01#6 d a b 0#11
  | .sub d a b => fmtA 0x01#6 d a b 1#11
  | .and d a b => fmtA 0x01#6 d a b 2#11
  | .or d a b => fmtA 0x01#6 d a b 3#11
  | .xor d a b => fmtA 0x01#6 d a b 4#11
  | .andn d a b => fmtA 0x01#6 d a b 5#11
  | .sll d a b => fmtA 0x01#6 d a b 8#11
  | .srl d a b => fmtA 0x01#6 d a b 9#11
  | .sra d a b => fmtA 0x01#6 d a b 10#11
  | .ror d a b => fmtA 0x01#6 d a b 11#11
  | .slt d a b => fmtA 0x01#6 d a b 16#11
  | .sltn d a b => fmtA 0x01#6 d a b 17#11
  | .seq d a b => fmtA 0x01#6 d a b 18#11
  | .min d a b => fmtA 0x01#6 d a b 24#11
  | .max d a b => fmtA 0x01#6 d a b 25#11
  | .minn d a b => fmtA 0x01#6 d a b 26#11
  | .maxn d a b => fmtA 0x01#6 d a b 27#11
  | .mul d a b => fmtA 0x01#6 d a b 32#11
  | .mulh d a b => fmtA 0x01#6 d a b 33#11
  | .mulhn d a b => fmtA 0x01#6 d a b 34#11
  | .div d a b => fmtA 0x01#6 d a b 36#11
  | .divn d a b => fmtA 0x01#6 d a b 37#11
  | .rem d a b => fmtA 0x01#6 d a b 38#11
  | .remn d a b => fmtA 0x01#6 d a b 39#11
  | .clz d a => fmtA 0x01#6 d a 0#5 48#11
  | .ctz d a => fmtA 0x01#6 d a 0#5 49#11
  | .popc d a => fmtA 0x01#6 d a 0#5 50#11
  | .brev d a => fmtA 0x01#6 d a 0#5 51#11
  | .bswap d a => fmtA 0x01#6 d a 0#5 52#11
  | .addw d a b => fmtA 0x01#6 d a b 64#11
  | .subw d a b => fmtA 0x01#6 d a b 65#11
  | .mulw d a b => fmtA 0x01#6 d a b 66#11
  | .sllw d a b => fmtA 0x01#6 d a b 67#11
  | .srlw d a b => fmtA 0x01#6 d a b 68#11
  | .sraw d a b => fmtA 0x01#6 d a b 69#11
  | .divw d a b => fmtA 0x01#6 d a b 70#11
  | .remw d a b => fmtA 0x01#6 d a b 71#11
  | .csel d a b c => fmtQ 0x02#6 d a b c 0#6
  | .madd d a b c => fmtQ 0x02#6 d a b c 1#6
  | .msub d a b c => fmtQ 0x02#6 d a b c 2#6
  | .funnel d a b c => fmtQ 0x02#6 d a b c 3#6
  | .addi d a i => fmtI 0x03#6 d a i
  | .andi d a i => fmtI 0x04#6 d a i
  | .ori d a i => fmtI 0x05#6 d a i
  | .xori d a i => fmtI 0x06#6 d a i
  | .slti d a i => fmtI 0x07#6 d a i
  | .sltni d a i => fmtI 0x08#6 d a i
  | .lui d i => fmtI 0x09#6 d 0#5 i
  | .slli d a s => fmtI 0x0A#6 d a (0#10 ++ s)
  | .srli d a s => fmtI 0x0A#6 d a (64#10 ++ s)
  | .srai d a s => fmtI 0x0A#6 d a (128#10 ++ s)
  | .rori d a s => fmtI 0x0A#6 d a (192#10 ++ s)
  | .sllwi d a s => fmtI 0x0A#6 d a (512#11 ++ s)
  | .srlwi d a s => fmtI 0x0A#6 d a (640#11 ++ s)
  | .srawi d a s => fmtI 0x0A#6 d a (768#11 ++ s)
  | .bfx d a p l => fmtI 0x0B#6 d a (0#4 ++ p ++ l)
  | .bfxn d a p l => fmtI 0x0B#6 d a (4#4 ++ p ++ l)
  | .bfi d a p l => fmtI 0x0B#6 d a (8#4 ++ p ++ l)
  | .mkp d a b => fmtA 0x0C#6 d a b 0#11
  | .phd d a => fmtA 0x0C#6 d a 0#5 1#11
  | .pof d a => fmtA 0x0C#6 d a 0#5 2#11
  | .addp d a b => fmtA 0x0C#6 d a b 3#11
  | .subp d a b => fmtA 0x0C#6 d a b 4#11
  | .pchk d a => fmtA 0x0C#6 d a 0#5 5#11
  | .addpi d a i => fmtI 0x0D#6 d a i
  | .beq a b x => fmtI 0x10#6 a b x
  | .bne a b x => fmtI 0x11#6 a b x
  | .blt a b x => fmtI 0x12#6 a b x
  | .bge a b x => fmtI 0x13#6 a b x
  | .bltn a b x => fmtI 0x14#6 a b x
  | .bgen a b x => fmtI 0x15#6 a b x
  | .loop a x => fmtI 0x16#6 a 0#5 x
  | .jmp x => fmtJ 0x17#6 x
  | .call x => fmtJ 0x18#6 x
  | .jr a => fmtA 0x19#6 0#5 a 0#5 0#11
  | .callr a => fmtA 0x19#6 0#5 a 0#5 1#11
  | .ld d a f x => fmtM 0x20#6 d a f 0#2 x
  | .ldacq d a f x => fmtM 0x20#6 d a f 1#2 x
  | .st d a f x => fmtM 0x21#6 d a f 0#2 x
  | .strel d a f x => fmtM 0x21#6 d a f 2#2 x
  | .ldp d a x => fmtM 0x22#6 (d ++ 0#1) a 0#4 0#2 x
  | .stp d a x => fmtM 0x22#6 (d ++ 0#1) a 8#4 0#2 x
  | .ldb d a n x => fmtM 0x23#6 d a (0#1 ++ n) 0#2 x
  | .stb d a n x => fmtM 0x23#6 d a (1#1 ++ n) 0#2 x
  | .lde d a x => fmtM 0x24#6 d a 0#4 0#2 x
  | .ldc d a x => fmtM 0x24#6 d a 1#4 0#2 x
  | .stf d a x => fmtM 0x24#6 d a 2#4 0#2 x
  | .sto d a x => fmtM 0x24#6 d a 3#4 0#2 x
  | .sete a x => fmtM 0x24#6 0#5 a 4#4 0#2 x
  | .setf a x => fmtM 0x24#6 0#5 a 5#4 0#2 x
  | .feq d a x => fmtM 0x24#6 d a 6#4 0#2 x
  | .amoadd d a b p w => fmtA 0x25#6 d a b (0#4 ++ p ++ w ++ 0#4)
  | .amoand d a b p w => fmtA 0x25#6 d a b (1#4 ++ p ++ w ++ 0#4)
  | .amoor d a b p w => fmtA 0x25#6 d a b (2#4 ++ p ++ w ++ 0#4)
  | .amoxor d a b p w => fmtA 0x25#6 d a b (3#4 ++ p ++ w ++ 0#4)
  | .amomin d a b p w => fmtA 0x25#6 d a b (4#4 ++ p ++ w ++ 0#4)
  | .amomax d a b p w => fmtA 0x25#6 d a b (5#4 ++ p ++ w ++ 0#4)
  | .amominn d a b p w => fmtA 0x25#6 d a b (6#4 ++ p ++ w ++ 0#4)
  | .amomaxn d a b p w => fmtA 0x25#6 d a b (7#4 ++ p ++ w ++ 0#4)
  | .amoswp d a b p w => fmtA 0x25#6 d a b (8#4 ++ p ++ w ++ 0#4)
  | .cas d a b p w => fmtA 0x26#6 d a b (0#4 ++ p ++ w ++ 0#4)
  | .cas2 d a b p => fmtA 0x26#6 (d ++ 0#1) a (b ++ 0#1) (0#4 ++ p ++ 1#5)
  | .fence => fmtA 0x27#6 0#5 0#5 0#5 0#11
  | .fenceSys => fmtA 0x27#6 0#5 0#5 0#5 1#11
  | .fenceEng => fmtA 0x27#6 0#5 0#5 0#5 2#11
  | .cwb a b => fmtA 0x27#6 0#5 a b 3#11
  | .cinv a b => fmtA 0x27#6 0#5 a b 4#11
  | .pref a => fmtA 0x27#6 0#5 a 0#5 5#11
  | .monw d a b => fmtA 0x27#6 d a b 6#11
  | .chb d c => fmtC 0x28#6 d c 0#4 0#4 0#9
  | .chld d c f n => fmtC 0x28#6 d c 1#4 f n
  | .chst d c f n => fmtC 0x28#6 d c 2#4 f n
  | .chadvp c n => fmtC 0x28#6 0#5 c 3#4 0#4 n
  | .chadvc c n => fmtC 0x28#6 0#5 c 4#4 0#4 n
  | .chwaitp c n => fmtC 0x28#6 0#5 c 5#4 0#4 n
  | .chwaitc c n => fmtC 0x28#6 0#5 c 6#4 0#4 n
  | .chcnt d c => fmtC 0x28#6 d c 7#4 0#4 0#9
  | .chptrHd d c i => fmtC 0x28#6 d c 8#4 0#4 (0#1 ++ i)
  | .chptrTl d c i => fmtC 0x28#6 d c 8#4 0#4 (1#1 ++ i)
  | .padd d a b w => fmtA 0x29#6 d a b (w ++ 0#9)
  | .psub d a b w => fmtA 0x29#6 d a b (w ++ 1#9)
  | .padds d a b w => fmtA 0x29#6 d a b (w ++ 2#9)
  | .psubs d a b w => fmtA 0x29#6 d a b (w ++ 3#9)
  | .paddns d a b w => fmtA 0x29#6 d a b (w ++ 4#9)
  | .psubns d a b w => fmtA 0x29#6 d a b (w ++ 5#9)
  | .pavg d a b w => fmtA 0x29#6 d a b (w ++ 6#9)
  | .pmin d a b w => fmtA 0x29#6 d a b (w ++ 7#9)
  | .pmax d a b w => fmtA 0x29#6 d a b (w ++ 8#9)
  | .pminn d a b w => fmtA 0x29#6 d a b (w ++ 9#9)
  | .pmaxn d a b w => fmtA 0x29#6 d a b (w ++ 10#9)
  | .pabs d a w => fmtA 0x29#6 d a 0#5 (w ++ 11#9)
  | .pneg d a w => fmtA 0x29#6 d a 0#5 (w ++ 12#9)
  | .pcmpeq d a b w => fmtA 0x29#6 d a b (w ++ 13#9)
  | .pcmplt d a b w => fmtA 0x29#6 d a b (w ++ 14#9)
  | .pcmpltn d a b w => fmtA 0x29#6 d a b (w ++ 15#9)
  | .psllv d a b w => fmtA 0x29#6 d a b (w ++ 16#9)
  | .psrlv d a b w => fmtA 0x29#6 d a b (w ++ 17#9)
  | .psrav d a b w => fmtA 0x29#6 d a b (w ++ 18#9)
  | .psum d a w => fmtA 0x29#6 d a 0#5 (w ++ 19#9)
  | .psumn d a w => fmtA 0x29#6 d a 0#5 (w ++ 20#9)
  | .pmul d a b w => fmtA 0x2A#6 d a b (w ++ 0#9)
  | .pmulh d a b w => fmtA 0x2A#6 d a b (w ++ 1#9)
  | .pmulhn d a b w => fmtA 0x2A#6 d a b (w ++ 2#9)
  | .pmulq d a b w => fmtA 0x2A#6 d a b (w ++ 3#9)
  | .pdot d a b w => fmtA 0x2A#6 d a b (w ++ 4#9)
  | .pdotn d a b w => fmtA 0x2A#6 d a b (w ++ 5#9)
  | .pslli d a w i => fmtA 0x2B#6 d a 0#5 (w ++ 0#4 ++ i)
  | .psrli d a w i => fmtA 0x2B#6 d a 0#5 (w ++ 1#4 ++ i)
  | .psrai d a w i => fmtA 0x2B#6 d a 0#5 (w ++ 2#4 ++ i)
  | .psrari d a w i => fmtA 0x2B#6 d a 0#5 (w ++ 3#4 ++ i)
  | .ppacks d a b w => fmtA 0x2B#6 d a b (w ++ 128#9)
  | .ppackns d a b w => fmtA 0x2B#6 d a b (w ++ 160#9)
  | .ppack d a b w => fmtA 0x2B#6 d a b (w ++ 192#9)
  | .punpkl d a w => fmtA 0x2B#6 d a 0#5 (w ++ 224#9)
  | .punpkh d a w => fmtA 0x2B#6 d a 0#5 (w ++ 256#9)
  | .punpkln d a w => fmtA 0x2B#6 d a 0#5 (w ++ 288#9)
  | .punpkhn d a w => fmtA 0x2B#6 d a 0#5 (w ++ 320#9)
  | .pshuf d a b => fmtA 0x2B#6 d a b 352#11
  | .pbcast d a w i => fmtA 0x2B#6 d a 0#5 (w ++ 12#4 ++ i)
  | .pins d a w i => fmtA 0x2B#6 d a 0#5 (w ++ 13#4 ++ i)
  | .pext d a w i => fmtA 0x2B#6 d a 0#5 (w ++ 14#4 ++ i)
  | .psel d a b => fmtA 0x2B#6 d a b 480#11
  | .cadd d a b => fmtA 0x2C#6 d a b 0#11
  | .csub d a b => fmtA 0x2C#6 d a b 1#11
  | .caddh d a b => fmtA 0x2C#6 d a b 2#11
  | .csubh d a b => fmtA 0x2C#6 d a b 3#11
  | .cmul d a b => fmtA 0x2C#6 d a b 4#11
  | .cmulj d a b => fmtA 0x2C#6 d a b 5#11
  | .cj d a => fmtA 0x2C#6 d a 0#5 6#11
  | .cmj d a => fmtA 0x2C#6 d a 0#5 7#11
  | .cnorm d a => fmtA 0x2C#6 d a 0#5 8#11
  | .cdot d a b => fmtA 0x2C#6 d a b 9#11
  | .cdotj d a b => fmtA 0x2C#6 d a b 10#11
  | .cbfly d a b => fmtA 0x2C#6 d a b 11#11
  | .cscl d a b => fmtA 0x2C#6 d a b 12#11
  | .crnd d a b => fmtA 0x2C#6 d a b 13#11
  | .fadd d a b r => fmtA 0x2D#6 d a b (r ++ 0#8)
  | .fsub d a b r => fmtA 0x2D#6 d a b (r ++ 1#8)
  | .fmul d a b r => fmtA 0x2D#6 d a b (r ++ 2#8)
  | .fdiv d a b r => fmtA 0x2D#6 d a b (r ++ 3#8)
  | .fsqrt d a r => fmtA 0x2D#6 d a 0#5 (r ++ 4#8)
  | .fmin d a b => fmtA 0x2D#6 d a b 5#11
  | .fmax d a b => fmtA 0x2D#6 d a b 6#11
  | .fabs d a => fmtA 0x2D#6 d a 0#5 7#11
  | .fneg d a => fmtA 0x2D#6 d a 0#5 8#11
  | .fsgnj d a b => fmtA 0x2D#6 d a b 9#11
  | .fcmpeq d a b => fmtA 0x2D#6 d a b 10#11
  | .fcmplt d a b => fmtA 0x2D#6 d a b 11#11
  | .fcmple d a b => fmtA 0x2D#6 d a b 12#11
  | .fclass d a => fmtA 0x2D#6 d a 0#5 13#11
  | .frnd d a r => fmtA 0x2D#6 d a 0#5 (r ++ 14#8)
  | .fma d a b c => fmtQ 0x2E#6 d a b c 0#6
  | .fms d a b c => fmtQ 0x2E#6 d a b c 1#6
  | .fnma d a b c => fmtQ 0x2E#6 d a b c 2#6
  | .fnms d a b c => fmtQ 0x2E#6 d a b c 3#6
  | .pfma d a b c => fmtQ 0x2E#6 d a b c 4#6
  | .pbfdot d a b c => fmtQ 0x2E#6 d a b c 5#6
  | .pfadd d a b => fmtA 0x2F#6 d a b 0#11
  | .pfsub d a b => fmtA 0x2F#6 d a b 1#11
  | .pfmul d a b => fmtA 0x2F#6 d a b 2#11
  | .pfmin d a b => fmtA 0x2F#6 d a b 3#11
  | .pfmax d a b => fmtA 0x2F#6 d a b 4#11
  | .pbfpack d a b => fmtA 0x2F#6 d a b 5#11
  | .pbfunpl d a => fmtA 0x2F#6 d a 0#5 6#11
  | .pbfunph d a => fmtA 0x2F#6 d a 0#5 7#11
  | .ptop2 d a => fmtA 0x2F#6 d a 0#5 8#11
  | .fcvtF32I32 d a r => fmtA 0x30#6 d a 0#5 (4#8 ++ r)
  | .fcvtF32N32 d a r => fmtA 0x30#6 d a 0#5 (20#8 ++ r)
  | .fcvtF32I64 d a r => fmtA 0x30#6 d a 0#5 (36#8 ++ r)
  | .fcvtF32N64 d a r => fmtA 0x30#6 d a 0#5 (52#8 ++ r)
  | .fcvtF32Q15 d a r => fmtA 0x30#6 d a 0#5 (100#8 ++ r)
  | .fcvtF32Q31 d a r => fmtA 0x30#6 d a 0#5 (116#8 ++ r)
  | .fcvtI32F32 d a r => fmtA 0x30#6 d a 0#5 (64#8 ++ r)
  | .fcvtN32F32 d a r => fmtA 0x30#6 d a 0#5 (65#8 ++ r)
  | .fcvtI64F32 d a r => fmtA 0x30#6 d a 0#5 (66#8 ++ r)
  | .fcvtN64F32 d a r => fmtA 0x30#6 d a 0#5 (67#8 ++ r)
  | .fcvtQ15F32 d a r => fmtA 0x30#6 d a 0#5 (70#8 ++ r)
  | .fcvtQ31F32 d a r => fmtA 0x30#6 d a 0#5 (71#8 ++ r)
  | .fcvtBf16F32 d a r => fmtA 0x30#6 d a 0#5 (69#8 ++ r)
  | .fcvtF32Bf16 d a r => fmtA 0x30#6 d a 0#5 (84#8 ++ r)
  | .mmaI8 a b m n l s z => fmtX 0x31#6 a b m n l s z
  | .mmaI16 a b m n l s z => fmtX 0x32#6 a b m n l s z
  | .mmaCq15 a b m n l s z => fmtX 0x33#6 a b m n l s z
  | .mmaDp8 a b m n l s z => fmtX 0x34#6 a b m n l s z
  | .mzero a b => fmtA 0x35#6 0#5 a b 0#11
  | .mdrain a b => fmtA 0x35#6 0#5 a b 1#11
  | .msca a => fmtA 0x35#6 0#5 a 0#5 2#11
  | .mstride a b => fmtA 0x35#6 0#5 a b 3#11
  | .mbmap a => fmtA 0x35#6 0#5 a 0#5 4#11
  | .mstat d => fmtA 0x35#6 d 0#5 0#5 5#11
  | .mwaitq => fmtA 0x35#6 0#5 0#5 0#5 6#11
  | .cpy d a b => fmtA 0x36#6 d a b 0#11
  | .cpy2d d a b => fmtA 0x36#6 d a b 1#11
  | .cpyg d a b => fmtA 0x36#6 d a b 2#11
  | .cpys d a b => fmtA 0x36#6 d a b 3#11
  | .cpyf d a b => fmtA 0x36#6 d a b 4#11
  | .cpych d a b => fmtA 0x36#6 d a b 5#11
  | .kinit a b => fmtA 0x37#6 0#5 a b 0#11
  | .ksel a => fmtA 0x37#6 0#5 a 0#5 1#11
  | .karr a b => fmtA 0x37#6 0#5 a b 2#11
  | .kwait d a b => fmtA 0x37#6 d a b 3#11
  | .ktest d a => fmtA 0x37#6 d a 0#5 4#11
  | .barw a => fmtA 0x38#6 0#5 a 0#5 0#11
  | .bara a => fmtA 0x38#6 0#5 a 0#5 1#11
  | .barwt d a b => fmtA 0x38#6 d a b 2#11
  | .wake a b => fmtA 0x38#6 0#5 a b 3#11
  | .wfw d => fmtA 0x38#6 d 0#5 0#5 4#11
  | .wclr a => fmtA 0x38#6 0#5 a 0#5 5#11
  | .wrd d => fmtA 0x38#6 d 0#5 0#5 6#11
  | .spawn d a b => fmtA 0x39#6 d a b 0#11
  | .spawnr d a b => fmtA 0x39#6 d a b 1#11
  | .migr a => fmtA 0x39#6 0#5 a 0#5 2#11
  | .join a => fmtA 0x39#6 0#5 a 0#5 3#11
  | .yield d => fmtA 0x39#6 d 0#5 0#5 4#11
  | .exit => fmtA 0x39#6 0#5 0#5 0#5 5#11
  | .launch d a b => fmtA 0x39#6 d a b 6#11
  | .rankq d a => fmtA 0x39#6 d a 0#5 7#11
  | .trap i => fmtS 0x3A#6 0#5 0#5 0#4 i
  | .brk i => fmtS 0x3A#6 0#5 0#5 1#4 i
  | .svc i => fmtS 0x3A#6 0#5 0#5 2#4 i
  | .tfence => fmtS 0x3A#6 0#5 0#5 3#4 0#12
  | .srd d i => fmtS 0x3A#6 d 0#5 4#4 i
  | .swr a i => fmtS 0x3A#6 0#5 a 5#4 i
  | .srx d a i => fmtS 0x3A#6 d a 6#4 i
  | .waitc i => fmtS 0x3A#6 0#5 0#5 7#4 i
  | .tret => fmtS 0x3A#6 0#5 0#5 8#4 0#12
  | .immx p => fmtH 0#3 p
  | .align i => fmtH 1#3 i
  | .brp p => fmtH 2#3 (0#16 ++ p)
  | .prio n => fmtH 3#3 (0#18 ++ n)
  | .stream p => fmtH 4#3 (0#21 ++ p)
  | .noph x => fmtH 5#3 x
  | .storeBufferDrain _ _ => 0#32
  | .bankAccess _ _ _ => 0#32
  | .waitListRetry _ => 0#32
  | .overflowTableMove _ => 0#32
  | .refusedRepresentation _ => 0#32
  | .selfTestEnd _ _ _ => 0#32
  | .cacheFill _ _ _ _ => 0#32
  | .sweepPass _ => 0#32
  | .sweepPassEnd _ => 0#32
  | .epochWriteback _ _ => 0#32
  | .cacheConversion _ _ => 0#32
  | .cacheGrowth _ _ => 0#32
  | .conversionComplete _ => 0#32
  | .writeback _ _ => 0#32
  | .homeRelease _ => 0#32
  | .homeAcquire _ => 0#32
  | .homeAtomic _ => 0#32
  | .drain _ => 0#32
  | .drainDone _ => 0#32
  | .drainBusy _ => 0#32
  | .agentDead _ => 0#32
  | .agentReadmit _ => 0#32
  | .monwPoll _ => 0#32
  | .monwWake _ => 0#32
  | .monwTimeout _ => 0#32
  | .wakeDelivery _ => 0#32
  | .crossClusterHandoffDrain _ => 0#32
  | .barrierArrival _ => 0#32
  | .barwtTimeout _ => 0#32
  | .waitcExpiry _ => 0#32
  | .alignTimeout _ => 0#32
  | .svcServiceDone _ => 0#32
  | .matrixTurn _ => 0#32
  | .operandFetch _ => 0#32
  | .copyChunk _ => 0#32
  | .calendarSlot _ => 0#32
  | .cpychAppend _ => 0#32
  | .engineCompletion _ _ => 0#32
  | .knotCountUpdate _ => 0#32
  | .translationMiss _ => 0#32
  | .translationLowered _ => 0#32
  | .moduleLoad _ _ _ _ _ _ => 0#32
  | .moduleLowering _ _ => 0#32
  | .translationInvalidate _ _ _ _ => 0#32
  | .moduleUnload _ => 0#32
  | .fetchRequest _ => 0#32
  | .doorbell _ _ => 0#32
  | .qctlTeardown _ => 0#32
  | .qctlReset _ => 0#32
  | .queueTeardownComplete _ => 0#32
  | .dependencySatisfied _ _ _ => 0#32
  | .dispatch _ => 0#32
  | .residencyStage _ => 0#32
  | .stageRelease _ => 0#32
  | .stepCut _ => 0#32
  | .taskPickup _ => 0#32
  | .steal _ => 0#32
  | .travellerArrival _ => 0#32
  | .overflowListMove _ => 0#32
  | .rankRelocate _ _ _ => 0#32
  | .deadlock _ => 0#32
  | .strandThrottle _ _ _ => 0#32
  | .strandUnthrottle _ _ _ => 0#32
  | .strimbWindow _ _ => 0#32
  | .strandPowerUp => 0#32
  | .preemptionRequest _ => 0#32
  | .yieldDeadline _ => 0#32
  | .engineAcknowledge _ _ => 0#32
  | .saveComplete _ => 0#32
  | .resuming _ => 0#32
  | .faultHold => 0#32
  | .hostCmdResume _ => 0#32
  | .hostCmdEnd _ => 0#32
  | .faultHoldExpiry _ => 0#32
  | .rollback _ => 0#32
  | .l1pageRefill _ => 0#32
  | .frameEviction _ _ => 0#32
  | .tlbWalk _ _ _ _ _ => 0#32
  | .hostSnoop _ _ _ => 0#32
  | .recall _ _ => 0#32
  | .hostLineGrant _ _ => 0#32
  | .cxlMemRead _ _ => 0#32
  | .cxlMemWrite _ _ _ => 0#32
  | .biasFlip _ => 0#32
  | .biasFlipDone => 0#32
  | .shootdown _ => 0#32
  | .shootdownDone => 0#32
  | .pcieCompletion _ _ _ => 0#32
  | .priResponse _ _ => 0#32
  | .frsizeWrite _ => 0#32
  | .frheadWrite _ => 0#32
  | .frrplyDone _ => 0#32
  | .frrplyFailed _ => 0#32
  | .elclr => 0#32
  | .pcapWrite _ => 0#32
  | .dieClockWrite _ => 0#32
  | .registerWrite _ _ => 0#32
  | .governorTick _ => 0#32
  | .frequencyStep _ _ => 0#32
  | .relockEnd _ => 0#32
  | .supplyRampDone _ => 0#32
  | .rtmSet _ => 0#32
  | .powerGood => 0#32
  | .bootStageComplete => 0#32
  | .brownoutAssert => 0#32
  | .checkpointSealed => 0#32
  | .brownoutDeassert => 0#32
  | .brownoutRestart => 0#32
  | .frameReceive _ _ _ => 0#32
  | .frameTransmit _ _ => 0#32
  | .getVersion _ => 0#32
  | .getCapabilities _ => 0#32
  | .negotiateAlgorithms _ => 0#32
  | .getDigests _ => 0#32
  | .getCertificate _ => 0#32
  | .challenge _ => 0#32
  | .getMeasurements _ => 0#32
  | .handleTableRewrite _ _ _ _ _ => 0#32
  | .rtmSlew _ => 0#32
  | .supplyFailure => 0#32
  | .ballastIssue _ _ => 0#32

/-- The words of a well-formed instruction: one word (R57), none for a device step. -/
def encode (i : Instr) : List Word32 := if i.isWord then [encodeWord i] else []

/-- The word whose bytes these are, little-endian (R57). -/
def wordOfBytes (b0 b1 b2 b3 : Byte) : Word32 := b3 ++ b2 ++ b1 ++ b0

/-- The bytes of a word, the byte at the lowest address first (R57). -/
def bytesOfWord (w : Word32) : List Byte :=
  [w.extractLsb' 0 8, w.extractLsb' 8 8, w.extractLsb' 16 8, w.extractLsb' 24 8]

/-- Decode the instruction at the front of a byte list and give the rest (R57). -/
noncomputable def decodeBytes : List Byte → Except DecodeReject (Instr × List Byte)
  | b0 :: b1 :: b2 :: b3 :: rest =>
    match decode (wordOfBytes b0 b1 b2 b3) with
    | .ok i => .ok (i, rest)
    | .error e => .error e
  | _ => .error .tooShort

/-- The instruction the decoder reads from the bits of an opcode-table row.  Every row with bits has
32 of them and is one word; a device step has no bits. -/
noncomputable def decodeTableWord (nbits w : Nat) : Option Instr :=
  if nbits = 0 ∨ 32 < nbits then none
  else
    match decodeBytes (bytesOfWord (BitVec.ofNat 32 (w % 2 ^ nbits))) with
    | .ok (i, _) => some i
    | .error _ => none

end Sys2Proof
end

