-- ==== Sys2Proof/Config.lean ====
section
/-!
DEFINITION. What the spec leaves to the implementation, as constants without a body: nothing can be
proved of their values, so a statement about them holds for every value (log entries 3, 5, 6, 9, 11, 55, 70, 86, 108, 117).
-/

namespace Sys2Proof.Config

/-- The time that passes during step number `n`, in units of 1/111,384 tick.  Free: the spec bounds
the duration of hardly any step (log entry 3: DESIGN CHOICE, safe). -/
opaque elapsed (n : Nat) : Nat

/-- The data an IO load reads, by the number of the free value and the address (log entry 5: DESIGN CHOICE, safe). -/
opaque ioLoad (n addr : Nat) : BitVec 64

/-- Does a plain load take an early sibling store from the core's store buffer (R144)?  The device
chooses on each load (log entry 6: DESIGN CHOICE, safe). -/
opaque earlySibling (n : Nat) : Bool

/-- The images in NOR flash, which nothing writes: slot 0 A and 1 B of the first stage, 2 the firmware; the words
are the security version, the digest, the signature and the commit mark (R406; log entry 9: DESIGN CHOICE, safe). -/
opaque image (slot word : Nat) : Nat

/-- The key whose hash the fuses hold (R406; log entry 9: DESIGN CHOICE, safe). -/
opaque bootKey : Nat

/-- The body of an SPDM response, by request code and state words (R396; log entry 9: DESIGN CHOICE, safe). -/
opaque spdmBody (code : Nat) (words : List Nat) : List (BitVec 8)

/-- The cycles before a context can issue after its instruction of step number `n`: a bound on the result latencies of
R86 that the next instruction waits for (log entry 86: DESIGN CHOICE, safe). -/
opaque latency (n : Nat) : Nat

/-- The host's answer to an ATS translation, by host page: the page number that it gives (R385; log entry 55: DEDUCED, safe). -/
opaque atsPage (page : Nat) : Nat

/-- Ticks between the moment that stamps a received frame and the step that delivers it, by the number of the free value
(R395; log entry 70: DEDUCED, safe). -/
opaque frameTicks (n : Nat) : Nat

/-- The word of its bank at which a word of a TILE page lies, by frame and word (R372; log entry 108: DESIGN CHOICE, safe). -/
opaque bankWord (frame word : Nat) : Nat

/-- The bytes of a checkpoint set on NVMe, by the number of the free value: the spec gives what the set holds and no layout of it
(R408; log entry 117: DESIGN CHOICE, safe). -/
opaque setImage (n : Nat) : List (BitVec 8)

/-- The native revision of a compute die, by die (R351; log entry 9: DESIGN CHOICE, safe). -/
opaque nativeRev (die : Nat) : Nat

/-- A value that the spec leaves open and that no operand decides, numbered by a counter of the
state (log entry 11: DESIGN CHOICE, safe). -/
opaque freeWord (n : Nat) : BitVec 64

end Sys2Proof.Config
end

