-- ==== Sys2Proof/Machine/State.lean ====
section
/-!
DEFINITION. The state of the machine: everything the spec names, as plain data, and the state right
after reset.  Lists keyed by a number are sparse: a key that is not listed has its reset value.
-/

namespace Sys2Proof.Machine

open Sys2Proof

/-! ### Reasons to stop -/

/-- A run that stops with a fault.  No meaning of an instruction raises one: every fault of the spec is
taken as the spec describes (the leaf receives it, or it is delivered to TVEC). -/
inductive Fault where
  /-- The agenda names a context that the part does not have (R2); raised by step.  Safe: the model
  stops. -/
  | noSuchContext
  deriving DecidableEq, Repr

/-- A run that stops because there is no meaning. -/
inductive Refusal where
  /-- exec has no meaning for the instruction yet; raised by exec's arms only.  Safe: the model stops. -/
  | notModelled (mnemonic : String)
  deriving DecidableEq, Repr

/-! ### Records -/

/-- A memory: (address, byte) pairs, addresses strictly rising, no entry zero (an unlisted address
reads as zero, R405 stage 6). -/
abbrev Memory := List Host.Cell

/-- A handle-table entry (R26). -/
structure HandleEntry where
  base : Nat := 0
  length : Nat := 0
  remote : Bool := false
  rcl : Nat := 0
  valid : Bool := false
  lease : Bool := false
  e : Bool := false
  x : Bool := false
  w : Bool := false
  r : Bool := false
  policy : Nat := 0
  space : Nat := 0
  deriving DecidableEq, Repr

/-- A traveller's ten words (R31). -/
abbrev Traveller := List Word64

/-- State registers that hold plain 64-bit contents (R21, R171, R312). -/
structure SRegs where
  afl : Word64 := 0
  afen : Word64 := 0
  tmr : Word64 := 0
  tvec : Word64 := 0
  tpc : Word64 := 0
  tcause : Word64 := 0
  tval : Word64 := 0
  tsave : Word64 := 0
  ksel : Word64 := 0
  mpart : Word64 := 0
  mstra : Word64 := 32
  mstrb : Word64 := 32
  mbm : Word64 := 0
  splim : Word64 := 16
  spcnt : Word64 := 0
  arq : Word64 := 0
  joinp : Word64 := 0
  cpyc : Word64 := 0
  efr0 : Word64 := 0
  efr1 : Word64 := 0
  efr2 : Word64 := 0
  efr3 : Word64 := 0
  step : Word64 := 0
  stepk : Word64 := 0
  deriving DecidableEq, Repr

/-- A line of 128 bytes that a launch writes or reads: LOCAL or GLOBAL, the cluster (LOCAL), the area offset or virtual
address, the area number or ASID (R364). -/
structure LineRef where
  isLocal : Bool
  cluster : Nat
  line : Nat
  tag : Nat
  deriving DecidableEq, Repr

/-- An engine fault stored with its context (R173, R301). -/
structure EngFault where
  efr0 : Word64
  efr1 : Word64
  efr2 : Word64
  efr3 : Word64
  /-- PC of the engine instruction, the TVAL of the ENGINE trap -/
  pc : Word64
  /-- area offset of the knot latched with the command; none when KSEL was 0 -/
  knot : Option Nat
  /-- the line that a POISON was met at (R368) -/
  line : Option LineRef := none
  deriving DecidableEq, Repr

/-- Flags recorded with a command and not yet merged into AFL (R52, R182). -/
structure EngFlags where
  knot : Option Nat
  flags : Nat
  deriving DecidableEq, Repr

/-- The architectural state of a thread: what the save and restart records hold (R24, R359). -/
structure Arch where
  g : Vector Word64 32 := Vector.replicate 32 0
  c : Vector (Option Word64) 16 := Vector.replicate 16 none
  pc : Word64 := 0
  /-- payloads of the IMMX words of the group in progress (R65) -/
  immx : List (BitVec 23) := []
  /-- the handler bit (R202) -/
  handler : Bool := false
  sr : SRegs := {}
  wake : BitVec 16 := 0
  /-- barrier unit and phase of a kept arrival (R192, R359 wk) -/
  kept : Option (Nat × Bool) := none
  efault : Option EngFault := none
  eflags : List EngFlags := []
  deriving DecidableEq, Repr

/-- What a context bound to a launch is (R11, R21, R22, R310). -/
structure Bind where
  rank : Nat := 0
  queue : Nat := 0
  serial : Nat := 0
  asid : Nat := 0
  /-- index of the launch in the dispatcher's list of launches -/
  launch : Nat := 0
  module : Nat := 0
  actor : Nat := 0
  inst : Nat := 0
  /-- LOCAL area number of the launch in the cluster (R246) -/
  area : Nat := 0
  /-- stack bytes of the context's actor (R24) -/
  stack : Nat := 0
  /-- slots of the core's arrival ring, and the area offsets of its QCW and of the deque control word (R243) -/
  ring : Nat := 0
  arqOff : Nat := 0
  deqOff : Nat := 0
  deriving DecidableEq, Repr

/-- What a parked context waits for. -/
inductive Wait where
  /-- a place in the wait list of the bank that holds the word (R253) -/
  | bank (key : Nat)
  /-- a home access, posted to the home of the line (R270) -/
  | home
  /-- a place in the core's matrix or copy queue (R170) -/
  | engineQueue (matrix : Bool)
  /-- completion of the context's engine commands: FENCE.ENG, EXIT, MIGR (R159, R196, R197) -/
  | engines
  /-- the matrix queue to empty: MWAITQ (R179) -/
  | matrixQueue
  /-- an earlier release, before an acquire, release or fence (R142) -/
  | releases
  /-- the phase of a barrier (R192); a register to write and the deadline of BARWT, if any -/
  | barrier (unit : Nat) (phase : Bool) (d : Option (BitVec 5)) (deadline : Option Nat)
  /-- WFW with the wake register zero (R193) -/
  | wake
  /-- WAITC, until CYC reaches the value (R206) -/
  | cycles (until_ : Nat)
  /-- ALIGN with its identifier, until the moment (R316) -/
  | align (id : Nat) (until_ : Nat)
  /-- a service of the leaf, complete no sooner than the CYC value (R203) -/
  | svc (code : Word64) (until_ : Nat)
  /-- a translation miss (R342) -/
  | translation
  /-- an IN-TRANSIT rank (R200, R320) -/
  | rank (r : Nat)
  /-- DRAIN-DONE of a cross-cluster hand-off (R219) -/
  | handoff
  /-- a sweep pass, before a version bump (R275) -/
  | sweep
  /-- the host's grant of a line, to read it or to write it (R285) -/
  | hostLine (line : Nat) (write : Bool)
  /-- a PCIe completion (R380-R382) -/
  | pcie
  /-- the drain of buffered stores that overlap a range, and, for a store, a free entry of the buffer (R144) -/
  | buffer (room : Bool) (glob : Bool) (asid addr n : Nat)
  /-- the re-admission of its cluster as an agent (R279) -/
  | agent
  /-- the page's bias flip (R379) -/
  | bias
  /-- the relock of the home's die (R400) -/
  | relock (die : Nat)
  deriving DecidableEq, Repr

/-- Whether a context runs (R317, R353). -/
inductive Run where
  | unbound | idle | running
  | parked (w : Wait)
  /-- stopped by a fault the leaf has received, or by the collector -/
  | stopped
  deriving DecidableEq, Repr

/-- The pre-emption states of R358. -/
inductive PreState where
  | running | requested | suspending | saved | resuming | held | ended
  deriving DecidableEq, Repr

/-- A TLB entry: ASID, first virtual page address, page size, the page-table entry (R385). -/
structure TlbEntry where
  asid : Nat
  va : Nat
  size : Nat
  pte : Word64
  deriving DecidableEq, Repr

/-- Kinds of engine commands (R170). -/
inductive CmdKind where
  | mmaI8 | mmaI16 | mmaCq15 | mmaDp8 | mzero | mdrain | msca
  | cpy | cpy2d | cpyg | cpys | cpyf | cpych
  deriving DecidableEq, Repr

/-- An engine command with the state latched at issue (R170) and its progress (R294, R299). -/
structure Cmd where
  kind : CmdKind
  ctx : Nat
  word : BitVec 32
  pc : Word64
  gd : Word64
  ga : Word64
  gb : Word64
  ksel : Word64
  /-- area offset of the knot latched with the command; none when KSEL was 0 -/
  knot : Option Nat
  mstra : Nat
  mstrb : Nat
  mbm : Word64
  frm : Nat
  timed : Bool
  /-- words of the descriptor read at issue (MSCA, CPY2D) -/
  desc : List Word64
  started : Bool := false
  /-- parked at the QCW of a CPYCH (R298) -/
  parked : Bool := false
  /-- index of the next turn or chunk -/
  next : Nat := 0
  /-- phase 2 of an MDRAIN or MSCA -/
  phase2 : Bool := false
  /-- the result buffer: results of phase 1, one list of bytes a slice (R293) -/
  buf : List (List (BitVec 8)) := []
  /-- AFL flags that the roundings and the wrap bits gave so far -/
  flags : Nat := 0
  /-- its start checks have passed (R173) -/
  checked : Bool := false
  /-- it has ended and its completion has not been presented (R300) -/
  finished : Bool := false
  /-- the calendar accesses of its last chunk have been posted and are not all done (R296) -/
  posted : Bool := false
  /-- the re-admission of its copy port has dropped a write of it (R297) -/
  dropped : Bool := false
  /-- translations of its GLOBAL destination, looked at as it started (R173) -/
  pages : List TlbEntry := []
  /-- count of a CPYG or CPYS (R172) -/
  sum : Nat := 0
  /-- bytes moved so far; list entry and bytes of it done (CPYG, CPYS) -/
  pos : Nat := 0
  ent : Nat := 0
  entOff : Nat := 0
  deriving DecidableEq, Repr

/-- Modes of an accumulator slot (R51). -/
inductive SlotMode where
  | clear | integer | complex
  deriving DecidableEq, Repr

/-- One accumulator slot: 8 x 16 elements of 96 bits, row by row; an empty list is all zero. -/
structure Slot where
  id : Nat
  mode : SlotMode := .clear
  wrap : Bool := false
  els : List (BitVec 96) := []
  deriving DecidableEq, Repr

/-- A plain load that may still be performed later than at its issue (R142, R217): the checked pointer and its
handle's entry, whose policy is the one in effect at its issue, the bytes, the register and the format. -/
structure Post where
  ptr : Word64
  entry : HandleEntry
  n : Nat
  d : BitVec 5
  fmt : Nat
  deriving DecidableEq, Repr

/-- A burst of LOCAL whose later words are still to come, each in its bank's reserved cycle (R250): the keys of those
words, and, for a word that fails with POISON, the PC, the pointer and the registers that the fault goes back to (R353).
DEDUCED, unsafe (log entry 103). -/
structure Burst where
  pc : Word64
  ptr : Word64
  g : Vector Word64 32
  due : List Nat
  deriving DecidableEq, Repr

/-- One context (R2, R14-R24). -/
structure Ctx where
  /-- physical context number, COORD[15:0] (R22) -/
  id : Nat := 0
  a : Arch := {}
  bind : Bind := {}
  /-- handle table: entries by handle; an unlisted handle is invalid (R27) -/
  handles : List (Nat × HandleEntry) := []
  /-- hints in effect (R64) -/
  brp : Option Nat := none
  prio : Nat := 0
  stream : Option Nat := none
  /-- floor F(x) (R268) -/
  floor : BitVec 4 := 0
  /-- hand-offs whose drain has not returned: agent and release number (R219) -/
  handoff : List (Nat × BitVec 16) := []
  run : Run := .unbound
  pre : PreState := .running
  /-- the yield deadline, in ticks (R357) -/
  deadline : Option Nat := none
  /-- units that have acknowledged to the collector: 0 core, 1 matrix unit, 2 copy engine, 3 lowering engine (R357) -/
  acks : List Nat := []
  /-- fault the leaf received: cause, PC, value (R354) -/
  fcause : Nat := 0
  fpc : Word64 := 0
  fval : Word64 := 0
  /-- saved by a cooperative yield: the register YIELD writes (R198) -/
  coop : Option (BitVec 5) := none
  /-- host command of the save record (R359) -/
  cmd : Word64 := 0
  /-- the restart record, written at each step cut: thread state, whether it ran, engine state, partition
  image (R313, R359) -/
  restart : Option Arch := none
  restartRun : Run := .running
  restartCmds : List Cmd := []
  restartSlots : List Slot := []
  restartShadow : List Slot := []
  /-- engine commands saved with the context (R413): matrix, then copy -/
  savedCmds : List Cmd := []
  /-- its partition of the accumulator file and the shadow copies, while it is saved (R294) -/
  savedSlots : List Slot := []
  savedShadow : List Slot := []
  /-- has the context run its first instruction (R311)? -/
  issued : Bool := false
  /-- slots waited while ready (R314) -/
  waited : Nat := 0
  /-- halves of the split instruction buffer filled (R315) -/
  half0 : Bool := true
  half1 : Bool := true
  /-- host ports written since the last FENCE.SYS (R382) -/
  ports : List Nat := []
  /-- hand-offs of WAKEs whose bits no WFW has returned yet (R193, R219) -/
  wakeFrom : List (Nat × BitVec 16) := []
  /-- tasks the context has begun: names the parent of a child (R195) -/
  task : Nat := 0
  /-- ARRC, ARSP, AROV and DQSP of the core at bind (R312) -/
  arrc0 : Nat := 0
  arsp0 : Nat := 0
  arov0 : Nat := 0
  dqsp0 : Nat := 0
  /-- the translation block in progress, entry PC and words; was the last one left by a taken transfer (R339, R349)? -/
  blk : Option (Nat × Nat) := none
  taken : Bool := false
  /-- CYC before which a result of the last instruction is not ready (R86) -/
  busyUntil : Nat := 0
  /-- plain loads that may still be performed later -/
  posted : List Post := []
  /-- the burst in progress (R250) -/
  burst : Option Burst := none
  deriving DecidableEq, Repr

/-- A store in a core's store buffer (R144). -/
structure SBEntry where
  ctx : Nat
  /-- key of the first byte in L1, or in the GLOBAL space of an ASID -/
  isGlobal : Bool
  asid : Nat
  addr : Nat
  size : Nat
  data : Nat
  policy : Nat
  /-- home of a GLOBAL line, from the translation at issue -/
  home : Nat := 0
  /-- sibling contexts that have read it early (R144, R213) -/
  seen : List Nat := []
  deriving DecidableEq, Repr

/-- A traveller on its way to a rank. -/
structure Arrival where
  rank : Nat
  launch : Nat
  trav : Traveller
  /-- agents and release numbers of the hand-off: those that the sender itself still had to drain, and its own (R219) -/
  handoff : List (Nat × BitVec 16)
  /-- context and task whose SPCNT falls when the child begins; none for a MIGR -/
  parent : Option (Nat × Nat) := none
  deriving DecidableEq, Repr

/-- A traveller on a deque, with its launch. -/
structure DequeEntry where
  launch : Nat
  /-- context and task whose SPCNT falls when the child begins -/
  parent : Nat × Nat
  trav : Traveller
  /-- slot of the launch's L1 deque ring that holds it, for one that has moved there (R243) -/
  slot : Nat := 0
  deriving DecidableEq, Repr

/-- The operand area of a core in the matrix unit (R290). -/
structure OpArea where
  /-- A: M rows of 32 bytes, fetched once per MMA -/
  rows : Option (List (List (BitVec 8))) := none
  /-- sparsity bitmap bits, all ones when dense -/
  bitmap : Nat := 0
  /-- B slices of the next turns, at most 2, each K rows of bytes; for an MSCA the column scales of a turn, then its rows
  of prior values -/
  slices : List (List (List (BitVec 8))) := []
  /-- steps at which its B areas that are free became free, oldest first -/
  asked : List Nat := []
  deriving DecidableEq, Repr

/-- A word, or the answer of a PCIe read, that an engine has read and not used yet: 1 the matrix unit or 2 the copy
engine; key, bytes, value, and whether it failed with POISON (R291, R380). -/
structure EngWord where
  unit : Nat
  key : Nat
  n : Nat
  value : Nat
  bad : Bool := false
  deriving DecidableEq, Repr

/-- A place in memory: L1 of a cluster by area offset, or GLOBAL of an ASID by address. -/
inductive Spot where
  | l1 (cluster area off : Nat) (remote : Bool)
  | mem (va policy : Nat)
  deriving DecidableEq, Repr

/-- A write that an engine has handed to its banks and that is not performed yet (R290, R295): the unit, the context,
the place, the home of a GLOBAL one, and the bytes, which lie in one word. -/
structure EngWrite where
  unit : Nat
  ctx : Nat
  spot : Spot
  home : Nat := 0
  bytes : List (BitVec 8)
  deriving DecidableEq, Repr

/-- One core. -/
structure Core where
  id : Nat
  /-- the context that issued most recently, 0-3 (R314) -/
  last : Nat := 3
  sbuf : List SBEntry := []
  mq : List Cmd := []
  cq : List Cmd := []
  opArea : OpArea := {}
  /-- what its engines have read ahead, and their writes under way, oldest first (R290, R291) -/
  got : List EngWord := []
  out : List EngWrite := []
  /-- CYC at which the divider is free again (R88) -/
  divUntil : Nat := 0
  /-- hardware deque, oldest first (R318) -/
  deque : List DequeEntry := []
  /-- L1 deque ring, oldest first -/
  dequeRing : List DequeEntry := []
  /-- arrival tiers, oldest first (R319): hardware, ring (destinations of the slots in L1), overflow -/
  arr : List Arrival := []
  arrRing : List Arrival := []
  /-- the overflow list: the 64 KiB in which it lies has no address in the spec (log entry 39: DESIGN CHOICE, unsafe) -/
  arrOver : List Arrival := []
  arrc : Nat := 0
  arsp : Nat := 0
  arov : Nat := 0
  dqsp : Nat := 0
  /-- arbiter weight (R288) -/
  weight : Nat := 1
  gated : Bool := false
  deriving DecidableEq, Repr

/-- An operation parked at a bank (R253). -/
inductive ParkOp where
  | lde (d : BitVec 5) | ldc (d : BitVec 5) | stf (v : Word64)
  /-- destination, expected value, and the CYC value at which the timeout ends it -/
  | monw (d : BitVec 5) (e : Word64) (deadline : Option Nat)
  /-- a channel member: its sub code, register, handle, format and count or index (R164) -/
  | chan (sub : Nat) (d : BitVec 5) (c f : BitVec 4) (n : BitVec 9)
  /-- KWAIT: destination and old phase -/
  | kwait (d : BitVec 5) (phase : Bool)
  | join
  /-- CPYCH of the core waiting for free slots -/
  | cpych (core : Nat) (n : Nat)
  deriving DecidableEq, Repr

/-- A parked operation: who, on which word, what. -/
structure Parked where
  ctx : Nat
  key : Nat
  op : ParkOp
  /-- the object pointer of the access, the fault value of a POISON -/
  ptr : Word64 := 0
  deriving DecidableEq, Repr

/-- One tile. -/
structure Tile where
  id : Nat
  /-- matrix unit: the core favoured and its consecutive turns (R288) -/
  p : Nat := 0
  run : Nat := 0
  /-- core whose command holds the result buffer (R293) -/
  holder : Option Nat := none
  slots : List Slot := []
  /-- shadow copies of the commands in progress, by their contexts (R293) -/
  shadow : List (Nat × Slot) := []
  /-- overflow waiter table, oldest first (R253) -/
  table : List Parked := []
  /-- refused operations with their sequence numbers -/
  refused : List (Nat × Parked) := []
  nextSeq : Nat := 0
  /-- fetch port's rotation (R315) -/
  fetchPtr : Nat := 0
  fetchReqs : List (Nat × Nat × Bool) := []
  deriving DecidableEq, Repr

/-- The tag of a line of a cluster cache (R267); its data lie in L1 (lineKey).  mask = 0 is state C. -/
structure Line where
  asid : Nat
  /-- virtual address of the line, a multiple of 128 -/
  va : Nat
  /-- line position: way x sets + set (R257) -/
  pos : Nat
  /-- home of the line, from the translation that allocated it (homeKey) -/
  home : Nat
  mask : BitVec 128
  /-- are the unmasked bytes present? -/
  present : Bool
  v : BitVec 4
  e : BitVec 16
  /-- last use, for the least recently used choice -/
  used : Nat
  deriving DecidableEq, Repr

/-- A barrier unit of a cluster (R192). -/
structure BarUnit where
  unit : Nat
  /-- launch that owns it, with the barrier number it stands for -/
  launch : Nat
  number : Nat
  count : Nat
  arrived : Nat := 0
  phase : Bool := false
  /-- arrival count and phase recorded at the last cut (R313) -/
  cutArrived : Nat := 0
  cutPhase : Bool := false
  deriving DecidableEq, Repr

/-- A translation block (R339, R340): module, entry PC, native revision of the die, words, last entered. -/
structure Block where
  module : Nat
  entry : Nat
  rev : Nat := 0
  words : Nat
  used : Nat
  deriving DecidableEq, Repr

/-- A conversion of cache frames (R259): the frame count afterwards and its stage. -/
structure Conv where
  newFrames : Nat
  stage : Nat
  deriving DecidableEq, Repr

/-- One cluster. -/
structure Cluster where
  id : Nat
  /-- version counter V and epoch counter E (R268, R269) -/
  v : BitVec 4 := 0
  e : BitVec 16 := 0
  lines : List Line := []
  /-- cache size in frames (R257) -/
  frames : Nat := 0
  /-- the cache's frames in the order in which they joined it (R257) -/
  cacheFrames : List Nat := []
  /-- bumps since the start of the last completed sweep pass; of the running pass (R275) -/
  age : Nat := 0
  sweep : Option Nat := none
  conv : Option Conv := none
  /-- page map by frame (R246) -/
  pageMap : List (Nat × BitVec 64) := []
  bars : List BarUnit := []
  blocks : List Block := []
  /-- translation misses in arrival order: module, PC, context (R342) -/
  misses : List (Nat × Nat × Nat) := []
  /-- fills requested and not yet arrived: ASID, line address, version and allocating frames at the request, policy
  (R259, R268) -/
  fills : List (Nat × Nat × BitVec 4 × Nat × Nat) := []
  /-- floor of the contexts that the state does not list -/
  floor : BitVec 4 := 0
  /-- modules lowered here (R338) -/
  lowered : List Nat := []
  /-- the block that the lowering engine is in: module and entry (R345, R349) -/
  lowering : Option (Nat × Nat) := none
  tlb : List TlbEntry := []
  /-- out of service at next boot; out of service now (R370) -/
  outNext : Bool := false
  out : Bool := false
  deriving DecidableEq, Repr

/-- What occupies a reserved cycle of a bank (R248). -/
inductive Hold where
  /-- the odd half of a pair access or CAS2 (R251) -/
  | busy
  /-- a continuation word of an STB: its context and its value (R250) -/
  | store (ctx : Nat) (v : Word64)
  /-- a continuation word of an LDB: the contexts that take it, with their registers (R250, R262) -/
  | word (takers : List (Nat × BitVec 5))
  deriving DecidableEq, Repr

/-- A reserved cycle: the CYC value of its cycle, the word, and what occupies it. -/
structure Reserved where
  due : Nat
  key : Nat
  hold : Hold
  deriving DecidableEq, Repr

/-- One bank (R248-R253). -/
structure Bank where
  id : Nat
  ptr : Nat := 0
  /-- port-8 source pointer (R241) -/
  src : Nat := 0
  waiters : List Parked := []
  /-- words that changed and whose retry pass has not run (R254) -/
  retry : List Nat := []
  /-- an entry that came from the overflow table and is retried once (R253) -/
  once : List Parked := []
  /-- reserved cycles to come, earliest first -/
  reserved : List Reserved := []
  /-- requests presented and not served yet: when they came, port, number and kind (R241, R248, R249) -/
  pending : List (Nat × Nat × Nat × Nat) := []
  /-- rotation of core, matrix unit and copy engine at a port: who comes first (R291) -/
  turns : List (Nat × Nat) := []
  /-- last values served, by port -/
  served : List (Nat × Word64) := []
  /-- spare rows left (R370) -/
  spares : Nat := 4
  deriving DecidableEq, Repr

/-- A last-releaser record (R270). -/
structure Rec where
  line : Nat
  slice : Nat
  set : Nat
  valid : Bool
  dr : Bool
  agent : Nat
  rel : BitVec 16
  inc : BitVec 8
  used : Nat
  /-- releasers of the line that the record's one has replaced, with their numbers, and whether each has been drained since
  (log entry 88) -/
  owed : List (Nat × BitVec 16 × Bool) := []
  deriving DecidableEq, Repr

/-- What a home access does (R141, R155, R157, R162, R197). -/
inductive HomeOp where
  | load (d : BitVec 5) (fmt : Nat)
  | store (data : Nat)
  | rmw (op : Nat) (v : Nat) (d : BitVec 5)
  | cas (e v : Nat) (d : BitVec 5)
  | cas2 (e v : Nat) (d : BitVec 5)
  | monw (d : BitVec 5) (e : Word64) (deadline : Option Nat)
  | join
  /-- the zero-length read of FENCE.SYS (R382) -/
  | none
  /-- the increment of SPAWN or SPAWNR (R195): its registers and the rank of SPAWNR -/
  | spawn (d a b : BitVec 5) (rank : Option Nat)
  /-- the read of a launch record by LAUNCH (R199): the status register and the queue -/
  | launch (d : BitVec 5) (queue : Nat)
  /-- the decrement of EXIT (R197) -/
  | exit
  /-- a read of an engine over PCIe, for the unit of its core: 1 matrix unit, 2 copy engine (R380) -/
  | engine (unit : Nat)
  deriving DecidableEq, Repr

/-- A synchronisation access posted to its home. -/
structure HomeReq where
  ctx : Nat
  ptr : Word64
  asid : Nat
  va : Nat
  size : Nat
  op : HomeOp
  acq : Bool
  rel : Bool
  /-- MONW parked at the home until a write (R163) -/
  watching : Bool := false
  /-- parked at the home, and to be performed again (R163) -/
  again : Bool := false
  /-- home address of the access: see homeKey -/
  pa : Nat := 0
  /-- home slice, die x 64 + slice, or 256 for the host agent, and its record set (R264, R277) -/
  slice : Nat := 0
  set : Nat := 0
  /-- the zero-length read ahead of a release is outstanding (R382) -/
  zlr : Bool := false
  /-- AFL bits that a STREL sets as it completes -/
  flags : Nat := 0
  /-- it has been presented at its port and not yet performed (R274) -/
  shown : Bool := false
  /-- its place in the arrival order at a busy line, from 1; 0 when it found the line free (R273) -/
  turn : Nat := 0
  deriving DecidableEq, Repr

/-- A line held busy by a drain (R273): the agent, the number, the acquire that began it. -/
structure Busy where
  line : Nat
  agent : Nat
  rel : BitVec 16
  ctx : Nat
  /-- true once the agent has drained -/
  drained : Bool := false
  /-- the record is to be discarded when the drain is done (R277) -/
  evict : Bool := false
  /-- a recall of the line from the agent, not a drain (R287) -/
  recalling : Bool := false
  /-- the drain of an earlier releaser of the line (log entry 88) -/
  owed : Bool := false
  deriving DecidableEq, Repr

/-- States of a line at the host agent (R285). -/
inductive HState where
  | i | s | e | m | o
  deriving DecidableEq, Repr

/-- A host line at the host agent (R285). -/
structure HostLine where
  line : Nat
  st : HState
  presence : BitVec 16
  deriving DecidableEq, Repr

/-- A timed access waiting for its calendar slot (R283). -/
structure CalReq where
  cluster : Nat
  port : Nat
  pch : Nat
  /-- tick at which it reached the calendar -/
  at_ : Nat
  /-- the copy engine's core, and the access: home key and length, and where its bytes go -/
  core : Nat
  key : Nat
  n : Nat
  dst : Spot
  /-- rank of the context whose command it is of (R331) -/
  rank : Nat := 0
  /-- its address, in the command's ASID -/
  va : Nat := 0
  asid : Nat := 0
  /-- the tick at which its data leaves the home, once a slot has taken it, and the data -/
  due : Option Nat := none
  data : List (BitVec 8) := []
  poisoned : Bool := false
  /-- its bytes have been handed to the destination -/
  used : Bool := false
  deriving DecidableEq, Repr

/-- An owned calendar slot (R282, R331): pseudo-channel (die x 128 + j), slot, owner byte, launch. -/
structure CalSlot where
  pch : Nat
  slot : Nat
  owner : BitVec 8
  launch : Nat
  deriving DecidableEq, Repr

/-- Homes, atomic units, host agent, HBM calendars. -/
structure Homes where
  recs : List Rec := []
  busy : List Busy := []
  reqs : List HomeReq := []
  /-- rotating pointers of the atomic units, by slice number die x 64 + slice (R274) -/
  ptrs : List (Nat × Nat) := []
  /-- incarnation of each agent (R263) -/
  incs : List (Nat × BitVec 8) := []
  dead : List Nat := []
  /-- answers awaited, one entry for each entry of `busy` and in its order: agent, and the moment since which no answer
  has come (R278) -/
  awaiting : List (Nat × Nat) := []
  /-- watched lines in the order of their first parked MONW (R163) -/
  watches : List Nat := []
  hostLines : List HostLine := []
  /-- lines that are recalled for a snoop of the host, which has not been answered (R286, R287) -/
  snooped : List Nat := []
  /-- lines surrendered to a host write (R286) -/
  surrendered : List Nat := []
  /-- calendar entries that are owned -/
  cal : List CalSlot := []
  calReqs : List CalReq := []
  /-- last slot used, by pseudo-channel and copy port (pseudo-channel x 128 + cluster x 8 + port), as the number of 4-tick slots since
  time 0 -/
  calUsed : List (Nat × Nat) := []
  /-- watched lines written since their parked MONWs last read them (R163) -/
  changed : List Nat := []
  /-- poisoned lines (R369) -/
  poison : List Nat := []
  /-- what self-tests retired at L2 slices, HBM and links, by source, newest first (R370) -/
  retired : List (Nat × Nat) := []
  deriving DecidableEq, Repr

/-- An accepted launch record (R302, R303). -/
structure QEntry where
  words : List Word64
  seq : Nat
  /-- issuing launch of a device-side LAUNCH, held until its step commits (R199, R366) -/
  heldBy : Option Nat := none
  /-- dependency entries: satisfied (R305) -/
  deps : List Bool := []
  failed : Bool := false
  /-- hand-off of a device-side LAUNCH (R219) -/
  handoff : List (Nat × BitVec 16) := []
  deriving DecidableEq, Repr

/-- A launch queue (R302). -/
structure Queue where
  id : Nat
  window : List (Nat × List Word64) := []
  store : List QEntry := []
  nextSeq : Nat := 0
  dberr : Bool := false
  cursor : Nat := 0
  busy : Bool := false
  /-- doorbells held while busy or during a brown-out, and QCTL writes held during one: 64 a teardown, 65 a
  reset; and LAUNCHes held while busy -/
  heldDb : List Nat := []
  heldRec : List QEntry := []
  /-- the moment at which it became busy (R330) -/
  since : Nat := 0
  isReset : Bool := false
  deriving DecidableEq, Repr

/-- An actor record (R80). -/
structure Actor where
  entry : Nat
  count : Nat
  stack : Nat
  splim : Nat
  cls : Nat
  steal : Nat
  ring : Nat
  mweight : Nat
  accslots : Nat
  cgroup : Nat
  deriving DecidableEq, Repr

/-- A channel record (R81) with the depth that graph analysis gave it (R309). -/
structure Chan where
  prod : Nat
  cons : Nat
  pport : Nat
  cport : Nat
  fmt : Nat
  size : Nat
  prate : Nat
  crate : Nat
  crel : Bool
  imm : Bool
  eng : Bool
  tokens : Nat
  depth : Nat := 1
  deriving DecidableEq, Repr

/-- A loaded module (R77-R84). -/
structure Module where
  id : Nat
  /-- the module's one ASID (R374) -/
  asid : Nat := 0
  rev : Nat := 3
  afen : Nat := 0
  tmr : Nat := 0
  tvec : Nat := 0
  /-- physical address and size of the code section, and its virtual address, the base of handle 2 -/
  codeAt : Nat := 0
  codeVa : Nat := 0
  codeSize : Nat := 0
  actors : List Actor := []
  chans : List Chan := []
  handles : List HandleEntry := []
  resident : List (Nat × Nat × Nat) := []
  ckpt : List (Nat × Nat × Nat) := []
  barriers : List Nat := []
  /-- step actor and firings (GRAPH), none without a graph -/
  graph : Option (Nat × Nat) := none
  /-- repetition count of each actor (R309) -/
  q : List Nat := []
  /-- initial contents of LOCAL objects: handle, bytes -/
  data : List (Nat × List (BitVec 8)) := []
  /-- SHA-384 of the container (R396) -/
  digest : Nat := 0
  deriving DecidableEq, Repr

/-- A rank-table entry (R320). -/
structure RankEntry where
  valid : Bool := false
  transit : Bool := false
  ctx : Nat := 0
  deriving DecidableEq, Repr

/-- An undo-log entry (R364). -/
structure Undo where
  isLocal : Bool
  /-- the cluster that wrote -/
  cluster : Nat
  /-- line virtual address (GLOBAL) or area offset (LOCAL), a multiple of 128 -/
  line : Nat
  /-- ASID (GLOBAL) or area number (LOCAL) -/
  tag : Nat
  /-- LOCAL: full/empty bits of words 0-15 -/
  fe : Nat
  old : BitVec 1024
  /-- error source of an uncorrectable error that the entry has met in HBM (R368) -/
  bad : Option Nat := none
  deriving DecidableEq, Repr

/-- An IO store (R145). -/
structure IoStore where
  ctx : Nat
  addr : Nat
  size : Nat
  data : Nat
  deriving DecidableEq, Repr

/-- A launch in progress (R303-R313, R363-R367). -/
structure Launch where
  id : Nat
  queue : Nat := 0
  seq : Nat := 0
  words : List Word64 := []
  module : Nat := 0
  asid : Nat := 0
  prio : Nat := 0
  /-- 0 dependencies, 1 residency, 2 placed, 3 running, 4 ended -/
  phase : Nat := 3
  /-- what a launch in phase 1 will take (R307): a context for each rank; partitions by context: base and slots; by
  cluster the homes of its pages -/
  place : List Nat := []
  parts : List (Nat × Nat × Nat) := []
  kept : List (Nat × List (Option Nat)) := []
  /-- hand-offs of the device-side LAUNCH that began it (R219) -/
  handoff : List (Nat × BitVec 16) := []
  /-- the step at which it was dispatched (R306) -/
  since : Nat := 0
  stage : Nat := 0
  step : Nat := 0
  done : Nat := 0
  ranks : List RankEntry := []
  undo : List Undo := []
  nonRollback : Bool := false
  held : List IoStore := []
  poisons : Nat := 0
  /-- leased ranges: handle, offset, length (R307) -/
  leased : List (Nat × Nat × Nat) := []
  /-- the step knot has flipped: the step has ended (R313) -/
  stepDone : Bool := false
  /-- cluster, area and area offset of the step knot -/
  stepKnot : Option (Nat × Nat × Nat) := none
  /-- LOCAL area number -/
  area : Nat := 0
  /-- status, cause and rank of the completion word to write -/
  result : Option (Nat × Nat × Nat) := none
  /-- channels the leaf carved: cluster, area offset of the QCW, and base of the handle 1 through which
  word 1 was written (R333) -/
  carved : List (Nat × Nat × Nat) := []
  /-- heads of the commit-release channels at the last cut, by index in `carved` (R366, R394) -/
  committed : List (Nat × Nat) := []
  deriving DecidableEq, Repr

/-- What is in flight towards a context, a unit or a bank. -/
inductive Flight where
  /-- a traveller of SPAWNR or MIGR to a rank, from a sender -/
  | trav (from_ : Nat) (a : Arrival)
  /-- WAKE bits to a rank of a launch -/
  | wake (from_ launch rank : Nat) (bits : BitVec 16) (handoff : List (Nat × BitVec 16))
  /-- an arrival at a barrier unit of a cluster; the sender waits for the phase or not -/
  | arrival (cluster unit : Nat) (ctx : Nat) (waits : Bool)
  /-- a counted completion on its way to the knot's bank (R300): the core and its unit, the area and launch of the issuing
  context, the area offset of the knot, the count -/
  | count (core unit area launch knot v : Nat)
  deriving DecidableEq, Repr

/-- A completion word that is not written yet (R304): its page has no valid mapping. -/
structure CwWrite where
  queue : Nat
  asid : Nat
  addr : Nat
  word : Word64
  /-- tag of the residency request; none while the tag table is full -/
  tag : Option Nat
  deriving DecidableEq, Repr

/-- The dispatcher and the leaves' launch state. -/
structure Disp where
  queues : List Queue := []
  modules : List Module := []
  launches : List Launch := []
  lastQ : Nat := 63
  flight : List Flight := []
  /-- contexts that are SAVED: their resources may serve other launches (R358-R360) -/
  savedCtx : List Ctx := []
  /-- resources kept for a waiting head: context and the queue of the head (R306) -/
  reserved : List (Nat × Nat) := []
  /-- key slots of firmware and whether signature checking is enabled (R83) -/
  keys : List (Nat × Nat) := []
  checkSigs : Bool := false
  /-- load-time lowering that is still to be done: cluster and module (R342) -/
  toLower : List (Nat × Nat) := []
  /-- status of the last module load (R84, R309) -/
  loadStatus : Nat := 0
  /-- completion words waiting for their page (R304) -/
  cwWaiting : List CwWrite := []
  deriving DecidableEq, Repr

/-- One compute die (R398-R401). -/
structure Die where
  code : Nat := 12
  /-- completed cycles up to `base`, and the moment `base` -/
  cyc : Nat := 0
  base : Nat := 0
  /-- relock in progress: new code, T in ticks -/
  relock : Option (Nat × Nat) := none
  /-- a supply ramp in progress: the code it leads to, before a rise or after a fall -/
  ramp : Option Nat := none
  fsrt : Nat := 0
  fsrc : Nat := 0
  fsrf : Nat := 0
  /-- tick of the last frequency step's start (R401) -/
  lastStep : Option Nat := none
  fix : Bool := false
  fixCode : Nat := 12
  /-- the code that the governor asks for (R404); a die that is no longer fixed stays at the code it has -/
  target : Nat := 12
  /-- the code that the strand supply is set for -/
  supply : Nat := 12
  /-- native revision, recorded at boot; 0 before that (R351; log entry 10: DESIGN CHOICE, unsafe) -/
  nativeRev : Nat := 0
  deriving DecidableEq, Repr

/-- A strand (R322-R327). -/
structure Strand where
  id : Nat
  throttled : Bool := false
  /-- CYC when the half clock began (R326) -/
  since : Nat := 0
  /-- largest deviation of the last completed window and its tile (R323) -/
  strimb : Nat := 0
  strimbTile : Nat := 0
  /-- number of the last completed window of 1,024 ticks (R323) -/
  window : Nat := 0
  balc : Nat := 0
  thrc : Nat := 0
  deriving DecidableEq, Repr

/-- What a checkpoint set holds (R408). -/
structure Ckpt where
  /-- launch queues: records, serials, cursors -/
  queues : List Queue
  launches : List Launch
  /-- bound contexts at their restart points: on their cores, and SAVED -/
  ctxs : List Ctx
  saved : List Ctx
  /-- barrier units by cluster; page-map entries of the launches by cluster -/
  units : List (Nat × BarUnit)
  pages : List (Nat × BitVec 64)
  cal : List CalSlot
  /-- channels and LOCAL `.ckpt` ranges: cluster, area, offset, bytes -/
  locals : List (Nat × Nat × Nat × List (BitVec 8))
  /-- GLOBAL `.ckpt` ranges: ASID, address, bytes -/
  globals : List (Nat × Nat × List (BitVec 8))
  /-- the marker: B, the tick at which the brown-out began, the set's size and its digest -/
  began : Nat
  size : Nat
  digest : Nat
  /-- number of the free value that is the set's image (log entry 117) -/
  image : Nat
  deriving DecidableEq, Repr

/-- Clocks, power and boot. -/
structure Plat where
  /-- the part: GL-4012 (R6), else GL-4016 (R2) -/
  gl4012 : Bool := false
  /-- reference time in units of 1/111,384 tick (R397) -/
  moment : Nat := 0
  rtmSet : Bool := false
  slew : Int := 0
  dies : Vector Die 4 := Vector.replicate 4 {}
  pcap : Nat := 1600
  /-- boot stage: 1-9, 10 running, 11 recovery (R403) -/
  stage : Nat := 1
  ckpt : Bool := false
  brown : Bool := false
  resumed : Bool := false
  traffic : Bool := false
  devready : Bool := false
  /-- brown-out sequence running since the tick (R407) -/
  brownAt : Option Nat := none
  pin : Bool := false
  /-- the sequence that runs has written its set and marker (R407) -/
  written : Bool := false
  strands : List Strand := []
  strandGroups : Nat := 0
  /-- tick at which the last group of strands was powered (R327) -/
  groupAt : Option Nat := none
  /-- tick at which BROWNOUT_N was last deasserted (R410) -/
  calmAt : Option Nat := none
  /-- the supply has failed and power is not good again (R408) -/
  off : Bool := false
  /-- NOR slot of the first-stage image that runs: 0 A, 1 B (R406) -/
  first : Option Nat := none
  fuses : BitVec 64 := 0
  /-- the checkpoint set with a valid marker on NVMe (R408, R410) -/
  sealed : Option Ckpt := none
  deriving DecidableEq, Repr

/-- An error-log record (R372). -/
structure ErrRec where
  source : Nat
  uncorrected : Bool
  lasting : Bool := false
  action : Nat := 0
  done : Bool := false
  count : Nat
  time : Nat
  addr : Nat
  deriving DecidableEq, Repr

/-- A match-table entry (R391). -/
structure MatchEntry where
  index : Nat
  w0 : Word64
  mask : Word64
  w2 : Word64
  tgt : Word64
  deriving DecidableEq, Repr

/-- A report waiting for room in the request ring (R388): four words. -/
abbrev Report := List Word64

/-- What holds an entry of the tag table (R389). -/
structure TagEntry where
  tag : Nat
  /-- 1 held fault, 2 residency request, 3 PRI -/
  kind : Nat
  /-- the context (kinds 1 and 3), the launch (kind 2, source 0) or the queue -/
  who : Nat
  /-- kind 2: 0 residency stage, 1 dependency word, 2 completion word -/
  source : Nat := 0
  /-- source 1: sequence number of the record and index of the entry; kind 1: the launch -/
  seq : Nat := 0
  entry : Nat := 0
  /-- the page asked for, and whether a reply of done has come -/
  va : Nat := 0
  answered : Bool := false
  deriving DecidableEq, Repr

/-- A slot that the packet engine has taken of a launch that has ended with its last cut (R313, R394): launch and channel, the
logical port, the earliest moment, whether its length is legal, and the frame. -/
structure TxSlot where
  launch : Nat
  chan : Nat
  port : Nat
  time : Nat
  ok : Bool
  frame : List (BitVec 8)
  deriving DecidableEq, Repr

/-- The host interface. -/
structure HostIf where
  sdva : Word64 := 0
  /-- SDVA as the shootdown that runs found it -/
  sdrun : Word64 := 0
  sdctl : Word64 := 0
  bfctl : Word64 := 0
  frbase : Word64 := 0
  frsize : Nat := 0
  frhead : BitVec 32 := 0
  frtail : BitVec 32 := 0
  drcnt : BitVec 32 := 0
  /-- the tag of the last reply written (R376) -/
  frrply : BitVec 8 := 0
  /-- has the host enabled ATS (R385)? -/
  ats : Bool := false
  /-- MSI-X vectors that are masked and pending (R390) -/
  pba : List Nat := []
  reports : List Report := []
  tags : List TagEntry := []
  /-- pages in host bias (R377) -/
  hostBias : List Nat := []
  /-- MSI-X vectors fired, newest first (R390) -/
  fired : List Nat := []
  /-- error counters: source, corrected, uncorrected (R371) -/
  errs : List (Nat × BitVec 32 × BitVec 32) := []
  elog : List ErrRec := []
  ovf : Bool := false
  /-- self-tests running: source, log index if any, counted as uncorrected (R370) -/
  tests : List (Nat × Option Nat) := []
  /-- fault hold in ms (R355), and when a held launch's hold ends: launch, context, tick -/
  faultHold : Nat := 0
  holds : List (Nat × Nat × Nat) := []
  matchTable : List MatchEntry := []
  /-- per-port counters: lport, word, count (R376) -/
  ports : List (Nat × Nat × Nat) := []
  /-- channels that have transmitted, most recent first: logical port, launch, channel (R394) -/
  txTurns : List (Nat × Nat × Nat) := []
  /-- slots taken of launches that have ended, oldest first -/
  txLeft : List TxSlot := []
  /-- frames sent, newest first: lport, bytes -/
  sent : List (Nat × List (BitVec 8)) := []
  /-- IO stores sent, newest first -/
  ioSent : List IoStore := []
  /-- PCIe requests outstanding: context, tag of the request, data -/
  pcie : List (Nat × HomeReq) := []
  /-- posted writes sent, newest first: port, address, size, data -/
  posted : List (Nat × Nat × Nat × Nat) := []
  /-- CXL.mem reads answered, newest first: address, size, value (R377) -/
  memReads : List (Nat × Nat × Nat) := []
  /-- SPDM responses, newest first -/
  spdm : List (List (BitVec 8)) := []
  /-- host-visible scratch registers written by the host (MSI-X table and the like) -/
  regs : List (Nat × Word64) := []
  /-- root of each ASID's page table (R384) and the die TLBs (R385) -/
  roots : List (Nat × Nat) := []
  dieTlb : List (Nat × TlbEntry) := []
  deriving DecidableEq, Repr

/-- An evicted LOCAL page (R360): its bytes by offset and the offsets of its empty words. -/
structure Backed where
  cluster : Nat
  area : Nat
  page : Nat
  /-- its page-map entry, which keeps its mode and home (R246) -/
  entry : BitVec 64
  bytes : Memory
  empty : List Nat
  /-- offsets of its poisoned words -/
  poison : List Nat
  deriving DecidableEq, Repr

/-- Memories. -/
structure Mem where
  /-- L1 bytes by cluster x 2^28 + frame x 65,536 + byte (R239, R246) -/
  l1 : Memory := []
  /-- L1 words that are empty, by key of their first byte, rising (R153) -/
  empty : List Nat := []
  /-- HBM home values by physical address (R266) -/
  hbm : Memory := []
  /-- host memory by host address -/
  host : Memory := []
  /-- the launches' backing store of evicted pages (R360) -/
  backing : List Backed := []
  /-- poisoned L1 words (R247) -/
  poison : List Nat := []
  deriving DecidableEq, Repr

/-- A message to the leaf: a fault of a context (R354). -/
structure LeafMsg where
  ctx : Nat
  cause : Nat
  pc : Word64
  val : Word64
  deriving DecidableEq, Repr

/-- Whose turn it is next (log entry 2: DESIGN CHOICE, unsafe). -/
inductive Turn where
  /-- the context issues its next instruction -/
  | ctx (id : Nat)
  /-- the same; a plain load may still be performed later -/
  | late (id : Nat)
  /-- the context's posted load with the index is performed -/
  | post (id i : Nat)
  /-- an access at a line's home meets an error of a source, uncorrectable or not (R369) -/
  | error (line source : Nat) (bad : Bool)
  /-- an entry of a launch's undo log meets an uncorrectable error of a source (R368) -/
  | badLog (launch index source : Nat)
  /-- the device takes the step -/
  | dev (i : Instr)
  deriving DecidableEq, Repr

/-- The whole machine. -/
structure State where
  /-- the issuing context, and every other one that differs from reset -/
  cur : Ctx := {}
  others : List Ctx := []
  cores : List Core := []
  tiles : List Tile := []
  clusters : List Cluster := []
  banks : List Bank := []
  mem : Mem := {}
  homes : Homes := {}
  disp : Disp := {}
  plat : Plat := {}
  host : HostIf := {}
  /-- the turns that come next (log entry 2: DESIGN CHOICE, unsafe) -/
  agenda : List Turn := []
  /-- faults the leaf has received and not yet acted on -/
  inbox : List LeafMsg := []
  /-- steps taken (log entry 3: DESIGN CHOICE, safe) and free values used (log entries 5, 6, 11: DESIGN CHOICE, safe) -/
  steps : Nat := 0
  fresh : Nat := 0
  deriving DecidableEq, Repr

/-- The machine right after power-good: boot stage 1, no module, no launch, memory zero.  Registers
without a reset value in the spec have the values log entry 10 names (DESIGN CHOICE, unsafe).  The part is the GL-4016 (log
entry 114: DESIGN CHOICE, unsafe). -/
def State.reset : State := {}

end Sys2Proof.Machine
end

