-- ==== Sys2Proof/Machine/Flags.lean ====
section
/-!
DEFINITION. The arithmetic primitives and every flag computation: the pseudocode primitives of R39,
saturation and rounding (R40), the AFL bits (R23), and floating point (R42-R47).  A computation that
can set flags gives its result and the AFL bits it sets.
-/

namespace Sys2Proof.Machine

/-! ### AFL bits (R23) -/

/-- OV, bit 0. -/
def fOV : Nat := 1
/-- NV, bit 1. -/
def fNV : Nat := 2
/-- DZ, bit 2. -/
def fDZ : Nat := 4
/-- OF, bit 3. -/
def fOF : Nat := 8
/-- UF, bit 4. -/
def fUF : Nat := 16
/-- NX, bit 5. -/
def fNX : Nat := 32
/-- MOV, bit 6. -/
def fMOV : Nat := 64

/-- A flag if the condition holds. -/
def flagIf (b : Bool) (f : Nat) : Nat := if b then f else 0

/-- The OR of some flags. -/
def orFlags : List Nat → Nat
  | [] => 0
  | f :: fs => f ||| orFlags fs

/-! ### Primitives (R39) -/

/-- Sext(x, n). -/
def sext (x n : Nat) : Int :=
  if 2 * (x % 2 ^ n) < 2 ^ n then ((x % 2 ^ n : Nat) : Int) else ((x % 2 ^ n : Nat) : Int) - ((2 ^ n : Nat) : Int)

/-- Wrap(x, n), as an unsigned pattern. -/
def wrapN (x : Int) (n : Nat) : Nat := (x % ((2 ^ n : Nat) : Int)).toNat

/-- Lane(x, w, i). -/
def lane (x w i : Nat) : Nat := x / 2 ^ (w * i) % 2 ^ w

/-- SatI(x, n) with OV if the clamp changes x. -/
def satI (x : Int) (n : Nat) : Int × Nat :=
  if x < -((2 ^ (n - 1) : Nat) : Int) then (-((2 ^ (n - 1) : Nat) : Int), fOV)
  else if ((2 ^ (n - 1) : Nat) : Int) - 1 < x then (((2 ^ (n - 1) : Nat) : Int) - 1, fOV)
  else (x, 0)

/-- SatN(x, n) with OV if the clamp changes x. -/
def satN (x : Int) (n : Nat) : Int × Nat :=
  if x < 0 then (0, fOV)
  else if ((2 ^ n : Nat) : Int) - 1 < x then (((2 ^ n : Nat) : Int) - 1, fOV)
  else (x, 0)

/-- RoundQ(x, s): rounds half toward plus infinity. -/
def roundQ (x : Int) (s : Nat) : Int :=
  if s = 0 then x else (x + ((2 ^ (s - 1) : Nat) : Int)) / ((2 ^ s : Nat) : Int)

/-- The Q15 or Q31 result SatI(RoundQ(x, s), n) of an exact product (R40). -/
def satQ (x : Int) (s n : Nat) : Int × Nat := satI (roundQ x s) n

/-- Assemble lanes of width `w`, lane 0 first (R36). -/
def packLanes (w : Nat) : List Nat → Nat
  | [] => 0
  | x :: xs => x % 2 ^ w + 2 ^ w * packLanes w xs

/-! ### Division (R92) -/

/-- Quotient, remainder and whether the divisor is zero or the quotient overflows, for width `n`. -/
def divide (n : Nat) (u v : Int) : Int × Int × Bool × Bool :=
  if v = 0 then (-1, u, true, false)
  else if u = -((2 ^ (n - 1) : Nat) : Int) ∧ v = -1 then (-((2 ^ (n - 1) : Nat) : Int), 0, false, true)
  else (u.tdiv v, u - u.tdiv v * v, false, false)

/-- The result of a divide of width `n`, sign-extended (R92). -/
def divResult (n : Nat) (x : Int) : Word64 := wrap64 (sext (wrapN x n) n)

/-! ### Floating point (R42-R47) -/

/-- A floating-point value: NaN, infinity, or sign x m x 2^e. -/
inductive FVal where
  | nan (signalling : Bool)
  | inf (neg : Bool)
  | fin (neg : Bool) (m : Nat) (e : Int)
  deriving DecidableEq, Repr

/-- The canonical quiet NaN of F32 (R44). -/
def qnan : Nat := 0x7FC00000

/-- Decode a pattern with 8 exponent bits and `fb` fraction bits (R42, R46). -/
def fdecode (fb x : Nat) : FVal :=
  let neg := x / 2 ^ (8 + fb) % 2 == 1
  let e := x / 2 ^ fb % 256
  let f := x % 2 ^ fb
  if e = 255 then
    if f = 0 then .inf neg else .nan (f / 2 ^ (fb - 1) == 0)
  else if e = 0 then .fin neg f (-126 - (fb : Int))
  else .fin neg (2 ^ fb + f) ((e : Int) - 127 - (fb : Int))

/-- The F32 value of a pattern. -/
def f32 (x : Nat) : FVal := fdecode 23 (x % 2 ^ 32)

/-- The BF16 value of a pattern. -/
def bf16 (x : Nat) : FVal := fdecode 7 (x % 2 ^ 16)

def FVal.isNaN : FVal → Bool
  | .nan _ => true
  | _ => false

def FVal.isSNaN : FVal → Bool
  | .nan s => s
  | _ => false

def FVal.isInf : FVal → Bool
  | .inf _ => true
  | _ => false

def FVal.isZero : FVal → Bool
  | .fin _ 0 _ => true
  | _ => false

def FVal.sign : FVal → Bool
  | .nan _ => false
  | .inf n => n
  | .fin n _ _ => n

/-- The sign bit as an addend of a pattern with `fb` fraction bits. -/
def signBit (fb : Nat) (neg : Bool) : Nat := if neg then 2 ^ (8 + fb) else 0

/-- The pattern of an infinity. -/
def infPat (fb : Nat) (neg : Bool) : Nat := 255 * 2 ^ fb + signBit fb neg

/-- Drop `sh` bits of `m` in a rounding mode; `sticky` says that a nonzero amount below bit 0 was
already dropped.  Gives the rounded integer and whether it is inexact. -/
def roundBits (neg : Bool) (mode m sh : Nat) (sticky : Bool) : Nat × Bool :=
  let q := m / 2 ^ sh
  let rem := m % 2 ^ sh
  let inexact := rem != 0 || sticky
  let twice := 2 * rem
  let up :=
    match mode with
    | 0 => decide (2 ^ sh < twice) || (twice == 2 ^ sh && sh != 0 && (sticky || q % 2 == 1))
    | 1 => false
    | 2 => neg && inexact
    | _ => !neg && inexact
  (if up then q + 1 else q, inexact)

/-- The bit length of a natural number. -/
def bitLen (m : Nat) : Nat := if m = 0 then 0 else Nat.log2 m + 1

/-- RoundF: round m x 2^e (plus a sticky amount below) to the format with `fb` fraction bits (R43),
with OF, UF and NX by R45.  `m` is nonzero; when `sticky` holds it has more than fb + 2 bits. -/
def roundF (fb : Nat) (neg : Bool) (m : Nat) (e : Int) (sticky : Bool) (mode : Nat) : Nat × Nat :=
  let len := bitLen m
  let p := fb + 1
  let q0 : Int := e + len - p
  let qmin : Int := -126 - (fb : Int)
  let q := max q0 qmin
  let sh := q - e
  let (mant, inexact) :=
    if sh ≤ 0 then (m * 2 ^ (-sh).toNat, sticky) else roundBits neg mode m sh.toNat sticky
  let pat := ((q + fb + 126).toNat) * 2 ^ fb + mant
  if 255 * 2 ^ fb ≤ pat then
    let toInf := mode == 0 || (mode == 2 && neg) || (mode == 3 && !neg)
    ((if toInf then 255 * 2 ^ fb else 255 * 2 ^ fb - 1) + signBit fb neg, fOF + fNX)
  else
    let sh0 := q0 - e
    let full := if sh0 ≤ 0 then m * 2 ^ (-sh0).toNat else (roundBits neg mode m sh0.toNat sticky).1
    let tiny := decide (e + len < -126) || (decide (e + len = -126) && decide (full < 2 ^ p))
    (pat + signBit fb neg, flagIf inexact fNX + flagIf (inexact && tiny) fUF)

/-- An exact term: sign, magnitude m x 2^e. -/
structure Term where
  neg : Bool
  m : Nat
  e : Int
  deriving DecidableEq, Repr

/-- The least exponent of some terms. -/
def minExp : List Term → Int → Int
  | [], e => e
  | t :: ts, e => minExp ts (min t.e e)

/-- The sum of some terms in units of 2^e0, where e0 is at most each exponent. -/
def sumAt (e0 : Int) : List Term → Int
  | [] => 0
  | t :: ts =>
    (if t.neg then -((t.m * 2 ^ (t.e - e0).toNat : Nat) : Int) else ((t.m * 2 ^ (t.e - e0).toNat : Nat) : Int)) + sumAt e0 ts

/-- The sum of finite terms, rounded once; an exact zero takes its sign by R43. -/
def roundSum (fb mode : Nat) (ts : List Term) : Nat × Nat :=
  let e0 := minExp ts 0
  let t := sumAt e0 ts
  if t = 0 then
    let neg := if ts.all (·.neg) then true else if ts.all (!·.neg) then false else mode == 2
    (signBit fb neg, 0)
  else roundF fb (decide (t < 0)) t.natAbs e0 false mode

/-- An infinite or NaN result, or the finite terms of it: what a sum of values does (R43-R45).  NV is
set by a signalling NaN or by infinities of both signs. -/
def fsum (fb mode : Nat) (nv : Bool) (xs : List FVal) : Nat × Nat :=
  let qn := qnan / 2 ^ (23 - fb)
  if nv || xs.any (·.isSNaN) then (qn, fNV)
  else if xs.any (fun x => x == .inf true) && xs.any (fun x => x == .inf false) then
    (qn, if xs.any (·.isNaN) then 0 else fNV)
  else if xs.any (·.isNaN) then (qn, 0)
  else if xs.any (fun x => x == .inf true) then (infPat fb true, 0)
  else if xs.any (fun x => x == .inf false) then (infPat fb false, 0)
  else roundSum fb mode (xs.filterMap (fun x => match x with | .fin n m e => some ⟨n, m, e⟩ | _ => none))

/-- Negate a value's sign; a NaN is unchanged. -/
def FVal.negate : FVal → FVal
  | .nan s => .nan s
  | .inf n => .inf (!n)
  | .fin n m e => .fin (!n) m e

/-- The exact product of two values that are not NaN, and whether it is 0 x infinity. -/
def fprod (x y : FVal) : FVal × Bool :=
  match x, y with
  | .nan s, _ => (.nan s, false)
  | _, .nan s => (.nan s, false)
  | .inf a, .inf b => (.inf (a != b), false)
  | .inf a, .fin b m _ => if m = 0 then (.nan false, true) else (.inf (a != b), false)
  | .fin a m _, .inf b => if m = 0 then (.nan false, true) else (.inf (a != b), false)
  | .fin a m e, .fin b n f => (.fin (a != b) (m * n) (e + f), false)

/-- x + y (R127). -/
def fadd (mode x y : Nat) : Nat × Nat := fsum 23 mode false [f32 x, f32 y]

/-- x - y (R127). -/
def fsub (mode x y : Nat) : Nat × Nat := fsum 23 mode false [f32 x, (f32 y).negate]

/-- x * y (R127). -/
def fmul (mode x y : Nat) : Nat × Nat :=
  let a := f32 x
  let b := f32 y
  let (p, bad) := fprod a b
  fsum 23 mode (bad || a.isSNaN || b.isSNaN) [p]

/-- x / y (R127). -/
def fdiv (mode x y : Nat) : Nat × Nat :=
  match f32 x, f32 y with
  | .nan s, b => (qnan, flagIf (s || b.isSNaN) fNV)
  | _, .nan s => (qnan, flagIf s fNV)
  | .inf _, .inf _ => (qnan, fNV)
  | .inf a, .fin b _ _ => (infPat 23 (a != b), 0)
  | .fin a _ _, .inf b => (signBit 23 (a != b), 0)
  | .fin a m e, .fin b n f =>
    if n = 0 then
      if m = 0 then (qnan, fNV) else (infPat 23 (a != b), fDZ)
    else if m = 0 then (signBit 23 (a != b), 0)
    else
      let k : Nat := 40 + bitLen n
      roundF 23 (a != b) (m * 2 ^ k / n) (e - f - (k : Int)) (m * 2 ^ k % n != 0) mode

/-- The integer square root, bit by bit from bit `b` down. -/
def isqrt (n : Nat) : Nat → Nat → Nat
  | 0, r => if (r + 1) * (r + 1) ≤ n then r + 1 else r
  | b + 1, r =>
    isqrt n b (if (r + 2 ^ (b + 1)) * (r + 2 ^ (b + 1)) ≤ n then r + 2 ^ (b + 1) else r)

/-- The square root (R127). -/
def fsqrt (mode x : Nat) : Nat × Nat :=
  match f32 x with
  | .nan s => (qnan, flagIf s fNV)
  | .inf true => (qnan, fNV)
  | .inf false => (infPat 23 false, 0)
  | .fin neg m e =>
    if m = 0 then (signBit 23 neg, 0)
    else if neg then (qnan, fNV)
    else
      let odd : Nat := if e % 2 = 0 then 0 else 1
      let n := m * 2 ^ (60 + odd)
      let r := isqrt n 44 0
      roundF 23 false r ((e - (odd : Int)) / 2 - 30) (r * r != n) mode

/-- FMA family (R132): the product, negated or not, plus the addend, negated or not. -/
def ffma (mode : Nat) (negP negZ : Bool) (x y z : Nat) : Nat × Nat :=
  let a := f32 x
  let b := f32 y
  let c := f32 z
  let (p, bad) := fprod a b
  fsum 23 mode (bad || a.isSNaN || b.isSNaN || c.isSNaN)
    [if negP then p.negate else p, if negZ then c.negate else c]

/-- Compare two values that are not NaN: the sign of x - y. -/
def fcompare (x y : FVal) : Int :=
  match x, y with
  | .inf a, .inf b => if a = b then 0 else if a then -1 else 1
  | .inf a, _ => if a then -1 else 1
  | _, .inf b => if b then 1 else -1
  | .fin a m e, .fin b n f =>
    sumAt (min e f) [⟨a, m, e⟩] - sumAt (min e f) [⟨b, n, f⟩]
  | _, _ => 0

/-- FMIN (`maxi` false) and FMAX (R128). -/
def fminmax (maxi : Bool) (x y : Nat) : Nat × Nat :=
  let a := f32 x
  let b := f32 y
  if a.isSNaN || b.isSNaN then (qnan, fNV)
  else if a.isNaN && b.isNaN then (qnan, 0)
  else if a.isNaN then (y % 2 ^ 32, 0)
  else if b.isNaN then (x % 2 ^ 32, 0)
  else
    let c := fcompare a b
    let less := decide (c < 0) || (c == 0 && a.sign && !b.sign)
    ((if less != maxi then x else y) % 2 ^ 32, 0)

/-- The comparisons of R129: 0 equal, 1 less, 2 less or equal. -/
def fcmp (k x y : Nat) : Nat × Nat :=
  let a := f32 x
  let b := f32 y
  if a.isNaN || b.isNaN then
    (0, flagIf (if k = 0 then a.isSNaN || b.isSNaN else true) fNV)
  else
    let c := fcompare a b
    let t := match k with
      | 0 => c == 0
      | 1 => decide (c < 0)
      | _ => decide (c ≤ 0)
    (if t then 1 else 0, 0)

/-- The class word of FCLASS (R130). -/
def fclass (x : Nat) : Nat :=
  let e := x / 2 ^ 23 % 256
  let f := x % 2 ^ 23
  let kind :=
    if e = 0 then (if f = 0 then 0 else 1)
    else if e = 255 then (if f = 0 then 3 else if f / 2 ^ 22 = 1 then 4 else 5)
    else 2
  kind + 8 * (x / 2 ^ 31 % 2) + 16 * e

/-- Round an exact value to an integer in a mode: the integer and whether it is inexact (R47). -/
def roundToInt (neg : Bool) (m : Nat) (e : Int) (mode : Nat) : Int × Bool :=
  if 0 ≤ e then
    let v := m * 2 ^ e.toNat
    (if neg then -(v : Int) else v, false)
  else
    let (q, inexact) := roundBits neg mode m (-e).toNat false
    (if neg then -(q : Int) else q, inexact)

/-- FRND (R131): round to an integral F32 value. -/
def frnd (mode x : Nat) : Nat × Nat :=
  match f32 x with
  | .nan s => (qnan, flagIf s fNV)
  | .inf n => (infPat 23 n, 0)
  | .fin neg m e =>
    if m = 0 then (signBit 23 neg, 0)
    else
      let (v, inexact) := roundToInt neg m e mode
      if v = 0 then (signBit 23 neg, flagIf inexact fNX)
      else ((roundF 23 neg v.natAbs 0 false 1).1, flagIf inexact fNX)

/-- Conversion of a value, scaled by 2^scale, to an integer of `n` bits (R47).  `sat` chooses the
Saturate column; `uns` an unsigned destination. -/
def toFixed (x : FVal) (scale n : Nat) (uns sat : Bool) (mode : Nat) : Int × Nat :=
  let lo : Int := if uns then 0 else -((2 ^ (n - 1) : Nat) : Int)
  let hi : Int := if uns then ((2 ^ n : Nat) : Int) - 1 else ((2 ^ (n - 1) : Nat) : Int) - 1
  match x with
  | .nan _ => (0, fNV)
  | .inf neg => (if sat then (if neg then lo else hi) else 0, fNV)
  | .fin neg m e =>
    let (v, inexact) := roundToInt neg m (e + scale) mode
    if lo ≤ v ∧ v ≤ hi then (v, flagIf inexact fNX)
    else if sat then (if v < lo then lo else hi, fOV)
    else (wrapN v n, fNV)

/-- Conversion of v x 2^(-scale) to F32 (R47). -/
def ofFixed (v : Int) (scale mode : Nat) : Nat × Nat :=
  if v = 0 then (0, 0) else roundF 23 (decide (v < 0)) v.natAbs (-(scale : Int)) false mode

/-- F32 to BF16 (R46). -/
def toBf16 (mode x : Nat) : Nat × Nat :=
  match f32 x with
  | .nan s => (0x7FC0, flagIf s fNV)
  | .inf n => (infPat 7 n, 0)
  | .fin neg m e => if m = 0 then (signBit 7 neg, 0) else roundF 7 neg m e false mode

/-- BF16 to F32 (R46): exact, a NaN becomes the canonical one. -/
def ofBf16 (x : Nat) : Nat × Nat :=
  match bf16 x with
  | .nan s => (qnan, flagIf s fNV)
  | _ => (x % 2 ^ 16 * 2 ^ 16, 0)

/-- PBFDOT (R133): four BF16 products and an F32 addend, rounded once. -/
def pbfdot (mode a b z : Nat) : Nat × Nat :=
  let xs := (List.range 4).map (fun i => bf16 (lane a 16 i))
  let ys := (List.range 4).map (fun i => bf16 (lane b 16 i))
  let c := f32 z
  let ps := (xs.zip ys).map (fun xy => fprod xy.1 xy.2)
  let terms := c :: ps.map (·.1)
  let both := terms.any (fun x => x == .inf true) && terms.any (fun x => x == .inf false)
  let nv := (c :: xs ++ ys).any (·.isSNaN) || ps.any (·.2) || both
  fsum 23 mode nv terms

/-- Rank of a BF16 lane in PTOP2 (R136): NaN above infinity above the finite magnitudes. -/
def bfRank (x : Nat) : Nat := if (bf16 x).isNaN then 2 ^ 16 else x % 2 ^ 15

/-- The best lane among `js`, the lower index first among equals (R136). -/
def bestLane (rank : Nat → Nat) : List Nat → Nat → Nat
  | [], b => b
  | j :: js, b => bestLane rank js (if rank b < rank j then j else b)

/-- PTOP2 (R136). -/
def ptop2 (a : Nat) : Nat × Nat :=
  let rank := fun i => bfRank (lane a 16 i)
  let j1 := bestLane rank [1, 2, 3] 0
  let rest := (List.range 4).filter (fun i => i != j1)
  let j2 := bestLane rank rest.tail (rest.headD 0)
  let j := min j1 j2
  let k := max j1 j2
  let val := fun i => if (bf16 (lane a 16 i)).isNaN then 0x7FC0 else lane a 16 i
  (val j + 2 ^ 16 * val k + 2 ^ 32 * (2 ^ j + 2 ^ k),
    flagIf ((List.range 4).any (fun i => (bf16 (lane a 16 i)).isSNaN)) fNV)

end Sys2Proof.Machine
end

