-- ==== Sys2Proof/Machine/Ops.lean ====
section
/-!
DEFINITION. Named operations over the state: sparse lists, memory, registers, contexts and units, time
(R397, R398), advancing and transferring control (R17, R18), taking a fault (R353, R354), delivering a
trap and returning from it (R202), translation (R384-R387), and the checks of R28.
-/

namespace Sys2Proof.Machine

open Sys2Proof

/-- What an instruction or a device step answers. -/
abbrev Out := Host.Outcome State Fault Refusal

/-! ### Sparse lists -/

/-- The element with key `k`, or `dflt`. -/
def getBy {α : Type} (key : α → Nat) (k : Nat) (dflt : α) : List α → α
  | [] => dflt
  | x :: xs => if key x = k then x else getBy key k dflt xs

/-- Insert or replace the element with its key; keys stay rising. -/
def putBy {α : Type} (key : α → Nat) (x : α) : List α → List α
  | [] => [x]
  | y :: ys =>
    if key x = key y then x :: ys
    else if key x < key y then x :: y :: ys
    else y :: putBy key x ys

/-- Remove the first element that equals `x`. -/
def dropFirst {α : Type} [DecidableEq α] (x : α) : List α → List α
  | [] => []
  | y :: ys => if x = y then ys else y :: dropFirst x ys

/-- Add an element that is not there. -/
def addOnce {α : Type} [DecidableEq α] (x : α) (xs : List α) : List α := if x ∈ xs then xs else xs ++ [x]

/-- Replace the element at an index. -/
def setAt {α : Type} : List α → Nat → α → List α
  | [], _, _ => []
  | _ :: xs, 0, a => a :: xs
  | x :: xs, n + 1, a => x :: setAt xs n a

/-! ### Memory -/

/-- The byte at an address; an unlisted address reads as zero.
DESIGN CHOICE, unsafe (log entry 4). -/
def Memory.read (a : Nat) : Memory → Byte
  | [] => 0
  | c :: cs => if c.1 = a then c.2 else if a < c.1 then 0 else Memory.read a cs

/-- Write a byte and keep the canonical form. -/
def Memory.write (a : Nat) (b : Byte) : Memory → Memory
  | [] => if b = 0 then [] else [(a, b)]
  | c :: cs =>
    if c.1 = a then (if b = 0 then cs else (a, b) :: cs)
    else if a < c.1 then (if b = 0 then c :: cs else (a, b) :: c :: cs)
    else c :: Memory.write a b cs

/-- Every address of the list is at least `lo`, addresses rise, and no byte is zero. -/
def Memory.wfFrom (lo : Nat) : Memory → Bool
  | [] => true
  | c :: cs => decide (lo ≤ c.1) && (c.2 != 0) && Memory.wfFrom (c.1 + 1) cs

/-- The canonical form: addresses rise and no entry is zero. -/
def Memory.wf (m : Memory) : Bool := Memory.wfFrom 0 m

/-- Read `n` bytes, little-endian. -/
def Memory.readN (m : Memory) (a : Nat) : Nat → Nat
  | 0 => 0
  | n + 1 => (m.read a).toNat + 256 * Memory.readN m (a + 1) n

/-- Write `n` bytes, little-endian. -/
def Memory.writeN (m : Memory) (a : Nat) : Nat → Nat → Memory
  | 0, _ => m
  | n + 1, v => Memory.writeN (m.write a (BitVec.ofNat 8 v)) (a + 1) n (v / 256)

/-- The bytes from an address on. -/
def Memory.bytes (m : Memory) (a : Nat) : Nat → List Byte
  | 0 => []
  | n + 1 => m.read a :: Memory.bytes m (a + 1) n

/-- Write a list of bytes. -/
def Memory.writeBytes (m : Memory) (a : Nat) : List Byte → Memory
  | [] => m
  | b :: bs => Memory.writeBytes (m.write a b) (a + 1) bs

/-- Write the bytes of a 128-byte line that a mask selects. -/
def Memory.merge (m : Memory) (a : Nat) (mask : BitVec 128) (data : BitVec 1024) : Nat → Memory
  | 0 => m
  | n + 1 =>
    let m := Memory.merge m a mask data n
    if mask.getLsbD n then m.write (a + n) (data.extractLsb' (8 * n) 8) else m

/-- A 128-byte line as one number. -/
def Memory.line (m : Memory) (a : Nat) : BitVec 1024 := BitVec.ofNat 1024 (m.readN a 128)

/-- The little-endian value of some bytes. -/
def ofBytes : List Byte → Nat
  | [] => 0
  | b :: bs => b.toNat + 256 * ofBytes bs

/-- The `n` low bytes of a value, little-endian. -/
def toBytes (v : Nat) : Nat → List Byte
  | 0 => []
  | n + 1 => BitVec.ofNat 8 v :: toBytes (v / 256) n

/-! ### Registers of the issuing context (R14) -/

/-- G[r]: g0 reads as zero. -/
def rd (s : State) (r : Reg) : Word64 := if r = 0 then 0 else s.cur.a.g[r.toNat]'r.isLt

/-- Write to the array of general registers; g0 is discarded. -/
def setReg (g : Vector Word64 32) (r : Reg) (v : Word64) : Vector Word64 32 :=
  if r = 0 then g else g.set r.toNat v r.isLt

/-- G[r] := v. -/
def wr (r : Reg) (v : Word64) (s : State) : State :=
  { s with cur := { s.cur with a := { s.cur.a with g := setReg s.cur.a.g r v } } }

/-- Set AFL bits (R23): flags are only ever added. -/
def addFlags (f : Nat) (s : State) : State :=
  { s with cur := { s.cur with a := { s.cur.a with
      sr := { s.cur.a.sr with afl := s.cur.a.sr.afl ||| nat64 f } } } }

/-- Change the state registers of the issuing context. -/
def modSr (f : SRegs → SRegs) (s : State) : State :=
  { s with cur := { s.cur with a := { s.cur.a with sr := f s.cur.a.sr } } }

/-! ### Contexts and units -/

/-- Die, cluster, tile, core of a context, as device-wide numbers (R22). -/
def dieOf (id : Nat) : Nat := id / 16384
def clusterOf (id : Nat) : Nat := id / 4096
def tileOf (id : Nat) : Nat := id / 32
def coreOf (id : Nat) : Nat := id / 4

/-- A cluster by number. -/
def clusterAt (s : State) (k : Nat) : Cluster := getBy Cluster.id k { id := k } s.clusters
def putCluster (c : Cluster) (s : State) : State := { s with clusters := putBy Cluster.id c s.clusters }

/-- A context that the state does not list: as after reset, with the floor that sweeps gave it (R275). -/
def blankCtx (s : State) (id : Nat) : Ctx := { id := id, floor := (clusterAt s (clusterOf id)).floor }

/-- The context with a physical number. -/
def ctxOf (s : State) (id : Nat) : Ctx :=
  if s.cur.id = id then s.cur else getBy Ctx.id id (blankCtx s id) s.others

/-- Store a context back. -/
def putCtx (c : Ctx) (s : State) : State :=
  if s.cur.id = c.id then { s with cur := c } else { s with others := putBy Ctx.id c s.others }

/-- Make a context the issuing one. -/
def switchTo (id : Nat) (s : State) : State :=
  if s.cur.id = id then s
  else
    { s with
      cur := getBy Ctx.id id (blankCtx s id) s.others
      others := putBy Ctx.id s.cur (s.others.filter (fun c => c.id != id)) }

/-- Every context that the state lists. -/
def allCtx (s : State) : List Ctx := s.cur :: s.others

/-- A core by device-wide number. -/
def coreAt (s : State) (k : Nat) : Core := getBy Core.id k { id := k } s.cores
def putCore (c : Core) (s : State) : State := { s with cores := putBy Core.id c s.cores }

/-- A tile by device-wide number. -/
def tileAt (s : State) (k : Nat) : Tile := getBy Tile.id k { id := k } s.tiles
def putTile (t : Tile) (s : State) : State := { s with tiles := putBy Tile.id t s.tiles }

/-- A bank by number: cluster x 4,096 + bank. -/
def bankAt (s : State) (k : Nat) : Bank := getBy Bank.id k { id := k } s.banks
def putBank (b : Bank) (s : State) : State := { s with banks := putBy Bank.id b s.banks }

/-- A launch, a module, a queue by number. -/
def launchAt (s : State) (k : Nat) : Launch := getBy Launch.id k { id := k } s.disp.launches
def putLaunch (l : Launch) (s : State) : State :=
  { s with disp := { s.disp with launches := putBy Launch.id l s.disp.launches } }
def moduleAt (s : State) (k : Nat) : Module := getBy Module.id k { id := k } s.disp.modules
def queueAt (s : State) (k : Nat) : Queue := getBy Queue.id k { id := k } s.disp.queues
def putQueue (q : Queue) (s : State) : State :=
  { s with disp := { s.disp with queues := putBy Queue.id q s.disp.queues } }

/-- Core, cluster, launch and module of the issuing context. -/
def myCore (s : State) : Core := coreAt s (coreOf s.cur.id)
def myCluster (s : State) : Nat := clusterOf s.cur.id
def myLaunch (s : State) : Launch := launchAt s s.cur.bind.launch
def myModule (s : State) : Module := moduleAt s s.cur.bind.module

/-- A free value: it has no definition, and the counter moves on (log entry 11: DESIGN CHOICE, safe). -/
def freeVal (s : State) : Word64 := Config.freeWord s.fresh
def useFree (s : State) : State := { s with fresh := s.fresh + 1 }

/-! ### Time (R397, R398) -/

/-- Units of the moment in one tick. -/
def tickUnits : Nat := 111384

/-- RTM. -/
def rtm (s : State) : Nat := s.plat.moment / tickUnits

/-- Units of the moment in one cycle at a frequency code: k cycles in 10 ticks. -/
def cycleUnits (code : Nat) : Nat := 10 * tickUnits / code

/-- The die with a number. -/
def dieAt (s : State) (k : Nat) : Die := if h : k < 4 then s.plat.dies[k] else {}

/-- Store a die back. -/
def putDie (k : Nat) (d : Die) (s : State) : State :=
  if h : k < 4 then { s with plat := { s.plat with dies := s.plat.dies.set k d h } } else s

/-- CYC of a die at a moment: it holds from tick T of a relock on.
DEDUCED, unsafe (log entry 60). -/
def cycAt (d : Die) (moment : Nat) : Nat :=
  let upto := match d.relock with
    | some r => min moment (r.2 * tickUnits)
    | none => moment
  d.cyc + (upto - d.base) / cycleUnits d.code

/-- Has a die stopped for a relock (R399)? -/
def stopped (s : State) (die : Nat) : Bool := (dieAt s die).relock.isSome

/-- Is the brown-out sequence running (R407)? -/
def braking (s : State) : Bool := s.plat.brownAt.isSome

/-- Are doorbells and QCTL writes held: from the start of the brown-out sequence to its end, which is the marker's (R407), and
while a set waits for stage 8 to restore it?
DEDUCED, unsafe (log entry 63). -/
def holding (s : State) : Bool :=
  (braking s && !s.plat.written) || (s.plat.devready && decide (s.plat.stage ≤ 8) && s.plat.sealed.isSome)

/-- Has the brown-out stopped every launch: 1 ms of its sequence has passed (R407)? -/
def brownStopped (s : State) : Bool := s.plat.brownAt.any (fun b => decide (b + 1000000 ≤ rtm s))

/-- CYC of the die of a context. -/
def cyc (s : State) (id : Nat) : Nat := cycAt (dieAt s (dieOf id)) s.plat.moment

/-! ### Control (R17, R18) -/

/-- The address of the first word of the group in progress (R66). -/
def groupPc (s : State) : Word64 := s.cur.a.pc - nat64 (4 * s.cur.a.immx.length)

/-- Put the PC somewhere; a group ends. -/
def setPc (pc : Word64) (s : State) : State :=
  { s with cur := { s.cur with a := { s.cur.a with pc := pc, immx := [] } } }

/-- Complete and go on at the next word. -/
def retire (s : State) : State := setPc (s.cur.a.pc + 4) s

/-- Complete: the next state is at the next word. -/
def done (s : State) : Out := .next (retire s)

/-- The size of the code section that runs. -/
def codeSize (s : State) : Nat := (myModule s).codeSize

/-- Hints lapse (R64), the translation block is left (R339), and posted loads stand as they were read. -/
def dropHints (c : Ctx) : Ctx :=
  { c with
    brp := none, prio := 0, stream := none, blk := none, taken := false, half0 := true, half1 := true, posted := []
    burst := none }

/-! ### Faults (R353, R354) -/

/-- Causes of R353. -/
inductive Cause where
  | illegal | bounds | perm | align | notres | l1page | lostrel | poison | space | engine | arith
  | trap | brk | chan | accslot | deadlock
  deriving DecidableEq, Repr

/-- The TCAUSE code. -/
def Cause.code : Cause → Nat
  | .illegal => 1
  | .bounds => 2
  | .perm => 3
  | .align => 4
  | .notres => 5
  | .l1page => 6
  | .lostrel => 7
  | .poison => 8
  | .space => 9
  | .engine => 10
  | .arith => 11
  | .trap => 12
  | .brk => 13
  | .chan => 14
  | .accslot => 15
  | .deadlock => 16

/-- A fault that a check finds: its cause and the fault value. -/
structure Trap where
  cause : Cause
  val : Word64
  deriving DecidableEq, Repr

/-- The task stops at the faulting group, and the leaf receives cause, PC and value.  No register,
memory or flag changes (R353), and hints lapse. -/
def raiseAt (pc : Word64) (cause : Cause) (val : Word64) (s : State) : State :=
  { s with
    cur := { dropHints s.cur with
      a := { s.cur.a with pc := pc, immx := [] }
      run := .stopped, fcause := cause.code, fpc := pc, fval := val }
    inbox := s.inbox ++ [{ ctx := s.cur.id, cause := cause.code, pc := pc, val := val }] }

/-- A precise fault of the instruction in progress. -/
def raise (cause : Cause) (val : Word64) (s : State) : Out := .next (raiseAt (groupPc s) cause val s)

/-- Raise a trap value. -/
def raiseT (t : Trap) (s : State) : Out := raise t.cause t.val s

/-- Go on with the result of a check, or take its fault. -/
def orTrap {α : Type} (s : State) (e : Except Trap α) (k : α → Out) : Out :=
  match e with
  | .ok x => k x
  | .error t => raiseT t s

/-- The checks of a register target (R18, R110): BOUNDS first, then ALIGN. -/
def checkTarget (s : State) (t : Word64) : Except Trap Unit :=
  if codeSize s ≤ t.toNat then .error ⟨.bounds, t⟩
  else if t.toNat % 4 ≠ 0 then .error ⟨.align, t⟩
  else .ok ()

/-- Deliver a trap (R202).
DEDUCED, unsafe (log entry 76). -/
def deliver (cause : Cause) (val : Word64) (s : State) : Out :=
  if s.cur.a.sr.tvec = 0 ∨ s.cur.a.handler = true then raise cause val s
  else orTrap s (checkTarget s s.cur.a.sr.tvec) fun _ =>
    .next { s with
      cur := { dropHints s.cur with
        a := { s.cur.a with
          pc := s.cur.a.sr.tvec, immx := [], handler := true
          sr := { s.cur.a.sr with tpc := groupPc s, tcause := nat64 cause.code, tval := val } } } }

/-- TRET (R202): `word` is the instruction's own word. -/
def trapReturn (word : BitVec 32) (s : State) : Out :=
  if s.cur.a.handler = false then raise .illegal (word.setWidth 64) s
  else orTrap s (checkTarget s s.cur.a.sr.tpc) fun _ =>
    .next { s with
      cur := { s.cur with a := { s.cur.a with handler := false, pc := s.cur.a.sr.tpc, immx := [] } } }

/-- A direct transfer to PC + 4 x disp (R105): BOUNDS outside the code section. -/
def target (s : State) (disp : Int) : Except Trap Word64 :=
  let t := (s.cur.a.pc.toNat : Int) + 4 * disp
  if t < 0 ∨ (codeSize s : Int) ≤ t then .error ⟨.bounds, wrap64 t⟩ else .ok (wrap64 t)

/-- Park the context: the instruction runs again whole, or is completed in its place, when the wait ends;
until then nothing of it is architectural (R66, R221). -/
def park (w : Wait) (s : State) : State := { s with cur := { s.cur with run := .parked w } }

/-! ### Translation (R264, R265, R384-R387) -/

/-- Fields of a page-table entry. -/
def pteV (w : Word64) : Bool := bitOf w 63
def pteL (w : Word64) : Bool := bitOf w 62
def pteTgt (w : Word64) : Nat := fieldOf w 60 2
def pteR (w : Word64) : Bool := bitOf w 59
def pteW (w : Word64) : Bool := bitOf w 58
def pteX (w : Word64) : Bool := bitOf w 57
def pteC (w : Word64) : Bool := bitOf w 56
def pteDL (w : Word64) : Bool := bitOf w 55
def pteDie (w : Word64) : Nat := fieldOf w 53 2
def ptePort (w : Word64) : Nat := fieldOf w 52 1
def pteAddr (w : Word64) : Nat := fieldOf w 12 40 * 4096

/-- Walk the table from a level down: the leaf entry and its page size; an entry with C is one of 16 of a page of 64 KiB,
and gives the first of them.  None where an entry has V = 0, a reserved bit set (C is one above level 0), or an L that its
level forbids. -/
def walkFrom (m : Memory) (va : Nat) : Nat → Nat → Option (Word64 × Nat)
  | 0, _ => none
  | l + 1, table =>
    let i := va / 2 ^ (12 + 9 * l) % (if l = 3 then 2 ^ 18 else 512)
    let w := nat64 (m.readN (table + 8 * i) 8)
    if pteV w = false ∨ fieldOf w 0 12 ≠ 0 ∨ (pteC w = true ∧ l ≠ 0) then none
    else if pteL w then
      (if l = 3 then none
       else if pteC w then some (nat64 (w.toNat - i % 16 * 4096), 65536)
       else some (w, 2 ^ (12 + 9 * l)))
    else if l = 0 then none
    else walkFrom m va l (pteAddr w)

/-- The table walk of an ASID. -/
def walk (s : State) (asid va : Nat) : Option TlbEntry :=
  match s.host.roots.find? (fun r => r.1 == asid) with
  | none => none
  | some r =>
    (walkFrom s.mem.hbm (va % 2 ^ 57) 4 r.2).map
      (fun ws => { asid := asid, va := va / ws.2 * ws.2, size := ws.2, pte := ws.1 })

/-- Does an entry match an address? -/
def tlbHit (asid va : Nat) (e : TlbEntry) : Bool :=
  e.asid == asid && decide (e.va ≤ va) && decide (va < e.va + e.size)

/-- The matching entry of the smallest page (R387). -/
def tlbFind (asid va : Nat) : List TlbEntry → Option TlbEntry
  | [] => none
  | e :: es =>
    match tlbFind asid va es with
    | none => if tlbHit asid va e then some e else none
    | some f => if tlbHit asid va e && decide (e.size ≤ f.size) then some e else some f

/-- The interleaved home die and die-local frame of a page (R264, R265). -/
def interleaved (gl4012 : Bool) (p : Nat) : Nat × Nat :=
  if gl4012 then
    match p % 6 with
    | 0 => (0, 2 * (p / 6))
    | 1 => (1, 2 * (p / 6))
    | 2 => (2, p / 6)
    | 3 => (3, p / 6)
    | 4 => (0, 2 * (p / 6) + 1)
    | _ => (1, 2 * (p / 6) + 1)
  else (p % 4, p / 4)

/-- The page that lies at a die-local frame of a die: the reverse of `interleaved`. -/
def pageOf (gl4012 : Bool) (die f : Nat) : Nat :=
  if gl4012 then (if die < 2 then f / 2 * 6 + f % 2 * 4 + die else 6 * f + die) else 4 * f + die

/-- The key of an address at its home: HBM by the physical address that names its place under interleaving, the
address of a die-local page being one of its die; host memory over CXL from 2^60, host memory over PCIe from 2^61,
peers from 2^62, each with the port in bit 59.
DESIGN CHOICE, safe (log entry 73). -/
def homeKey (s : State) (e : TlbEntry) (va : Nat) : Nat :=
  let a := pteAddr e.pte + (va - e.va)
  match pteTgt e.pte with
  | 0 => if pteDL e.pte then pageOf s.plat.gl4012 (pteDie e.pte) (a / 4096) * 4096 + a % 4096 else a
  | 1 => 2 ^ 60 + ptePort e.pte * 2 ^ 59 + a
  | 2 => 2 ^ 61 + ptePort e.pte * 2 ^ 59 + a
  | _ => 2 ^ 62 + ptePort e.pte * 2 ^ 59 + a

/-- Is the address on a page of a loaded module's code section, which the page tables mark execute-only (R350)? -/
def onCode (s : State) (key : Nat) : Bool :=
  s.disp.modules.any (fun m => decide (m.codeAt / 4096 ≤ key / 4096) && decide (key / 4096 * 4096 < m.codeAt + m.codeSize))

/-- Do the page tables let an access read, or write, at an address: the bits of its entry, and R350? -/
def pageAllows (s : State) (e : TlbEntry) (key : Nat) (r w : Bool) : Bool :=
  (!r || pteR e.pte) && (!w || pteW e.pte) && !((r || w) && onCode s key)

/-- The line of an address in a cache. -/
def lineOf (cl : Cluster) (asid va : Nat) : Option Line :=
  cl.lines.find? (fun l => l.asid == asid && l.va == va / 128 * 128)

/-- Insert in a TLB of `n` entries; the oldest leaves.
DEDUCED, unsafe (log entry 80). -/
def tlbInsert (n : Nat) (e : TlbEntry) (es : List TlbEntry) : List TlbEntry :=
  if e ∈ es then es else e :: es.take (n - 1)

/-- Insert in the TLB of a die, which has 32,768 entries (R385). -/
def dieInsert (die : Nat) (e : TlbEntry) (xs : List (Nat × TlbEntry)) : List (Nat × TlbEntry) :=
  if (die, e) ∈ xs then xs
  else (die, e) :: (xs.filter (fun x => x.1 == die)).take 32767 ++ xs.filter (fun x => x.1 != die)

/-- The walker's answer: where the host has enabled ATS, a page of host memory lies where ATS puts it. -/
def walked (s : State) (asid va : Nat) : Option TlbEntry :=
  (walk s asid va).map fun e =>
    if s.host.ats && (pteTgt e.pte == 1 || pteTgt e.pte == 2) then
      { e with pte := nat64 (e.pte.toNat - fieldOf e.pte 12 40 * 4096 + Config.atsPage (fieldOf e.pte 12 40) % 2 ^ 40 * 4096) }
    else e

/-- What the cluster TLB, the die TLB or the walker gives for an address. -/
def lookup (s : State) (cluster asid va : Nat) : Option TlbEntry :=
  match tlbFind asid va (clusterAt s cluster).tlb with
  | some e => some e
  | none =>
    match tlbFind asid va ((s.host.dieTlb.filter (fun x => x.1 == cluster / 4)).map (·.2)) with
    | some e => some e
    | none => walked s asid va

/-- The TLBs of a cluster and its die keep an entry. -/
def tlbFill (cluster : Nat) (e : TlbEntry) (s : State) : State :=
  let cl := clusterAt s cluster
  let s := putCluster { cl with tlb := tlbInsert 4096 e cl.tlb } s
  { s with host := { s.host with dieTlb := dieInsert (cluster / 4) e s.host.dieTlb } }

/-- Translate an address; the TLBs keep the entry. -/
def translate (cluster asid va : Nat) (s : State) : Option TlbEntry × State :=
  match lookup s cluster asid va with
  | none => (none, s)
  | some e => (some e, tlbFill cluster e s)

/-! ### Object pointers and the checks of R28 -/

/-- hv(p) and ov(p) of R101. -/
def hv (p : Word64) : Nat := p.toNat / 2 ^ 54
def ov (p : Word64) : Nat := p.toNat % 2 ^ 54

/-- A pointer from a handle and an offset. -/
def mkPtr (h o : Nat) : Word64 := nat64 (h * 2 ^ 54 + o)

/-- The entry of a handle; one that is not listed is invalid (R27). -/
def entryIn (hs : List (Nat × HandleEntry)) (h : Nat) : HandleEntry :=
  (getBy (·.1) h (h, {}) hs).2

/-- The issuing context's entry of a pointer's handle. -/
def entryOf (s : State) (p : Word64) : HandleEntry := entryIn s.cur.handles (hv p)

/-- The virtual address that a pointer reaches through an entry. -/
def vaOf (e : HandleEntry) (p : Word64) : Nat := (e.base + ov p) % 2 ^ 57

/-- Permissions that an access needs (R28 check 3): `engSrc` a source of a copy or the scales of an MSCA, `engDst` a
destination of a copy, an MDRAIN or an MSCA, `engR` and `engW` any other operand of an engine. -/
inductive Need where
  | r | w | rw | x | engR | engW | engSrc | engDst
  deriving DecidableEq, Repr

/-- Check 3 against an entry: a core access through a remote handle fails, and an engine needs E.  Where R180, R181 and R183
let the space of the target decide of a remote handle, which never has R or W, check 4 decides.
DEDUCED, unsafe (log entry 83). -/
def Need.ok (n : Need) (e : HandleEntry) : Bool :=
  match n with
  | .r => e.r && !e.remote
  | .w => e.w && !e.remote
  | .rw => e.r && e.w && !e.remote
  | .x => e.x && !e.remote
  | .engR => e.e && e.r
  | .engW => e.e && e.w
  | .engSrc => e.e && (e.r || e.remote)
  | .engDst => e.e && (e.w || e.remote)

/-- Does it read?  Does it write? -/
def Need.reads : Need → Bool
  | .r | .rw | .engR | .engSrc => true
  | _ => false
def Need.writes : Need → Bool
  | .w | .rw | .engW | .engDst => true
  | _ => false

/-- Do the page tables bar an access of `size` bytes through an entry (R385): a page of GLOBAL is mapped, and its bits do not
allow it?  A read that hits in the cluster cache needs no translation. -/
def pageBars (s : State) (cluster asid : Nat) (e : HandleEntry) (p : Word64) (size : Nat) (need : Need) : Bool :=
  e.space == 1 && decide (ov p + size ≤ e.length) && (List.range ((vaOf e p % 4096 + size + 4095) / 4096)).any (fun i =>
    let va := if i = 0 then vaOf e p else (vaOf e p / 4096 * 4096 + 4096 * i) % 2 ^ 57
    (need.writes || (lineOf (clusterAt s cluster) asid va).isNone) &&
    (lookup s cluster asid va).any (fun x => !pageAllows s x (homeKey s x va) need.reads need.writes))

/-- Spaces that an instruction may reach (R28 check 4, R140). -/
inductive Where where
  | local | global | localGlobal | any
  deriving DecidableEq, Repr

/-- Check 4: 0 LOCAL, 1 GLOBAL, 2 IO. -/
def Where.ok (w : Where) (space : Nat) : Bool :=
  match w with
  | .local => space == 0
  | .global => space == 1
  | .localGlobal => space == 0 || space == 1
  | .any => space != 3

/-- Do the leased ranges cover `[o, stop)` of a handle?  Each range that holds the first byte carries on from its
end. -/
def leasedFrom (l : List (Nat × Nat × Nat)) (h stop : Nat) : Nat → Nat → Bool
  | 0, o => decide (stop ≤ o)
  | fuel + 1, o =>
    decide (stop ≤ o) ||
    (match l.find? (fun r => r.1 == h && decide (r.2.1 ≤ o) && decide (o < r.2.1 + r.2.2)) with
      | none => false
      | some r => leasedFrom l h stop fuel (r.2.1 + r.2.2))

/-- Does a range lie within the leased residency ranges (check 6)? -/
def leasedIn (l : List (Nat × Nat × Nat)) (h o size : Nat) : Bool := leasedFrom l h (o + size) (l.length + 1) o

/-- Check(p, size, perm) of R28, against an entry: the first check that fails gives its fault.  `barred` says that the page
tables do not allow the access, which fails check 3 (R385). -/
def checkEntry (e : HandleEntry) (leased : List (Nat × Nat × Nat)) (barred : Bool) (p : Word64) (size align : Nat)
    (need : Need) (wh : Where) : Except Trap HandleEntry :=
  if e.valid = false then .error ⟨.bounds, p⟩
  else if e.length < ov p + size then .error ⟨.bounds, p⟩
  else if need.ok e = false ∨ barred = true then .error ⟨.perm, p⟩
  else if wh.ok e.space = false then .error ⟨.space, p⟩
  else if ov p % align ≠ 0 then .error ⟨.align, p⟩
  else if e.lease = true ∧ leasedIn leased (hv p) (ov p) size = false then .error ⟨.notres, p⟩
  else .ok e

/-- Check(p, size, perm) for the issuing context. -/
def check (s : State) (p : Word64) (size align : Nat) (need : Need) (wh : Where) : Except Trap HandleEntry :=
  let e := entryOf s p
  checkEntry e (myLaunch s).leased (pageBars s (myCluster s) s.cur.bind.asid e p size need) p size align need wh

end Sys2Proof.Machine
end

