-- ==== Sys2Proof/Machine/Local.lean ====
section
/-!
DEFINITION. LOCAL memory: the page map and the banks (R242-R247), full/empty bits (R153), the undo log
of LOCAL lines (R363), the wait lists (R253, R254), and the atomic functions of R155.
-/

namespace Sys2Proof.Machine

open Sys2Proof

/-! ### Where a word lives -/

/-- Fields of a page-map entry (R246). -/
def pmValid (e : BitVec 64) : Bool := e.getLsbD 63
def pmUse (e : BitVec 64) : Nat := fieldOf e 61 2
def pmTile (e : BitVec 64) : Bool := e.getLsbD 60
def pmPin (e : BitVec 64) : Bool := e.getLsbD 59
def pmHome (e : BitVec 64) : Nat := fieldOf e 52 7
def pmArea (e : BitVec 64) : Nat := fieldOf e 32 16
def pmPage (e : BitVec 64) : Nat := fieldOf e 0 12

/-- A page-map entry from its fields. -/
def pmEntry (use : Nat) (tile pin : Bool) (home area page : Nat) : BitVec 64 :=
  nat64 (2 ^ 63 + use * 2 ^ 61 + boolBit tile 60 + boolBit pin 59 + home % 128 * 2 ^ 52 + area % 65536 * 2 ^ 32 + page % 4096)

/-- The page-map entry of a frame. -/
def pmOf (cl : Cluster) (frame : Nat) : BitVec 64 := (getBy (·.1) frame (frame, 0) cl.pageMap).2

/-- The frame that holds a page of a LOCAL area. -/
def frameOf (cl : Cluster) (area page : Nat) : Option Nat :=
  (cl.pageMap.find? (fun fe =>
    pmValid fe.2 && pmUse fe.2 == 0 && pmArea fe.2 == area && pmPage fe.2 == page)).map (·.1)

/-- The key of a byte of L1. -/
def l1Key (cluster frame byte : Nat) : Nat := cluster * 2 ^ 28 + frame * 65536 + byte

/-- The key of an area offset, if its page has a frame. -/
def localKey (s : State) (cluster area off : Nat) : Option Nat :=
  (frameOf (clusterAt s cluster) area (off / 65536)).map (fun f => l1Key cluster f (off % 65536))

/-- The bank that holds a word (R244): cluster x 4,096 + bank. -/
def bankOf (s : State) (key : Nat) : Nat :=
  let cl := key / 2 ^ 28
  let w := key % 65536 / 8
  let e := pmOf (clusterAt s cl) (key / 65536 % 4096)
  cl * 4096 + (if pmTile e then pmHome e * 32 + w % 32 else w % 4096)

/-! ### Ports and reserved cycles of a bank (R239, R241, R248) -/

/-- The port of a bank that a core's requests come through. -/
def portAt (bank core : Nat) : Nat := if bank / 32 = core / 8 then core % 8 else 8

/-- The source of the bank's sector switch that a core's requests come from: its tile's index in the sector, or the
cluster switch at the position of the bank's own tile. -/
def sourceAt (bank core : Nat) : Nat := if core / 128 = bank / 512 then core / 8 % 16 else bank / 32 % 16

/-- The pointers of a bank move past the port and the source served (R241, R248). -/
def servedAt (bank port source : Nat) (s : State) : State :=
  let b := bankAt s bank
  putBank { b with ptr := (port + 1) % 9, src := if port = 8 then (source + 1) % 16 else b.src } s

/-- CYC of the die of a bank. -/
def bankCyc (s : State) (bank : Nat) : Nat := cycAt (dieAt s (bank / 16384)) s.plat.moment

/-- Is this cycle of the bank reserved for a burst or a pair (R248)? -/
def heldNow (s : State) (bank : Nat) : Bool := (bankAt s bank).reserved.any (fun r => decide (r.due ≤ bankCyc s bank))

/-- Is this cycle of the bank reserved, or owed to a retry (R248, R253, R254)? -/
def owedAt (s : State) (bank : Nat) : Bool := heldNow s bank || (bankAt s bank).retry != [] || (bankAt s bank).once != []

/-- Is the bank of a word free: nothing reserves its cycle and no request is presented? -/
def bankFree (s : State) (key : Nat) : Bool := !owedAt s (bankOf s key) && (bankAt s (bankOf s key)).pending == []

/-- Reserve a cycle of the bank that holds a word. -/
def reserve (key due : Nat) (h : Hold) (s : State) : State :=
  let b := bankAt s (bankOf s key)
  putBank { b with reserved := b.reserved ++ [{ due := due, key := key, hold := h }] } s

/-- A core or one of its engines (0 core, 1 matrix unit, 2 copy engine) has been served at the bank of a word: the
pointers move, and the unit has its turn last at its port (R241, R248, R291). -/
def takeBank (key core unit : Nat) (s : State) : State :=
  let bank := bankOf s key
  let port := portAt bank core
  let s := servedAt bank port (sourceAt bank core) s
  let b := bankAt s bank
  putBank { b with turns := putBy (·.1) (port, (unit + 1) % 3) b.turns } s

/-- The area offset of a byte of L1 (the reverse of localKey). -/
def areaOff (s : State) (key : Nat) : Nat × Nat :=
  let e := pmOf (clusterAt s (key / 2 ^ 28)) (key / 65536 % 4096)
  (pmArea e, pmPage e * 65536 + key % 65536)

/-- The keys of `n` consecutive words from an area offset, or L1PAGE (R246) if a page has no frame. -/
def wordKeys (s : State) (p : Word64) (cluster area : Nat) : Nat → Nat → Except Trap (List Nat)
  | _, 0 => .ok []
  | off, n + 1 =>
    match localKey s cluster area off with
    | none => .error ⟨.l1page, p⟩
    | some k =>
      match wordKeys s p cluster area (off + 8) n with
      | .ok ks => .ok (k :: ks)
      | .error t => .error t

/-- The key that a checked LOCAL pointer of the issuing context reaches, or L1PAGE. -/
def placeLocal (s : State) (p : Word64) (e : HandleEntry) : Except Trap Nat :=
  match localKey s (myCluster s) s.cur.bind.area (e.base + ov p) with
  | some k => .ok k
  | none => .error ⟨.l1page, p⟩

/-! ### Full/empty bits and poison -/

/-- FE(p) = full? -/
def isFull (s : State) (key : Nat) : Bool := !s.mem.empty.contains key

/-- Insert a key in a rising list without repeats. -/
def insertKey (k : Nat) : List Nat → List Nat
  | [] => [k]
  | x :: xs => if k = x then x :: xs else if k < x then k :: x :: xs else x :: insertKey k xs

/-- Set or clear FE(p). -/
def setFull (key : Nat) (full : Bool) (s : State) : State :=
  { s with mem := { s.mem with
      empty := if full then s.mem.empty.filter (· != key) else insertKey key s.mem.empty } }

/-- The words that `n` bytes from a key touch. -/
def wordsOf (key n : Nat) : List Nat := (List.range ((key % 8 + n + 7) / 8)).map (fun i => key / 8 * 8 + 8 * i)

/-- Does a read of the bytes meet a poisoned word (R247)? -/
def l1Poisoned (s : State) (key n : Nat) : Bool := (wordsOf key n).any (s.mem.poison.contains ·)

/-! ### Undo log (R363-R365) -/

/-- Entries that the default undo log holds. -/
def undoCapacity : Nat := 1864135

/-- Append an entry before the first write of the step to a line; a full log makes the step
non-rollbackable and logs nothing. -/
def logUndo (launch : Nat) (u : Undo) (s : State) : State :=
  let l := launchAt s launch
  if l.nonRollback then s
  else if l.undo.any (fun x => x.isLocal == u.isLocal && x.line == u.line && x.tag == u.tag &&
      (!u.isLocal || x.cluster == u.cluster)) then s
  else if undoCapacity ≤ l.undo.length then putLaunch { l with nonRollback := true } s
  else putLaunch { l with undo := u :: l.undo } s

/-- The words of an undo-log entry of a step (R364): where; tag, full/empty bits and step; the 128 old bytes. -/
def undoWords (step : Nat) (u : Undo) : List Word64 :=
  [nat64 (boolBit u.isLocal 63 + u.line % 2 ^ 57), nat64 (u.tag % 65536 + u.fe % 65536 * 2 ^ 16 + step % 2 ^ 32 * 2 ^ 32)] ++
  (List.range 16).map (fun i => u.old.extractLsb' (64 * i) 64)

/-- Full/empty bits of the 16 words of a line, bit i set when word i is full. -/
def feBits (s : State) (key : Nat) : Nat → Nat
  | 0 => 0
  | n + 1 => feBits s key n + boolBit (isFull s (key + 8 * n)) n

/-- Log the LOCAL line of a key. -/
def logLocal (launch key : Nat) (s : State) : State :=
  let k := key / 128 * 128
  let ao := areaOff s k
  logUndo launch
    { isLocal := true, cluster := key / 2 ^ 28, line := ao.2, tag := ao.1, fe := feBits s k 16
      old := s.mem.l1.line k } s

/-! ### Reads and writes of L1 -/

/-- The bank retries the operations parked on a word that changed (R254). -/
def notifyWord (word : Nat) (s : State) : State :=
  let b := bankAt s (bankOf s word)
  if b.waiters.any (fun p => p.key == word) then putBank { b with retry := addOnce word b.retry } s else s

/-- Notify some words. -/
def notifyAll : List Nat → State → State
  | [], s => s
  | w :: ws, s => notifyAll ws (notifyWord w s)

/-- A read of `n` bytes: POISON if a word of it is poisoned. -/
def l1Read (s : State) (p : Word64) (key n : Nat) : Except Trap Nat :=
  if l1Poisoned s key n then .error ⟨.poison, p⟩ else .ok (s.mem.l1.readN key n)

/-- A write of `n` bytes at a bank: logged, performed, and the waiting operations are retried.  A word
written whole is poisoned no more. -/
def l1Write (launch key n v : Nat) (s : State) : State :=
  let s := logLocal launch key s
  let whole := (wordsOf key n).filter (fun w => decide (key ≤ w) && decide (w + 8 ≤ key + n))
  notifyAll (wordsOf key n)
    { s with mem := { s.mem with
        l1 := s.mem.l1.writeN key n v
        poison := s.mem.poison.filter (fun w => !whole.contains w) } }

/-- A change of a full/empty bit at a bank: logged, and the waiting operations are retried. -/
def l1SetFull (launch key : Nat) (full : Bool) (s : State) : State :=
  notifyWord key (setFull key full (logLocal launch key s))

/-! ### Parking at a bank (R253) -/

/-- Park an operation at the bank of a word: the wait list has 8 entries, of which those that older entries of the
tile's table wait for go to them; the table has 64, to which an earlier refused operation has first claim; an
operation that finds both full is refused with a sequence number. -/
def parkOnBank (pk : Parked) (s : State) : State :=
  let b := bankAt s (bankOf s pk.key)
  let t := tileAt s (b.id / 32)
  if b.waiters.length < 8 ∧ t.table.any (fun p => bankOf s p.key == b.id) = false then
    putBank { b with waiters := b.waiters ++ [pk] } s
  else if t.table.length < 64 ∧ t.refused = [] then putTile { t with table := t.table ++ [pk] } s
  else putTile { t with refused := t.refused ++ [(t.nextSeq, pk)], nextSeq := t.nextSeq + 1 } s

/-- The re-presentation with the oldest sequence number of its tile: it takes a list entry as any operation does, or
the freed table entry; it stays refused where neither is free (R253). -/
def parkOldest (seq : Nat) (pk : Parked) (s : State) : State :=
  let b := bankAt s (bankOf s pk.key)
  let t := tileAt s (b.id / 32)
  let out := t.refused.filter (· != (seq, pk))
  if b.waiters.length < 8 ∧ t.table.any (fun p => bankOf s p.key == b.id) = false then
    putBank { b with waiters := b.waiters ++ [pk] } (putTile { t with refused := out } s)
  else if t.table.length < 64 then putTile { t with table := t.table ++ [pk], refused := out } s
  else s

/-- Park the issuing context on a word. -/
def bankPark (op : ParkOp) (key : Nat) (p : Word64) (s : State) : State :=
  parkOnBank { ctx := s.cur.id, key := key, op := op, ptr := p } (park (.bank key) s)

/-- Is it the wait of a copy engine? -/
def ParkOp.isCpych : ParkOp → Bool
  | .cpych _ _ => true
  | _ => false

/-- Remove entries from every wait list (R254). -/
def clearBanks (out : Parked → Bool) (s : State) : State :=
  { s with
    banks := s.banks.map (fun b => { b with
      waiters := b.waiters.filter (fun p => !out p)
      once := b.once.filter (fun p => !out p) })
    tiles := s.tiles.map (fun t => { t with
      table := t.table.filter (fun p => !out p)
      refused := t.refused.filter (fun p => !out p.2) }) }

/-- A reserved cycle without a context's part; none where it was only for that. -/
def Reserved.without (id : Nat) (r : Reserved) : Option Reserved :=
  match r.hold with
  | .busy => some r
  | .store c _ => if c = id then none else some r
  | .word ts =>
    let ts := ts.filter (fun t => t.1 != id)
    if ts = [] then none else some { r with hold := .word ts }

/-- A context leaves every wait list, and what it has presented at a bank is withdrawn. -/
def leaveBanks (id : Nat) (s : State) : State :=
  let t := clearBanks (fun p => p.ctx == id && !p.op.isCpych) s
  { t with banks := t.banks.map (fun b => { b with
      pending := b.pending.filter (fun r => !(r.2.2.1 == id && r.2.2.2 == 3))
      reserved := b.reserved.filterMap (Reserved.without id) }) }

/-! ### Atomic functions (R155) -/

/-- f(old, v) on `n` bytes, by op code. -/
def amoFun (op n old v : Nat) : Nat :=
  let w := 8 * n
  match op with
  | 0 => (old + v) % 2 ^ w
  | 1 => old &&& v
  | 2 => old ||| v
  | 3 => old ^^^ v
  | 4 => if sext old w ≤ sext v w then old else v
  | 5 => if sext old w < sext v w then v else old
  | 6 => if old ≤ v then old else v
  | 7 => if old < v then v else old
  | _ => v

/-- The old value in a register: zero-extended for MINN and MAXN of 4 bytes, else sign-extended. -/
def amoResult (op n old : Nat) : Word64 :=
  if n = 4 ∧ (op = 6 ∨ op = 7) then nat64 old else wrap64 (sext old (8 * n))

end Sys2Proof.Machine
end

