-- ==== Sys2Proof/Machine/Global.lean ====
section
/-!
DEFINITION. GLOBAL memory: homes (R264-R266), the cluster cache with versions
and epochs (R257, R267-R269, R275, R276), exports (R141, R218), and plain accesses (R147).
-/

namespace Sys2Proof.Machine

open Sys2Proof

/-! ### The result of an access -/

/-- An access is performed, or faults, or must wait and restarts whole, or is posted: the state is then
that in which its context is parked for the answer. -/
inductive Acc (α : Type) where
  | ok (x : α) (s : State)
  | trap (t : Trap)
  | wait (w : Wait)
  | later (s : State)

/-- Go on with the result of an access, take its fault, or park. -/
def Acc.andThen {α : Type} (a : Acc α) (s : State) (k : α → State → Out) : Out :=
  match a with
  | .ok x t => k x t
  | .trap t => raiseT t s
  | .wait w => .next (park w s)
  | .later t => .next t

/-- Sequence two accesses. -/
def Acc.bind {α β : Type} (a : Acc α) (k : α → State → Acc β) : Acc β :=
  match a with
  | .ok x t => k x t
  | .trap t => .trap t
  | .wait w => .wait w
  | .later t => .later t

/-- An access with a function of the state that it leaves. -/
def Acc.mapState {α : Type} (f : State → State) (a : Acc α) : Acc α :=
  match a with
  | .ok x t => .ok x (f t)
  | .later t => .later (f t)
  | r => r

/-- A check as an access. -/
def Acc.ofCheck {α : Type} (e : Except Trap α) (s : State) : Acc α :=
  match e with
  | .ok x => .ok x s
  | .error t => .trap t

/-! ### Homes (R264-R266, R285) -/

/-- Is the address on a page that is not coherent (R380)?
DEDUCED, unsafe (log entry 18). -/
def nonCoherent (key : Nat) : Bool := decide (2 ^ 61 ≤ key)

/-- Is the page of an HBM address in host bias (R377)? -/
def inHostBias (s : State) (key : Nat) : Bool := decide (key < 2 ^ 60) && s.host.hostBias.contains (key / 65536)

/-- Is the line's home the host agent (R285, R377)? -/
def atHostAgent (s : State) (key : Nat) : Bool :=
  (decide (2 ^ 60 ≤ key) && decide (key < 2 ^ 61)) || inHostBias s key

/-- The page that a bias flip is changing: accesses to it wait (R379 step 2). -/
def flipping (s : State) (key : Nat) : Bool :=
  bitOf s.host.bfctl 63 && decide (key < 2 ^ 60) && fieldOf s.host.bfctl 0 23 == key / 65536

/-- The address in `mem.host` of a key outside HBM: host memory by port and address, whichever way it is
reached, and what was written to peers beside it. -/
def hostAddr (key : Nat) : Nat := if key < 2 ^ 62 then key % 2 ^ 60 else key

/-- Read at the home. -/
def homeReadN (s : State) (key n : Nat) : Nat :=
  if key < 2 ^ 60 then s.mem.hbm.readN key n else s.mem.host.readN (hostAddr key) n

/-- The line at the home. -/
def homeLine (s : State) (key : Nat) : BitVec 1024 := BitVec.ofNat 1024 (homeReadN s (key / 128 * 128) 128)

/-- The host agent's entry of a line. -/
def hostLineOf (s : State) (key : Nat) : HostLine :=
  getBy HostLine.line (key / 128 * 128) { line := key / 128 * 128, st := .i, presence := 0 } s.homes.hostLines

/-- Store a host-agent entry. -/
def putHostLine (h : HostLine) (s : State) : State :=
  { s with homes := { s.homes with hostLines := putBy HostLine.line h s.homes.hostLines } }

/-- May the host agent serve a read of the line?  A write? -/
def agentReads (h : HostLine) : Bool := h.st != .i
def agentWrites (h : HostLine) : Bool := h.st == .e || h.st == .m

/-- A write that reached the home wakes the watch on its line (R163), and a write of the whole line
clears its poison (R369). -/
def homeTouched (key : Nat) (whole : Bool) (s : State) : State :=
  let line := key / 128 * 128
  let h := hostLineOf s line
  let s := if atHostAgent s line && h.st == .e then putHostLine { h with st := .m } s else s
  { s with homes := { s.homes with
      changed := if s.homes.watches.contains line then addOnce line s.homes.changed else s.homes.changed
      poison := if whole then s.homes.poison.filter (· != line) else s.homes.poison } }

/-- The home merges the masked bytes (R266). -/
def homeMerge (key : Nat) (mask : BitVec 128) (data : BitVec 1024) (s : State) : State :=
  let line := key / 128 * 128
  let s :=
    if line < 2 ^ 60 then { s with mem := { s.mem with hbm := s.mem.hbm.merge line mask data 128 } }
    else { s with mem := { s.mem with host := s.mem.host.merge (hostAddr line) mask data 128 } }
  homeTouched line (mask == BitVec.allOnes 128) s

/-- Write `n` bytes at the home. -/
def homeWriteN (key n v : Nat) (s : State) : State :=
  let s :=
    if key < 2 ^ 60 then { s with mem := { s.mem with hbm := s.mem.hbm.writeN key n v } }
    else { s with mem := { s.mem with host := s.mem.host.writeN (hostAddr key) n v } }
  homeTouched key false s

/-- The home slice of a line, die x 64 + slice, and its record set (R264, R265, R277); the host agent is number 256.
The address within its die gives a die-local line the same home and set as its key. -/
def placeOf (s : State) (key : Nat) : Nat × Nat :=
  if atHostAgent s key then (256, key / 128 % 256)
  else
    let df := interleaved s.plat.gl4012 (key / 4096)
    (df.1 * 64 + df.2 % 2 * 32 + key / 128 % 32, df.2 / 2 % 256)

/-- The pseudo-channel of an HBM address: die x 128 + j. -/
def pchOf (s : State) (key : Nat) : Nat :=
  let df := interleaved s.plat.gl4012 (key / 4096)
  df.1 * 128 + df.2 % (if s.plat.gl4012 && decide (2 ≤ df.1) then 64 else 128)

/-! ### The cluster cache (R257, R267-R269) -/

/-- The key that orders the lines of a cache. -/
def lineId (asid va : Nat) : Nat := asid * 2 ^ 57 + va
def Line.key (l : Line) : Nat := lineId l.asid l.va

/-- Store a line. -/
def putLine (c : Nat) (l : Line) (s : State) : State :=
  let cl := clusterAt s c
  putCluster { cl with lines := putBy Line.key l cl.lines } s

/-- The presence bit of a cluster that holds no copy of a host line any more is cleared (R285). -/
def leavePresence (c home : Nat) (s : State) : State :=
  let h := hostLineOf s home
  if h.presence.getLsbD c && !(clusterAt s c).lines.any (fun l => l.home == h.line) then
    putHostLine { h with presence := h.presence &&& ~~~BitVec.ofNat 16 (2 ^ c) } s
  else s

/-- The same for every host line that the cluster holds no copy of. -/
def clearPresence (c : Nat) (s : State) : State :=
  let held := fun (h : HostLine) => (clusterAt s c).lines.any (fun l => l.home == h.line)
  { s with homes := { s.homes with hostLines := s.homes.hostLines.map (fun h =>
      if held h then h else { h with presence := h.presence &&& ~~~BitVec.ofNat 16 (2 ^ c) }) } }

/-- Remove a line. -/
def dropLine (c asid va : Nat) (s : State) : State :=
  let cl := clusterAt s c
  match lineOf cl asid va with
  | none => s
  | some l =>
    leavePresence c l.home
      (putCluster { cl with lines := cl.lines.filter (fun x => !(x.asid == asid && x.va == va / 128 * 128)) } s)

/-- May a context with floor `f` use a copy tagged `v` (R268)? -/
def tagValid (V v f : BitVec 4) : Bool := decide ((V - v).toNat ≤ (V - f).toNat)

/-- Sets of a cache of `frames` frames (R257). -/
def cacheSets (frames : Nat) : Nat := frames * 32

/-- The frames that new allocations use: those of the new size during a conversion (R260). -/
def allocFrames (cl : Cluster) : Nat :=
  match cl.conv with
  | some k => min k.newFrames cl.frames
  | none => cl.frames

/-- The bytes `[off, off + n)` of a line. -/
def rangeMask (off n : Nat) : BitVec 128 := BitVec.ofNat 128 ((2 ^ n - 1) * 2 ^ off)

/-- The byte mask as a bit mask. -/
def bitMask (m : BitVec 128) : Nat → Nat
  | 0 => 0
  | n + 1 => bitMask m n + (if m.getLsbD n then 255 * 2 ^ (8 * n) else 0)

/-- Take the bytes of `new` that the mask selects, and the others of `old`. -/
def mergeBytes (mask : BitVec 128) (new old : BitVec 1024) : BitVec 1024 :=
  let m := BitVec.ofNat 1024 (bitMask mask 128)
  (new &&& m) ||| (old &&& ~~~m)

/-- The key of a line's data: 16 words of a cache frame (R257). -/
def lineKey (s : State) (c : Nat) (l : Line) : Nat :=
  l1Key c ((clusterAt s c).cacheFrames.getD (l.pos / 512) 0) (l.pos % 512 * 128)

/-- The data of a line. -/
def lineData (s : State) (c : Nat) (l : Line) : BitVec 1024 := s.mem.l1.line (lineKey s c l)

/-- Put the data of a line into its words. -/
def setData (c : Nat) (l : Line) (data : BitVec 1024) (s : State) : State :=
  { s with mem := { s.mem with l1 := s.mem.l1.writeN (lineKey s c l) 128 data.toNat } }

/-- Words of a line, 0 to 15, are poisoned no more (R247). -/
def cleanWords (c : Nat) (l : Line) (is : List Nat) (s : State) : State :=
  let k := lineKey s c l
  { s with mem := { s.mem with poison := s.mem.poison.filter (fun w => !is.any (fun i => k + 8 * i == w)) } }

/-- Has word `i` of a line a byte of a mask? -/
def maskedWord (mask : BitVec 128) (i : Nat) : Bool := mask.extractLsb' (8 * i) 8 != 0#8

/-- The bytes of a line whose unmasked ones are the home's. -/
def mergedLine (s : State) (c : Nat) (l : Line) : BitVec 1024 := mergeBytes l.mask (lineData s c l) (homeLine s l.home)

/-- The absent or stale unmasked bytes of a line are taken from the home and tagged (R267). -/
def fillLine (c : Nat) (V : BitVec 4) (l : Line) (s : State) : State × Line :=
  let f := { l with present := true, v := V }
  let fresh := (List.range 16).filter (fun i => !maskedWord l.mask i)
  (putLine c f (cleanWords c l fresh (setData c l (mergedLine s c l) s)), f)

/-- Is a dirty byte of a line in a poisoned word (R247)? -/
def dirtyPoisoned (s : State) (c : Nat) (l : Line) : Bool :=
  (List.range 16).any (fun i => maskedWord l.mask i && s.mem.poison.contains (lineKey s c l + 8 * i))

/-- A line poisoned at its home (R369). -/
def poisonHome (key : Nat) (s : State) : State :=
  { s with homes := { s.homes with poison := addOnce (key / 128 * 128) s.homes.poison } }

/-- Write the masked bytes of a line back and leave it C; no home accepts a message of a dead agent (R279).  A line
whose other bytes are absent is fetched in the same step.
DEDUCED, safe (log entry 17). -/
def writebackLine (c : Nat) (l : Line) (s : State) : State :=
  if l.mask = 0 || s.homes.dead.contains c then s
  else
    let bad := dirtyPoisoned s c l
    let t := homeMerge l.home l.mask (lineData s c l) s
    let t := if bad then poisonHome l.home t else t
    if l.present then putLine c { l with mask := 0 } t
    else
      let f := fillLine c (clusterAt t c).v l t
      putLine c { f.2 with mask := 0 } f.1

/-- Write back some lines. -/
def writebackAll (c : Nat) : List Line → State → State
  | [], s => s
  | l :: ls, s => writebackAll c ls (writebackLine c l s)

/-- Write back and drop the lines. -/
def exportAll (c : Nat) : List Line → State → State
  | [], s => s
  | l :: ls, s => exportAll c ls (dropLine c l.asid l.va (writebackLine c l s))

/-- R141: the cluster writes back its own dirty bytes of the line and drops its copy. -/
def exportLine (c asid va : Nat) (s : State) : State :=
  match lineOf (clusterAt s c) asid va with
  | none => s
  | some l => dropLine c asid va (writebackLine c l s)

/-- A drain up to `n` (R269). -/
def drainTo (c : Nat) (n : BitVec 16) (s : State) : State :=
  let cl := clusterAt s c
  writebackAll c (cl.lines.filter (fun l =>
    l.mask != 0 && decide ((cl.e - n).toNat ≤ (cl.e - l.e).toNat))) s

/-- The cluster takes its epoch as a release number and increments it (R269, R271); a D line that the
epoch would leave half a counter behind is written back first (R276). -/
def takeEpoch (c : Nat) (s : State) : BitVec 16 × State :=
  let cl := clusterAt s c
  let s := writebackAll c (cl.lines.filter (fun l => l.mask != 0 && decide (32768 ≤ (cl.e + 1 - l.e).toNat))) s
  let cl := clusterAt s c
  (cl.e, putCluster { cl with e := cl.e + 1 } s)

/-- Would a bump reach a value that no completed pass has cleared (R275)? -/
def bumpStalls (s : State) (c : Nat) : Bool := decide (8 ≤ (clusterAt s c).age)

/-- Bump the version for a context (R268). -/
def bumpFor (id : Nat) (s : State) : State :=
  let cl := clusterAt s (clusterOf id)
  let s := putCluster { cl with v := cl.v + 1, age := cl.age + 1, sweep := cl.sweep.map (· + 1) } s
  putCtx { ctxOf s id with floor := cl.v + 1 } s

/-- The contexts of a cluster, those that are SAVED among them. -/
def ctxsIn (s : State) (c : Nat) : List Ctx := (allCtx s ++ s.disp.savedCtx).filter (fun x => clusterOf x.id == c)

/-- The newest floor of the contexts of a cluster. -/
def newestFloor (s : State) (c : Nat) (f : BitVec 4) : BitVec 4 :=
  let V := (clusterAt s c).v
  (ctxsIn s c).foldl (fun b x => if (V - x.floor).toNat < (V - b).toNat then x.floor else b) f

/-- The drains that contexts of a cluster still owe, beside those of a list. -/
def owedIn (s : State) (c : Nat) (hs : List (Nat × BitVec 16)) : List (Nat × BitVec 16) :=
  (ctxsIn s c).foldl (fun hs x => hs ++ x.handoff.filter (fun h => !hs.contains h)) hs

/-- Evict the clean bytes of the lines that `f` selects: a C line leaves, and the unmasked bytes of a D line count as
absent (R218). -/
def evictClean (c : Nat) (f : Line → Bool) (s : State) : State :=
  let t := exportAll c ((clusterAt s c).lines.filter (fun l => f l && l.mask == 0)) s
  let cl := clusterAt t c
  putCluster { cl with lines := cl.lines.map (fun l => if f l then { l with present := false } else l) } t

/-- An acquire has been performed whose release may come from the context's own cluster, which asks for no bump (R272).
What an acquire of another context of the cluster has made invalid for that context may not be read by this one either,
since the release may follow that acquire (R216): those copies are evicted; and this one waits for the drains that the
others still owe (R219).
DEDUCED, unsafe (log entry 89). -/
def acquired (id : Nat) (s : State) : State :=
  let c := clusterOf id
  let x := ctxOf s id
  let f := newestFloor s c x.floor
  let V := (clusterAt s c).v
  let t := evictClean c (fun l => l.present && !tagValid V l.v f) s
  putCtx { ctxOf t id with handoff := owedIn s c x.handoff } t

/-- The position an allocation takes: the lowest invalid way of the set, or else the least recently
used (R257). -/
def pickWay (lines : List Line) (sets set : Nat) : Nat → Nat × Option Line
  | 0 =>
    (set, lines.find? (fun l => l.pos == set))
  | w + 1 =>
    let best := pickWay lines sets set w
    match best.2 with
    | none => best
    | some b =>
      let pos := (w + 1) * sets + set
      match lines.find? (fun l => l.pos == pos) with
      | none => (pos, none)
      | some l => if l.used < b.used then (pos, some l) else best

/-- Allocate a line; the line that leaves is written back. -/
def allocLine (c asid va home policy : Nat) (s : State) : State × Line :=
  let cl := clusterAt s c
  let sets := cacheSets (allocFrames cl)
  let pick := pickWay cl.lines sets (va / 128 % sets) 15
  let s := match pick.2 with
    | some old => dropLine c old.asid old.va (writebackLine c old s)
    | none => s
  let h := hostLineOf s home
  let s := if atHostAgent s home then putHostLine { h with presence := h.presence ||| BitVec.ofNat 16 (2 ^ c) } s else s
  let l : Line := {
    asid := asid, va := va / 128 * 128, pos := pick.1, home := home / 128 * 128, mask := 0, present := false
    v := cl.v, e := cl.e, used := if policy = 1 then 0 else s.steps }
  (cleanWords c l (List.range 16) s, l)

/-! ### Plain accesses -/

/-- Who accesses: the context and what it is bound to, and which unit of its core: 0 the core itself, 1 the matrix unit,
2 the copy engine; and the translations that a command looked at as it started (R173). -/
structure Who where
  ctx : Nat
  asid : Nat
  launch : Nat
  unit : Nat := 0
  pages : List TlbEntry := []
  deriving DecidableEq, Repr

/-- The issuing context. -/
def me (s : State) : Who := { ctx := s.cur.id, asid := s.cur.bind.asid, launch := s.cur.bind.launch }

/-- Old contents of a GLOBAL line for the undo log: the bytes that the cluster's copy holds, fetched from
the home if absent (R363). -/
def oldLine (s : State) (c asid va home : Nat) : BitVec 1024 :=
  match lineOf (clusterAt s c) asid va with
  | none => homeLine s home
  | some l => if l.present then lineData s c l else mergedLine s c l

/-- Log the GLOBAL line of an address. -/
def logGlobal (w : Who) (va home : Nat) (s : State) : State :=
  let c := clusterOf w.ctx
  logUndo w.launch
    { isLocal := false, cluster := c, line := va / 128 * 128, tag := w.asid, fe := 0
      old := oldLine s c w.asid va home } s

/-- Translate for a plain access: the home of the address, or PERM, NOTRES, or a wait.  A hit needs no translation
(R385); a write that hits meets the W bit of its page all the same, where the page is mapped (log entry 93: DEDUCED,
unsafe).  A command writes through the translations that it looked at as it started. -/
def resolve (w : Who) (p : Word64) (va : Nat) (write : Bool) (s : State) : Acc Nat :=
  match if write then tlbFind w.asid va w.pages else none with
  | some e => .ok (homeKey s e va) s
  | none =>
  match lineOf (clusterAt s (clusterOf w.ctx)) w.asid va with
  | some l =>
    let key := l.home + va % 128
    if write && (match (translate (clusterOf w.ctx) w.asid va s).1 with
        | some e => !pageAllows s e key false true
        | none => onCode s key) then .trap ⟨.perm, p⟩
    else .ok key s
  | none =>
    match translate (clusterOf w.ctx) w.asid va s with
    | (none, _) => .trap ⟨.notres, p⟩
    | (some e, t) =>
      let key := homeKey t e va
      if pageAllows t e key (!write) write then .ok key t else .trap ⟨.perm, p⟩

/-- Is the die of a home slice relocking, so that what is for it waits (R400)?  The host agent's is the I/O die. -/
def relocking (s : State) (slice : Nat) : Bool := decide (slice < 256) && (dieAt s (slice / 64)).relock.isSome

/-- May an access reach the home of a line now?  A page whose bias is flipping waits, and a line of the
host agent waits for the host's grant, and while it is recalled for a snoop. -/
def homeReady (s : State) (key : Nat) (write : Bool) : Option Wait :=
  if relocking s (placeOf s key).1 then some (.relock ((placeOf s key).1 / 64))
  else if flipping s key then some .bias
  else if atHostAgent s key then
    (let h := hostLineOf s key
     if s.homes.snooped.contains (key / 128 * 128) then some (.hostLine (key / 128 * 128) write)
     else if (if write then agentWrites h else agentReads h) then none else some (.hostLine (key / 128 * 128) write))
  else none

/-- Does a home refuse the cluster's messages (R279)?  They wait until it is admitted again. -/
def shunned (s : State) (c : Nat) : Bool := s.homes.dead.contains c

/-- May a cluster read the line at its home now: POISON, or a wait, where it may not. -/
def homeReadable (c : Nat) (p : Word64) (key : Nat) (s : State) : Acc Unit :=
  if shunned s c then .wait .agent
  else
    match homeReady s key false with
    | some w => .wait w
    | none => if s.homes.poison.contains (key / 128 * 128) then .trap ⟨.poison, p⟩ else .ok () s

/-- Bytes of a 128-byte line. -/
def lineBytes (data : BitVec 1024) (va n : Nat) : Nat := (data.extractLsb' (8 * (va % 128)) (8 * n)).toNat

/-- Note the use of a line, but for the STREAM policy (R161). -/
def touchLine (c policy : Nat) (l : Line) (s : State) : State :=
  putLine c { l with used := if policy = 1 then l.used else s.steps } s

/-- A plain read of `n` bytes within one line.  Policy: 0 WB, 1 STREAM, 2 UC.  A copy that the context may use serves
the read under every policy (R218, R260); a UC read takes the cluster's own dirty bytes over those of the home.
DEDUCED, unsafe (log entry 84). -/
def globalRead (w : Who) (p : Word64) (va n policy : Nat) (s : State) : Acc Nat :=
  (resolve w p va false s).bind fun key s =>
  let c := clusterOf w.ctx
  let cl := clusterAt s c
  let need := rangeMask (va % 128) n
  match lineOf cl w.asid va with
  | some l =>
    if l.mask &&& need = need || (l.present && tagValid cl.v l.v (ctxOf s w.ctx).floor) then
      if l1Poisoned s (lineKey s c l + va % 128) n then .trap ⟨.poison, p⟩
      else .ok (lineBytes (lineData s c l) va n) (touchLine c policy l s)
    else
      (homeReadable c p key s).bind fun _ s =>
      let v := lineBytes (mergedLine s c l) va n
      if policy = 2 then .ok v s
      else
        let f := fillLine c cl.v l s
        .ok v (touchLine c policy f.2 f.1)
  | none =>
    (homeReadable c p key s).bind fun _ s =>
    if policy = 2 ∨ allocFrames cl = 0 then .ok (homeReadN s key n) s
    else
      let sl := allocLine c w.asid va key policy s
      let f := fillLine c cl.v sl.2 sl.1
      .ok (homeReadN s key n) (touchLine c policy f.2 f.1)

/-- Is a context of the cluster parked in MONW on the line (R163)? -/
def monwHere (s : State) (c line : Nat) : Bool :=
  s.homes.reqs.any (fun r => r.watching && clusterOf r.ctx == c && r.pa / 128 * 128 == line)

/-- The data of a line after a write of `n` bytes. -/
def patched (data : BitVec 1024) (va n v : Nat) : BitVec 1024 :=
  mergeBytes (rangeMask (va % 128) n) (BitVec.ofNat 1024 (v * 2 ^ (8 * (va % 128)))) data

/-- A UC write has reached the home: the bytes of the cluster's own copy follow it and are dirty no more (R143). -/
def patchLine (c asid va n v : Nat) (s : State) : State :=
  match lineOf (clusterAt s c) asid va with
  | none => s
  | some l =>
    let m := { l with mask := l.mask &&& ~~~rangeMask (va % 128) n }
    let s := setData c l (patched (lineData s c l) va n v) s
    if m.mask = 0 ∧ m.present = false then dropLine c asid va s else putLine c m s

/-- Perform a plain write of `n` bytes in the cluster copy (R267). -/
def cacheWrite (w : Who) (va n v policy key : Nat) (s : State) : State :=
  let c := clusterOf w.ctx
  let s := logGlobal w va key s
  let held := lineOf (clusterAt s c) w.asid va
  if policy = 2 ∨ (allocFrames (clusterAt s c) = 0 ∧ held.isNone) then patchLine c w.asid va n v (homeWriteN key n v s)
  else
    let (s, l) := match held with
      | some l => (s, l)
      | none => allocLine c w.asid va key policy s
    let whole := (List.range 16).filter (fun i => decide (va % 128 ≤ 8 * i) && decide (8 * i + 8 ≤ va % 128 + n))
    let s := cleanWords c l whole (setData c l (patched (lineData s c l) va n v) s)
    let l := { l with
      e := if l.mask = 0 then (clusterAt s c).e else l.e
      mask := l.mask ||| rangeMask (va % 128) n
      used := if policy = 1 then l.used else s.steps }
    let s := putLine c l s
    if monwHere s c l.home then writebackLine c l s else s

/-- Must a plain write wait: for the page's bias flip, for the host's grant, or for the re-admission of its cluster, whose
write-backs no home accepts (R279)? -/
def writeWait (s : State) (c key : Nat) : Option Wait := if shunned s c then some .agent else homeReady s key true

/-- A plain write of `n` bytes within one line, performed at once. -/
def globalWrite (w : Who) (p : Word64) (va n v policy : Nat) (s : State) : Acc Unit :=
  (resolve w p va true s).bind fun key s =>
  match writeWait s (clusterOf w.ctx) key with
  | some x => .wait x
  | none => .ok () (cacheWrite w va n v policy key s)

/-- Has the context a cross-cluster hand-off whose drain has not returned (R219)?  A GLOBAL access then
waits. -/
def handoffWait (s : State) (id : Nat) : Bool := (ctxOf s id).handoff != []

end Sys2Proof.Machine
end

