-- ==== Sys2Proof/Machine/Operands.lean ====
section
/-!
DEFINITION. Every operand form: immediates and displacements with IMMX (R65, R97, R201), effective
addresses (R148), the typed conversions of R55, the rounding mode (R126, R137), hints used up by an
instruction (R64), and the plain loads and stores through the store buffer (R144, R145, R380).
-/

namespace Sys2Proof.Machine

open Sys2Proof

/-! ### Immediates (R65) -/

/-- The payloads of the IMMX words, highest first, above a field. -/
def payloads : List (BitVec 23) → Nat
  | [] => 0
  | p :: ps => p.toNat * 2 ^ (23 * ps.length) + payloads ps

/-- A field of width `w` with the IMMX words before it: the concatenation sign-extended, or, without
IMMX, the field sign- or zero-extended. -/
def widenWith (ps : List (BitVec 23)) (w f : Nat) (signed : Bool) : Int :=
  match ps with
  | [] => if signed then sext f w else ((f : Nat) : Int)
  | _ => sext (payloads ps * 2 ^ w + f) (w + 23 * ps.length)

/-- The sign-extended immediate of the instruction in progress. -/
def immS (s : State) (w f : Nat) : Int := widenWith s.cur.a.immx w f true

/-- The zero-extended immediate of the instruction in progress. -/
def immZ (s : State) (w f : Nat) : Int := widenWith s.cur.a.immx w f false

/-! ### Effective addresses (R148) -/

/-- EA(x, disp, s). -/
def effAddr (x : Word64) (disp : Int) (scale : Nat) : Except Trap Word64 :=
  let o := (ov x : Int) + disp * scale
  if o < 0 ∨ 2 ^ 54 ≤ o then .error ⟨.bounds, x⟩ else .ok (mkPtr (hv x) o.toNat)

/-- The effective address of a format M member. -/
def ea (s : State) (a : Reg) (disp : BitVec 10) (scale : Nat) : Except Trap Word64 :=
  effAddr (rd s a) (immS s 10 disp.toNat) scale

/-! ### Typed conversions (R55) -/

/-- size(fmt). -/
def fmtSize (f : Nat) : Nat :=
  match f with
  | 0 | 1 | 10 | 13 => 1
  | 2 | 3 | 7 | 9 | 11 | 14 => 2
  | 4 | 5 | 8 | 12 => 4
  | _ => 8

/-- TMR.frm and TMR.sat of the issuing context (R23). -/
def frm (s : State) : Nat := fieldOf s.cur.a.sr.tmr 0 2
def satMode (s : State) : Bool := bitOf s.cur.a.sr.tmr 2

/-- The rounding mode of a field: 0 to 3 static, 7 TMR.frm (R126, R137). -/
def roundMode (s : State) (r : BitVec 3) : Nat := if r = 7 then frm s else r.toNat

/-- LoadConv(fmt, raw): the register value and AFL bits. -/
def loadConv (f raw : Nat) : Word64 × Nat :=
  match f with
  | 1 | 10 => (wrap64 (sext raw 8), 0)
  | 3 | 11 => (wrap64 (sext raw 16), 0)
  | 5 | 12 => (wrap64 (sext raw 32), 0)
  | 7 => (nat64 (ofBf16 raw).1, (ofBf16 raw).2)
  | 9 => (nat64 (ofFixed (sext raw 16) 15 0).1, 0)
  | _ => (nat64 raw, 0)

/-- StoreConv(fmt, g): the bytes to store and AFL bits, with a rounding mode. -/
def storeConv (mode f : Nat) (g : Word64) : Nat × Nat :=
  let x := g.toNat
  match f with
  | 0 | 1 => (x % 2 ^ 8, 0)
  | 2 | 3 => (x % 2 ^ 16, 0)
  | 4 | 5 | 8 => (x % 2 ^ 32, 0)
  | 7 => toBf16 mode x
  | 9 => let r := toFixed (f32 x) 15 16 false true mode; (wrapN r.1 16, r.2)
  | 10 => let r := satI (sext x 64) 8; (wrapN r.1 8, r.2)
  | 11 => let r := satI (sext x 64) 16; (wrapN r.1 16, r.2)
  | 12 => let r := satI (sext x 64) 32; (wrapN r.1 32, r.2)
  | 13 => let r := satN (sext x 64) 8; (wrapN r.1 8, r.2)
  | 14 => let r := satN (sext x 64) 16; (wrapN r.1 16, r.2)
  | _ => (x, 0)

/-! ### Hints used up (R64) -/

/-- The policy of a GLOBAL access: a STREAM hint, else the handle's. -/
def policyOf (s : State) (e : HandleEntry) : Nat := s.cur.stream.getD e.policy

/-- A memory instruction completes and uses up a STREAM hint. -/
def memDone (s : State) : Out :=
  .next { retire s with cur := { (retire s).cur with stream := none } }

/-! ### The store buffer (R144) -/

/-- Do two byte ranges overlap?  Does the first lie in the second? -/
def overlaps (a n b m : Nat) : Bool := decide (a < b + m) && decide (b < a + n)
def within (a n b m : Nat) : Bool := decide (b ≤ a) && decide (a + n ≤ b + m)

/-- Is a buffered store to the space and ASID of an access? -/
def sameSpace (glob : Bool) (asid : Nat) (x : SBEntry) : Bool := x.isGlobal == glob && (!glob || x.asid == asid)

/-- The word of L1 that a buffered store writes: its own, or that of a line which the cluster holds (R257). -/
def storeKey (s : State) (x : SBEntry) : Option Nat :=
  if x.isGlobal then
    let c := clusterOf x.ctx
    (lineOf (clusterAt s c) x.asid x.addr).map (fun l => lineKey s c l + x.addr % 128)
  else some x.addr

/-- A store is served at the bank of its word; one of 16 bytes takes the odd bank's cycle with it (R251). -/
def storeTurn (x : SBEntry) (s : State) : State :=
  match storeKey s x with
  | none => s
  | some k =>
    let s := takeBank k (coreOf x.ctx) 0 s
    if x.size = 16 then reserve (k / 16 * 16 + 8) (bankCyc s (bankOf s k)) .busy s else s

/-- A buffered store is performed at its bank or at the cluster copy. -/
def performStore (x : SBEntry) (s : State) : State :=
  let c := ctxOf s x.ctx
  let s := storeTurn x s
  if x.isGlobal then
    cacheWrite { ctx := x.ctx, asid := x.asid, launch := c.bind.launch } x.addr x.size x.data x.policy x.home s
  else l1Write c.bind.launch x.addr x.size x.data s

/-- Perform some buffered stores, oldest first. -/
def performStores : List SBEntry → State → State
  | [], s => s
  | x :: xs, s => performStores xs (performStore x s)

/-- The entries of one context that satisfy `f`, and the older ones that overlap them (R143); oldest first. -/
def neededOf (f : SBEntry → Bool) : List SBEntry → List SBEntry
  | [] => []
  | x :: xs =>
    let out := neededOf f xs
    if f x || out.any (fun y => sameSpace y.isGlobal y.asid x && overlaps y.addr y.size x.addr x.size) then x :: out else out

/-- The buffered stores of a context. -/
def ownStores (s : State) (id : Nat) : List SBEntry := (coreAt s (coreOf id)).sbuf.filter (fun x => x.ctx == id)

/-- Must a buffered store stay: for its page's bias flip, for the host's grant, or for its cluster's re-admission? -/
def lineStuck (s : State) (x : SBEntry) : Bool :=
  x.isGlobal && (writeWait s (clusterOf x.ctx) x.home).isSome

/-- Must a buffered store stay now: for one of these, or because the bank of its word is not free (R248, R254)? -/
def stuckStore (s : State) (x : SBEntry) : Bool :=
  lineStuck s x || (match storeKey s x with
    | some k => !bankFree s k
    | none => false)

/-- Do two of some stores go to a bank at which operations wait, so that a retry pass may come between them (R254)? -/
def storesClash (s : State) : List SBEntry → Bool
  | [] => false
  | x :: xs =>
    (!x.isGlobal && (bankAt s (bankOf s x.addr)).waiters != [] &&
      xs.any (fun y => !y.isGlobal && bankOf s y.addr == bankOf s x.addr)) || storesClash s xs

/-- Must one of the stores stay that a drain of `f` performs? -/
def ownStuck (s : State) (id : Nat) (f : SBEntry → Bool) : Bool :=
  let out := neededOf f (ownStores s id)
  out.any (stuckStore s) || storesClash s out

/-- Perform the context's own buffered stores that satisfy `f`, and the older ones that overlap them; whoever drains has seen
that none of them must stay. -/
def drainOwn (id : Nat) (f : SBEntry → Bool) (s : State) : State :=
  let k := coreAt s (coreOf id)
  let out := neededOf f (ownStores s id)
  if out = [] then s
  else performStores out (putCore { k with sbuf := k.sbuf.filter (fun x => !out.contains x) } s)

/-- The sibling stores that a context has read early and that satisfy `f`. -/
def seenStores (s : State) (id : Nat) (f : SBEntry → Bool) : List SBEntry :=
  (coreAt s (coreOf id)).sbuf.filter (fun x => x.seen.contains id && f x)

/-- Perform each of some sibling stores, with the older stores of its context that overlap it. -/
def drainEach : List SBEntry → State → State
  | [], s => s
  | x :: xs, s => drainEach xs (drainOwn x.ctx (fun y => y == x) s)

/-- The sibling stores that a context has read early and that satisfy `f` are performed: a release follows what its
context has read, and a later access to the same bytes may not read or write behind them (R213, R216). -/
def drainSeen (id : Nat) (f : SBEntry → Bool) (s : State) : State := drainEach (seenStores s id f) s

/-- The stores that an access waits for: those read early that satisfy `f`, and the own ones. -/
def drainList (s : State) (id : Nat) (f : SBEntry → Bool) : List SBEntry :=
  (((seenStores s id f).map (fun x => neededOf (fun y => y == x) (ownStores s x.ctx))).flatten ++
    neededOf f (ownStores s id)).eraseDups

/-- Must a store stay that an access waits for? -/
def drainStuck (s : State) (id : Nat) (f : SBEntry → Bool) : Bool :=
  (drainList s id f).any (stuckStore s) || storesClash s (drainList s id f)

/-- Every buffered store of a context is performed. -/
def drainAllOwn (id : Nat) (s : State) : State := drainOwn id (fun _ => true) s

/-- Before a release, every store of the context, and every one it has read early, is performed. -/
def drainRelease (id : Nat) (s : State) : State := drainAllOwn id (drainSeen id (fun _ => true) s)

/-- Does a buffered store overlap a range? -/
def meets (glob : Bool) (asid addr n : Nat) (x : SBEntry) : Bool := sameSpace glob asid x && overlaps addr n x.addr x.size

/-- The stores of the context, or read early by it, that overlap a range are performed.
DESIGN CHOICE, safe (log entry 7). -/
def drainOverlap (glob : Bool) (asid addr n : Nat) (s : State) : State :=
  drainOwn s.cur.id (meets glob asid addr n) (drainSeen s.cur.id (meets glob asid addr n) s)

/-- Must one of them stay, so that the access waits? -/
def overlapStuck (s : State) (glob : Bool) (asid addr n : Nat) : Bool := drainStuck s s.cur.id (meets glob asid addr n)

/-- The access of the issuing context: a result of the access type, after the stores that overlap it are performed. -/
def afterOverlap {α : Type} (glob : Bool) (asid addr n : Nat) (s : State) (k : State → Acc α) : Acc α :=
  if overlapStuck s glob asid addr n then .wait (.buffer false glob asid addr n) else k (drainOverlap glob asid addr n s)

/-- Enter a store in the buffer; a full buffer makes the context wait. -/
def bufferStore (x : SBEntry) (s : State) : Acc Unit :=
  let f := meets x.isGlobal x.asid x.addr x.size
  if drainStuck s x.ctx (fun y => y.ctx != x.ctx && f y) || decide (16 ≤ (coreAt s (coreOf x.ctx)).sbuf.length) then
    .wait (.buffer true x.isGlobal x.asid x.addr x.size)
  else
    let s := drainSeen x.ctx f s
    let k := coreAt s (coreOf x.ctx)
    .ok () (putCore { k with sbuf := k.sbuf ++ [x] } s)

/-- What a load finds in the store buffer. -/
inductive Found where
  /-- its bytes, from an own store or, early, from a sibling store -/
  | value (v : Nat) (s : State)
  /-- nothing: memory is read -/
  | memory (s : State)
  /-- stores that must be performed first and have to stay -/
  | stuck

/-- Note that a context has read a sibling store early. -/
def markSeen (id : Nat) (x : SBEntry) (s : State) : State :=
  let k := coreAt s (coreOf id)
  putCore { k with sbuf := k.sbuf.map (fun y => if y == x then { y with seen := addOnce id y.seen } else y) } s

/-- The stores read early that satisfy `f` are performed, and memory is read. -/
def seenFirst (id : Nat) (f : SBEntry → Bool) (s : State) : Found :=
  if (seenStores s id f).any (fun x => ownStuck s x.ctx (fun y => y == x)) then .stuck else .memory (drainSeen id f s)

/-- Look a load up in the store buffer (R144). -/
def bufferLoad (glob : Bool) (asid addr n : Nat) (s : State) : Found :=
  let f := meets glob asid addr n
  let hit := (myCore s).sbuf.reverse.filter f
  let take := fun (x : SBEntry) => x.data / 2 ^ (8 * (addr - x.addr)) % 2 ^ (8 * n)
  match hit.filter (fun x => x.ctx == s.cur.id) with
  | x :: _ =>
    if within addr n x.addr x.size then .value (take x) s
    else if overlapStuck s glob asid addr n then .stuck
    else .memory (drainOverlap glob asid addr n s)
  | [] =>
    match hit.filter (fun x => within addr n x.addr x.size) with
    | [] => seenFirst s.cur.id f s
    | x :: _ =>
      if Config.earlySibling s.fresh then
        (match seenFirst s.cur.id (fun y => f y && y != x) (useFree s) with
          | .memory t => .value (take x) (markSeen s.cur.id x t)
          | r => r)
      else seenFirst s.cur.id f (useFree s)

/-! ### IO (R145) -/

/-- The context's held stores are sent, in program order. -/
def ioSend (s : State) : State :=
  let l := myLaunch s
  let mine := l.held.filter (fun x => x.ctx == s.cur.id)
  if mine = [] then s
  else
    let s := putLaunch { l with held := l.held.filter (fun x => x.ctx != s.cur.id) } s
    { s with host := { s.host with ioSent := mine.reverse ++ s.host.ioSent } }

/-- An IO store: held until the step commits; in a non-rollbackable step it is sent at once, after the context's earlier
ones. -/
def ioStore (addr n v : Nat) (s : State) : State :=
  let x : IoStore := { ctx := s.cur.id, addr := addr, size := n, data := v }
  let l := myLaunch s
  if l.nonRollback then
    let s := ioSend s
    { s with host := { s.host with ioSent := x :: s.host.ioSent } }
  else putLaunch { l with held := l.held ++ [x] } s

/-- Before an IO load that follows an IO store of its step, the context's held stores are sent and the step becomes
non-rollbackable. -/
def ioFlush (s : State) : State :=
  if (myLaunch s).held.any (fun x => x.ctx == s.cur.id) then
    ioSend (putLaunch { myLaunch s with nonRollback := true } s)
  else s

/-- The bytes that an IO load reads: free ones (log entry 5). -/
def ioBytes (s : State) (addr n : Nat) : Nat :=
  ((Config.ioLoad s.fresh addr).toNat + 2 ^ 64 * (Config.ioLoad (s.fresh + 1) (addr + 8)).toNat) % 2 ^ (8 * n)

/-! ### Plain loads and stores -/

/-- Post a PCIe request and park for its completion (R380-R382); requests are numbered. -/
def postPcie (r : HomeReq) (s : State) : State :=
  park .pcie { s with
    host := { s.host with pcie := s.host.pcie ++ [(s.fresh, r)] }
    fresh := s.fresh + 1 }

/-- The host port that an access to a page that is not coherent goes to. -/
def portKey (key : Nat) : Nat := key / 2 ^ 59 % 2

/-- Ports that a context has written to without coherence since its last FENCE.SYS (R382). -/
def notePort (port : Nat) (s : State) : State := { s with cur := { s.cur with ports := addOnce port s.cur.ports } }

/-- Has the context an outstanding release on the line (R142, R143)? -/
def ownRelease (s : State) (id line : Nat) : Bool :=
  s.homes.reqs.any (fun r => r.ctx == id && r.pa / 128 * 128 == line / 128 * 128)

/-- Has the context an outstanding release at all, or a buffered store that has to stay? -/
def releasePending (s : State) (id : Nat) : Bool :=
  s.homes.reqs.any (fun r => r.ctx == id) || drainStuck s id (fun _ => true)

/-- A plain load of `n` bytes through a checked pointer.  A page that is not coherent is read by a PCIe
request (R380), whose completion writes the register that the request names.
DEDUCED, unsafe (log entry 14). -/
def plainLoad (p : Word64) (e : HandleEntry) (n : Nat) (dest : HomeOp) (s : State) : Acc Nat :=
  match e.space with
  | 0 =>
    match placeLocal s p e with
    | .error t => .trap t
    | .ok key =>
      match bufferLoad false 0 key n s with
      | .value v s => .ok v s
      | .memory s => Acc.ofCheck (l1Read s p key n) s
      | .stuck => .wait (.buffer false false 0 key n)
  | 1 =>
    if handoffWait s s.cur.id then .wait .handoff
    else
      let va := vaOf e p
      (resolve (me s) p va false s).bind fun key s =>
      if nonCoherent key then
        .later (postPcie { ctx := s.cur.id, ptr := p, asid := s.cur.bind.asid, va := va, size := n, op := dest
                           acq := false, rel := false, pa := key } s)
      else if ownRelease s s.cur.id key then .wait .releases
      else
        match bufferLoad true s.cur.bind.asid va n s with
        | .value v s => .ok v s
        | .memory s => globalRead (me s) p va n (policyOf s e) s
        | .stuck => .wait (.buffer false true s.cur.bind.asid va n)
  | _ =>
    let s := ioFlush s
    .ok (ioBytes s (e.base + ov p) n) (useFree (useFree s))

/-- A plain store of `n` bytes through a checked pointer.
DEDUCED, safe (log entry 16). -/
def plainStore (p : Word64) (e : HandleEntry) (n v : Nat) (s : State) : Acc Unit :=
  match e.space with
  | 0 =>
    match placeLocal s p e with
    | .error t => .trap t
    | .ok key => bufferStore { ctx := s.cur.id, isGlobal := false, asid := 0, addr := key, size := n, data := v, policy := 0 } s
  | 1 =>
    if handoffWait s s.cur.id then .wait .handoff
    else
      let va := vaOf e p
      (resolve (me s) p va true s).bind fun key s =>
      if nonCoherent key then
        let s := notePort (portKey key) (logGlobal (me s) va key s)
        .ok () (homeWriteN key n v
          { s with host := { s.host with posted := (key / 2 ^ 59, key % 2 ^ 59, n, v) :: s.host.posted } })
      else if ownRelease s s.cur.id key then .wait .releases
      else
        let policy := policyOf s e
        if policy = 2 then
          match writeWait s (myCluster s) key with
          | some w => .wait w
          | none =>
            afterOverlap true s.cur.bind.asid va n s fun s => .ok () (cacheWrite (me s) va n v policy key s)
        else
          bufferStore { ctx := s.cur.id, isGlobal := true, asid := s.cur.bind.asid, addr := va, size := n, data := v
                        policy := policy, home := key } s
  | _ => .ok () (ioStore (e.base + ov p) n v s)

end Sys2Proof.Machine
end

