-- ==== Sys2Proof/Machine/Int.lean ====
section
/-!
DEFINITION. Integer, immediate, shift, bit-field and pointer instructions (R89-R104).
-/

namespace Sys2Proof.Machine

open Sys2Proof

/-- Write a result and go on at the next word. -/
def put (d : Reg) (v : Word64) (s : State) : Out := done (wr d v s)

/-- Write a result, set flags, and go on at the next word. -/
def putF (d : Reg) (r : Word64 × Nat) (s : State) : Out := done (addFlags r.2 (wr d r.1 s))

/-- Write a checked result, or take the fault of the check. -/
def putE (d : Reg) (e : Except Trap Word64) (s : State) : Out := orTrap s e fun v => put d v s

/-- 1 or 0. -/
def flag64 (b : Bool) : Word64 := if b then 1 else 0

/-! ### Addition, logic, shift, comparison (R90) -/

def execAdd (d a b : Reg) (s : State) : Out := put d (rd s a + rd s b) s
def execSub (d a b : Reg) (s : State) : Out := put d (rd s a - rd s b) s
def execAnd (d a b : Reg) (s : State) : Out := put d (rd s a &&& rd s b) s
def execOr (d a b : Reg) (s : State) : Out := put d (rd s a ||| rd s b) s
def execXor (d a b : Reg) (s : State) : Out := put d (rd s a ^^^ rd s b) s
def execAndn (d a b : Reg) (s : State) : Out := put d (rd s a &&& ~~~(rd s b)) s

/-- The shifts of R90 by `n` below 64. -/
def sll64 (x : Word64) (n : Nat) : Word64 := x <<< n
def srl64 (x : Word64) (n : Nat) : Word64 := x >>> n
def sra64 (x : Word64) (n : Nat) : Word64 := x.sshiftRight n
def ror64 (x : Word64) (n : Nat) : Word64 := x.rotateRight n

/-- The amount of a 64-bit shift. -/
def amt (y : Word64) : Nat := y.toNat % 64

def execSll (d a b : Reg) (s : State) : Out := put d (sll64 (rd s a) (amt (rd s b))) s
def execSrl (d a b : Reg) (s : State) : Out := put d (srl64 (rd s a) (amt (rd s b))) s
def execSra (d a b : Reg) (s : State) : Out := put d (sra64 (rd s a) (amt (rd s b))) s
def execRor (d a b : Reg) (s : State) : Out := put d (ror64 (rd s a) (amt (rd s b))) s
def execSlt (d a b : Reg) (s : State) : Out := put d (flag64 ((rd s a).slt (rd s b))) s
def execSltn (d a b : Reg) (s : State) : Out := put d (flag64 ((rd s a).ult (rd s b))) s
def execSeq (d a b : Reg) (s : State) : Out := put d (flag64 (rd s a == rd s b)) s
def execMin (d a b : Reg) (s : State) : Out :=
  put d (if (rd s b).slt (rd s a) then rd s b else rd s a) s
def execMax (d a b : Reg) (s : State) : Out :=
  put d (if (rd s a).slt (rd s b) then rd s b else rd s a) s
def execMinn (d a b : Reg) (s : State) : Out :=
  put d (if (rd s b).ult (rd s a) then rd s b else rd s a) s
def execMaxn (d a b : Reg) (s : State) : Out :=
  put d (if (rd s a).ult (rd s b) then rd s b else rd s a) s

/-! ### Multiplication and division (R91, R92) -/

def execMul (d a b : Reg) (s : State) : Out := put d (rd s a * rd s b) s
def execMulh (d a b : Reg) (s : State) : Out :=
  put d (wrap64 ((rd s a).toInt * (rd s b).toInt / 2 ^ 64)) s
def execMulhn (d a b : Reg) (s : State) : Out :=
  put d (nat64 ((rd s a).toNat * (rd s b).toNat / 2 ^ 64)) s

/-- The quotient of width `n` with its flags. -/
def quotient (n : Nat) (u v : Int) : Word64 × Nat :=
  let r := divide n u v
  (divResult n r.1, flagIf r.2.2.1 fDZ + flagIf r.2.2.2 fOV)

/-- The remainder of width `n` with its flag. -/
def remainder (n : Nat) (u v : Int) : Word64 × Nat :=
  let r := divide n u v
  (divResult n r.2.1, flagIf r.2.2.1 fDZ)

def execDiv (d a b : Reg) (s : State) : Out := putF d (quotient 64 (rd s a).toInt (rd s b).toInt) s
def execDivn (d a b : Reg) (s : State) : Out := putF d (quotient 64 (rd s a).toNat (rd s b).toNat) s
def execRem (d a b : Reg) (s : State) : Out := putF d (remainder 64 (rd s a).toInt (rd s b).toInt) s
def execRemn (d a b : Reg) (s : State) : Out := putF d (remainder 64 (rd s a).toNat (rd s b).toNat) s

/-! ### Bit counts (R94) -/

/-- Leading and trailing zero bits, one bits. -/
def clz64 (x : Word64) : Nat := 64 - bitLen x.toNat
def ctz64 (x : Word64) : Nat := if x = 0 then 64 else bitLen (x &&& -x).toNat - 1
def popc64 (x : Word64) : Nat := ((List.range 64).filter (fun i => x.getLsbD i)).length
/-- Bytes in reverse order. -/
def bswap64 (x : Word64) : Word64 := nat64 (ofBytes (toBytes x.toNat 8).reverse)

def execClz (d a : Reg) (s : State) : Out := put d (nat64 (clz64 (rd s a))) s
def execCtz (d a : Reg) (s : State) : Out := put d (nat64 (ctz64 (rd s a))) s
def execPopc (d a : Reg) (s : State) : Out := put d (nat64 (popc64 (rd s a))) s
def execBrev (d a : Reg) (s : State) : Out := put d (rd s a).reverse s
def execBswap (d a : Reg) (s : State) : Out := put d (bswap64 (rd s a)) s

/-! ### W forms (R95) -/

/-- The low 32 bits, and Sext(result, 32). -/
def lo32 (x : Word64) : BitVec 32 := x.setWidth 32
def putW (d : Reg) (v : BitVec 32) (s : State) : Out := put d (v.signExtend 64) s

def execAddw (d a b : Reg) (s : State) : Out := putW d (lo32 (rd s a) + lo32 (rd s b)) s
def execSubw (d a b : Reg) (s : State) : Out := putW d (lo32 (rd s a) - lo32 (rd s b)) s
def execMulw (d a b : Reg) (s : State) : Out := putW d (lo32 (rd s a) * lo32 (rd s b)) s

/-- The shifts of R95 by `n` below 32. -/
def sll32 (x : Word64) (n : Nat) : BitVec 32 := lo32 x <<< n
def srl32 (x : Word64) (n : Nat) : BitVec 32 := lo32 x >>> n
def sra32 (x : Word64) (n : Nat) : BitVec 32 := (lo32 x).sshiftRight n

/-- The amount of a 32-bit shift. -/
def amtW (y : Word64) : Nat := y.toNat % 32

def execSllw (d a b : Reg) (s : State) : Out := putW d (sll32 (rd s a) (amtW (rd s b))) s
def execSrlw (d a b : Reg) (s : State) : Out := putW d (srl32 (rd s a) (amtW (rd s b))) s
def execSraw (d a b : Reg) (s : State) : Out := putW d (sra32 (rd s a) (amtW (rd s b))) s
def execDivw (d a b : Reg) (s : State) : Out :=
  putF d (quotient 32 (lo32 (rd s a)).toInt (lo32 (rd s b)).toInt) s
def execRemw (d a b : Reg) (s : State) : Out :=
  putF d (remainder 32 (lo32 (rd s a)).toInt (lo32 (rd s b)).toInt) s

/-! ### INT4 (R96) -/

def execCsel (d a b c : Reg) (s : State) : Out := put d (if rd s c ≠ 0 then rd s a else rd s b) s
def execMadd (d a b c : Reg) (s : State) : Out := put d (rd s a * rd s b + rd s c) s
def execMsub (d a b c : Reg) (s : State) : Out := put d (rd s c - rd s a * rd s b) s
def execFunnel (d a b c : Reg) (s : State) : Out :=
  put d (((rd s a ++ rd s b) >>> ((rd s c).toNat % 64)).setWidth 64) s

/-! ### Immediates (R97, R98) -/

def execAddi (d a : Reg) (i : BitVec 16) (s : State) : Out := put d (rd s a + wrap64 (immS s 16 i.toNat)) s
def execAndi (d a : Reg) (i : BitVec 16) (s : State) : Out := put d (rd s a &&& wrap64 (immZ s 16 i.toNat)) s
def execOri (d a : Reg) (i : BitVec 16) (s : State) : Out := put d (rd s a ||| wrap64 (immZ s 16 i.toNat)) s
def execXori (d a : Reg) (i : BitVec 16) (s : State) : Out := put d (rd s a ^^^ wrap64 (immZ s 16 i.toNat)) s
def execSlti (d a : Reg) (i : BitVec 16) (s : State) : Out :=
  put d (flag64 (decide ((rd s a).toInt < immS s 16 i.toNat))) s
def execSltni (d a : Reg) (i : BitVec 16) (s : State) : Out :=
  put d (flag64 ((rd s a).ult (wrap64 (immS s 16 i.toNat)))) s
def execLui (d : Reg) (i : BitVec 16) (s : State) : Out := put d (wrap64 (immS s 16 i.toNat * 2 ^ 16)) s

/-! ### SHI (R99) -/

def execSlli (d a : Reg) (n : BitVec 6) (s : State) : Out := put d (sll64 (rd s a) n.toNat) s
def execSrli (d a : Reg) (n : BitVec 6) (s : State) : Out := put d (srl64 (rd s a) n.toNat) s
def execSrai (d a : Reg) (n : BitVec 6) (s : State) : Out := put d (sra64 (rd s a) n.toNat) s
def execRori (d a : Reg) (n : BitVec 6) (s : State) : Out := put d (ror64 (rd s a) n.toNat) s
def execSllwi (d a n : BitVec 5) (s : State) : Out := putW d (sll32 (rd s a) n.toNat) s
def execSrlwi (d a n : BitVec 5) (s : State) : Out := putW d (srl32 (rd s a) n.toNat) s
def execSrawi (d a n : BitVec 5) (s : State) : Out := putW d (sra32 (rd s a) n.toNat) s

/-! ### BF (R100) -/

/-- The field f: `len` bits of x from `pos`. -/
def bitField (x : Word64) (pos len : Nat) : Nat := x.toNat / 2 ^ pos % 2 ^ len

/-- BFI: insert the low `len` bits of y into x at `pos`. -/
def insertField (x y : Word64) (pos len : Nat) : Word64 :=
  let m := nat64 ((2 ^ len - 1) * 2 ^ pos)
  (x &&& ~~~m) ||| nat64 (y.toNat % 2 ^ len * 2 ^ pos)

def execBfx (d a : Reg) (p l : BitVec 6) (s : State) : Out :=
  put d (wrap64 (sext (bitField (rd s a) p.toNat (l.toNat + 1)) (l.toNat + 1))) s
def execBfxn (d a : Reg) (p l : BitVec 6) (s : State) : Out :=
  put d (nat64 (bitField (rd s a) p.toNat (l.toNat + 1))) s
def execBfi (d a : Reg) (p l : BitVec 6) (s : State) : Out :=
  put d (insertField (rd s d) (rd s a) p.toNat (l.toNat + 1)) s

/-! ### PTR and ADDPI (R101-R104) -/

/-- A pointer moved by an exact amount (R29). -/
def movePtr (x : Word64) (by_ : Int) : Except Trap Word64 :=
  let o := (ov x : Int) + by_
  if o < 0 ∨ 2 ^ 54 ≤ o then .error ⟨.bounds, x⟩ else .ok (mkPtr (hv x) o.toNat)

/-- MKP's checks. -/
def makePtr (x y : Word64) : Except Trap Word64 :=
  if 1024 ≤ x.toNat then .error ⟨.bounds, x⟩
  else if 2 ^ 54 ≤ y.toNat then .error ⟨.bounds, y⟩
  else .ok (mkPtr x.toNat y.toNat)

/-- SUBP's check.
DEDUCED, unsafe (log entry 95). -/
def ptrDiff (x y : Word64) : Except Trap Word64 :=
  if hv x ≠ hv y then .error ⟨.bounds, y⟩ else .ok (wrap64 ((ov x : Int) - (ov y : Int)))

/-- What PCHK reads of an entry. -/
def ptrCheck (e : HandleEntry) (x : Word64) : Word64 :=
  if e.valid = false ∨ e.length < ov x then wrap64 (-1) else nat64 (e.length - ov x)

def execMkp (d a b : Reg) (s : State) : Out := putE d (makePtr (rd s a) (rd s b)) s
def execPhd (d a : Reg) (s : State) : Out := put d (nat64 (hv (rd s a))) s
def execPof (d a : Reg) (s : State) : Out := put d (nat64 (ov (rd s a))) s
def execAddp (d a b : Reg) (s : State) : Out := putE d (movePtr (rd s a) (rd s b).toInt) s
def execSubp (d a b : Reg) (s : State) : Out := putE d (ptrDiff (rd s a) (rd s b)) s
def execPchk (d a : Reg) (s : State) : Out := put d (ptrCheck (entryOf s (rd s a)) (rd s a)) s
def execAddpi (d a : Reg) (i : BitVec 16) (s : State) : Out :=
  putE d (movePtr (rd s a) (immS s 16 i.toNat)) s

end Sys2Proof.Machine
end

