-- ==== Sys2Proof/Machine/Control.lean ====
section
/-!
DEFINITION. Stubs (R62), branches, LOOP, jumps (R105-R110), and the hints (R64-R66, R207).
-/

namespace Sys2Proof.Machine

open Sys2Proof

/-- Execution reaches a stub: ILLEGAL at the group's first word, with the stub's word (R62). -/
def stub (w : Word32) (s : State) : Out := raise .illegal (w.setWidth 64) s

/-- Major 0x00 (R62). -/
def execIllegal (x : BitVec 26) (s : State) : Out := stub (fmtJ 0#6 x) s

/-! ### Branches -/

/-- A conditional branch uses up a BRP hint (R64). -/
def useBrp (s : State) : State := { s with cur := { s.cur with brp := none } }

/-- Branch by a condition (R105): the target is checked only when the branch is taken. -/
def branch (cond : Bool) (x : BitVec 16) (s : State) : Out :=
  if cond then orTrap s (target s (immS s 16 x.toNat)) fun t => .next (useBrp (setPc t s))
  else done (useBrp s)

def execBeq (a b : Reg) (x : BitVec 16) (s : State) : Out := branch (rd s a == rd s b) x s
def execBne (a b : Reg) (x : BitVec 16) (s : State) : Out := branch (rd s a != rd s b) x s
def execBlt (a b : Reg) (x : BitVec 16) (s : State) : Out := branch ((rd s a).slt (rd s b)) x s
def execBge (a b : Reg) (x : BitVec 16) (s : State) : Out := branch (!(rd s a).slt (rd s b)) x s
def execBltn (a b : Reg) (x : BitVec 16) (s : State) : Out := branch ((rd s a).ult (rd s b)) x s
def execBgen (a b : Reg) (x : BitVec 16) (s : State) : Out := branch (!(rd s a).ult (rd s b)) x s

/-- LOOP (R108): the counter is written on both paths, and not by a faulting one. -/
def execLoop (a : Reg) (x : BitVec 16) (s : State) : Out :=
  let v := rd s a - 1
  if v ≠ 0 then orTrap s (target s (immS s 16 x.toNat)) fun t => .next (useBrp (setPc t (wr a v s)))
  else done (useBrp (wr a v s))

/-- The address after the group (R66). -/
def linkAddr (s : State) : Word64 := s.cur.a.pc + 4

def execJmp (x : BitVec 26) (s : State) : Out :=
  orTrap s (target s (immS s 26 x.toNat)) fun t => .next (setPc t s)
def execCall (x : BitVec 26) (s : State) : Out :=
  orTrap s (target s (immS s 26 x.toNat)) fun t => .next (setPc t (wr 1 (linkAddr s) s))
def execJr (a : Reg) (s : State) : Out :=
  orTrap s (checkTarget s (rd s a)) fun _ => .next (setPc (rd s a) s)
def execCallr (a : Reg) (s : State) : Out :=
  orTrap s (checkTarget s (rd s a)) fun _ => .next (setPc (rd s a) (wr 1 (linkAddr s) s))

/-! ### Hints -/

/-- The word at a code address of the running module; none at or beyond the end of the code. -/
def codeWord (s : State) (pc : Nat) : Option Word32 :=
  if pc < codeSize s then some (BitVec.ofNat 32 (s.mem.hbm.readN ((myModule s).codeAt + pc) 4)) else none

/-- The last word of the group that an IMMX at `pc` begins, if the IMMX is well placed (R65): a widenable
word next, or one IMMX and then a widenable word. -/
def groupEnd (s : State) (pc : Nat) : Option Word32 :=
  match codeWord s (pc + 4) with
  | none => none
  | some w =>
    if widenable w then some w
    else if isImmx w then
      match codeWord s (pc + 8) with
      | some v => if widenable v then some v else none
      | none => none
    else none

/-- Is the word a stub for the module that runs (R62, R63)? -/
def isStub (s : State) (w : Word32) : Bool :=
  match memberAt (myModule s).rev w with
  | .ok _ => false
  | .error _ => true

/-- IMMX (R65): its payload joins the group; a misplaced IMMX is a stub, and a group whose widenable word
is a stub is a stub whose fault value is that word (R62). -/
def execImmx (p : BitVec 23) (s : State) : Out :=
  match groupEnd s s.cur.a.pc.toNat with
  | none => stub (fmtH 0#3 p) s
  | some v =>
    if isStub s v then stub v s
    else .next { s with cur := { s.cur with a := { s.cur.a with pc := s.cur.a.pc + 4, immx := s.cur.a.immx ++ [p] } } }

/-- Is the context parked in ALIGN with an identifier? -/
def inAlign (id : Nat) (c : Ctx) : Bool :=
  match c.run with
  | .parked (.align i _) => i == id
  | _ => false

/-- Does the context run a task?  One that is bound and not yet released does not (R311). -/
def hasTask (c : Ctx) : Bool :=
  match c.run with
  | .unbound => false
  | .idle => false
  | .stopped => c.issued
  | _ => true

/-- Has every core of the tile with a task of the module a context parked at the ALIGN (R316)? -/
def alignMet (s : State) (tile module id : Nat) : Bool :=
  let here := (allCtx s).filter (fun c => tileOf c.id == tile && c.bind.module == module && hasTask c)
  here.all (fun c => here.any (fun d => coreOf d.id == coreOf c.id && inAlign id d))

/-- End the ALIGN parks of a tile and module. -/
def alignRelease (tile module id : Nat) (c : Ctx) : Ctx :=
  if tileOf c.id == tile && c.bind.module == module && inAlign id c then { c with run := .running } else c

/-- End the ALIGN parks of an identifier if they are met. -/
def alignMeet (tile module id : Nat) (s : State) : State :=
  if alignMet s tile module id then
    let f := alignRelease tile module id
    { s with cur := f s.cur, others := s.others.map f }
  else s

/-- A core has one task less: the ALIGN parks of its tile and module may be met (R316). -/
def alignSweep (tile module : Nat) (s : State) : State :=
  ((allCtx s).filterMap (fun c => match c.run with
    | .parked (.align i _) => if tileOf c.id == tile && c.bind.module == module then some i else none
    | _ => none)).eraseDups.foldl (fun s i => alignMeet tile module i s) s

/-- ALIGN (R316): parks behind itself for at most 64 cycles, until every core of the tile that runs a task
of the module is parked at the same identifier.  Below revision 3 it is a no-op (R63). -/
def execAlign (i : BitVec 23) (s : State) : Out :=
  if (myModule s).rev < 3 then done s
  else
    .next (alignMeet (tileOf s.cur.id) s.cur.bind.module i.toNat (park (.align i.toNat (cyc s s.cur.id + 64)) (retire s)))

/-- BRP: the probability is kept for the next conditional branch or LOOP. -/
def execBrp (p : BitVec 7) (s : State) : Out :=
  .next { retire s with cur := { (retire s).cur with brp := some p.toNat } }

/-- PRIO: the count of instructions issued ahead of the core's other ready contexts. -/
def execPrio (n : BitVec 5) (s : State) : Out :=
  .next { retire s with cur := { (retire s).cur with prio := n.toNat } }

/-- STREAM: the policy of the next memory instruction; 11 is none. -/
def execStream (p : BitVec 2) (s : State) : Out :=
  .next { retire s with cur := { (retire s).cur with stream := if p = 3 then none else some p.toNat } }

/-- NOPH. -/
def execNoph (_x : BitVec 23) (s : State) : Out := done s

end Sys2Proof.Machine
end

