-- ==== Sys2Proof/Machine/Memory.lean ====
section
/-!
DEFINITION. Loads and stores: LD, LDACQ, ST, STREL (R149), PAIR (R150), BURST (R151), and the posting of
a synchronisation access to its home (R141, R142, R381, R382).
-/

namespace Sys2Proof.Machine

open Sys2Proof

/-! ### Ordering classes (R142) -/

/-- Before an access of the given class: an acquire or release waits for the context's own earlier
releases, and a release first performs every buffered store of the context. -/
def classWait (s : State) (acq rel : Bool) : Bool := (acq || rel) && releasePending s s.cur.id

/-- Perform the stores that an access of the class waits for: all own ones before a release, and the
overlapping ones before any other access. -/
def classDrain (rel glob : Bool) (addr n : Nat) (s : State) : State :=
  if rel then drainRelease s.cur.id s else drainOverlap glob s.cur.bind.asid addr n s

/-- An access of a class to a range: it waits where a store that comes first has to stay, and else goes on when those
stores are performed. -/
def afterDrain (rel glob : Bool) (addr n : Nat) (s : State) (k : State → Out) : Out :=
  if !rel && overlapStuck s glob s.cur.bind.asid addr n then .next (park (.buffer false glob s.cur.bind.asid addr n) s)
  else k (classDrain rel glob addr n s)

/-! ### Synchronisation accesses on GLOBAL -/

/-- The dirty lines of an ASID in a cluster. -/
def dirtyLines (s : State) (c asid : Nat) : List Line :=
  (clusterAt s c).lines.filter (fun l => l.mask != 0 && l.asid == asid)

/-- Write back what the context may have dirtied (R159, R382).
DEDUCED, safe (log entry 15). -/
def writebackDirty (s : State) : State :=
  writebackAll (myCluster s) (dirtyLines s (myCluster s) s.cur.bind.asid) s

/-- Has the operation a PCIe request (R381)? -/
def pcieOp : HomeOp → Bool
  | .rmw op _ _ => op == 0 || op == 8
  | .join => true
  | _ => true

/-- Post a synchronisation access to its home.  The pointer is checked; `r` and `w` are the page
permissions it needs.  STREL (`.store`) sets the flags `fl` of its conversion and goes on; every other
access parks for its answer, and so does a STREL to a page that is not coherent, which sets them as it completes.
DESIGN CHOICE, unsafe (log entry 102). -/
def postHome (p : Word64) (e : HandleEntry) (n : Nat) (op : HomeOp) (acq rel r w : Bool) (fl : Nat) (s : State) : Out :=
  if handoffWait s s.cur.id then .next (park .handoff s)
  else
    let va := vaOf e p
    match translate (myCluster s) s.cur.bind.asid va s with
    | (none, _) => raise .notres p s
    | (some t, s') =>
      let key := homeKey s t va
      if pageAllows s t key r w = false then raise .perm p s
      else
        if nonCoherent key && !pcieOp op then raise .space p s
        else if shunned s (myCluster s) then .next (park .agent s)
        else if classWait s acq rel || ownRelease s s.cur.id key then .next (park .releases s)
        else if overlapStuck s true s.cur.bind.asid va n then .next (park (.buffer false true s.cur.bind.asid va n) s)
        else
          let s := classDrain rel true va n s'
          let place := placeOf s key
          let req : HomeReq := {
            ctx := s.cur.id, ptr := p, asid := s.cur.bind.asid, va := va, size := n, op := op, acq := acq, rel := rel
            pa := key, slice := place.1, set := place.2 }
          if nonCoherent key then
            .next (postPcie { req with zlr := rel, flags := fl } (if rel then writebackDirty s else s))
          else
            let s := exportLine (myCluster s) s.cur.bind.asid va s
            let s := { s with homes := { s.homes with reqs := s.homes.reqs ++ [req] } }
            match op with
            | .store _ => memDone (addFlags fl s)
            | _ => .next (park .home s)

/-! ### LD and ST (R149) -/

/-- A load completes. -/
def loadDone (d : Reg) (f raw : Nat) (s : State) : Out :=
  memDone (addFlags (loadConv f raw).2 (wr d (loadConv f raw).1 s))

def execLd (d a : Reg) (f : BitVec 4) (x : BitVec 10) (s : State) : Out :=
  let n := fmtSize f.toNat
  orTrap s (ea s a x n) fun p =>
  orTrap s (check s p n n .r .any) fun e =>
  (plainLoad p e n (.load d f.toNat) s).andThen s fun raw s => loadDone d f.toNat raw s

def execSt (d a : Reg) (f : BitVec 4) (x : BitVec 10) (s : State) : Out :=
  let n := fmtSize f.toNat
  orTrap s (ea s a x n) fun p =>
  orTrap s (check s p n n .w .any) fun e =>
  let v := storeConv (frm s) f.toNat (rd s d)
  (plainStore p e n v.1 s).andThen s fun _ s => memDone (addFlags v.2 s)

def execLdacq (d a : Reg) (f : BitVec 4) (x : BitVec 10) (s : State) : Out :=
  let n := fmtSize f.toNat
  orTrap s (ea s a x n) fun p =>
  orTrap s (check s p n n .r .localGlobal) fun e =>
  if e.space = 0 then
    orTrap s (placeLocal s p e) fun key =>
    if classWait s true false then .next (park .releases s)
    else
      afterDrain false false key n s fun t =>
      (Acc.ofCheck (l1Read t p key n) t).andThen s fun raw t => loadDone d f.toNat raw t
  else postHome p e n (.load d f.toNat) true false true false 0 s

def execStrel (d a : Reg) (f : BitVec 4) (x : BitVec 10) (s : State) : Out :=
  let n := fmtSize f.toNat
  orTrap s (ea s a x n) fun p =>
  orTrap s (check s p n n .w .localGlobal) fun e =>
  let v := storeConv (frm s) f.toNat (rd s d)
  if e.space = 0 then
    orTrap s (placeLocal s p e) fun key =>
    if classWait s false true then .next (park .releases s)
    else memDone (addFlags v.2 (l1Write s.cur.bind.launch key n v.1 (classDrain true false key n s)))
  else postHome p e n (.store v.1) false true false true v.2 s

/-! ### PAIR (R150) -/

/-- The registers of an even/odd pair. -/
def evenReg (d : BitVec 4) : Reg := d ++ 0#1
def oddReg (d : BitVec 4) : Reg := d ++ 1#1

/-- Two registers as 16 bytes, the even one first. -/
def pairVal (s : State) (d : BitVec 4) : Nat := (rd s (evenReg d)).toNat + 2 ^ 64 * (rd s (oddReg d)).toNat

/-- Write 16 bytes to two registers. -/
def wrPair (d : BitVec 4) (v : Nat) (s : State) : State :=
  wr (oddReg d) (nat64 (v / 2 ^ 64)) (wr (evenReg d) (nat64 v) s)

/-- The format number that stands for a pair in a posted load. -/
def pairFmt : Nat := 16

def execLdp (d : BitVec 4) (a : Reg) (x : BitVec 10) (s : State) : Out :=
  orTrap s (ea s a x 16) fun p =>
  orTrap s (check s p 16 16 .r .any) fun e =>
  (plainLoad p e 16 (.load (evenReg d) pairFmt) s).andThen s fun raw s => memDone (wrPair d raw s)

def execStp (d : BitVec 4) (a : Reg) (x : BitVec 10) (s : State) : Out :=
  orTrap s (ea s a x 16) fun p =>
  orTrap s (check s p 16 16 .w .any) fun e =>
  (plainStore p e 16 (pairVal s d) s).andThen s fun _ s => memDone s

/-! ### BURST (R151) -/

/-- Perform the own buffered stores that overlap some words. -/
def drainWords : List Nat → State → State
  | [], s => s
  | k :: ks, s => drainWords ks (drainOverlap false 0 k 8 s)

/-- The first of some words that a store overlaps which has to stay. -/
def wordStuck (s : State) (ks : List Nat) : Option Nat := ks.find? (fun k => overlapStuck s false 0 k 8)

/-- Go on when the own stores that overlap some words are performed. -/
def afterWords (ks : List Nat) (s : State) (k : State → Out) : Out :=
  match wordStuck s ks with
  | some w => .next (park (.buffer false false 0 w 8) s)
  | none => k (drainWords ks s)

/-- Read some words into consecutive registers. -/
def readWords : List Nat → Reg → State → State
  | [], _, s => s
  | k :: ks, d, s => readWords ks (d + 1) (wr d (nat64 (s.mem.l1.readN k 8)) s)

/-- The words of an STB after the first take the reserved cycles after its own, one each (R250). -/
def storeWords (now : Nat) : Nat → List Nat → Reg → State → State
  | _, [], _, s => s
  | i, k :: ks, d, s => storeWords now (i + 1) ks (d + 1) (reserve k (now + i) (.store s.cur.id (rd s d)) s)

/-- The context has a burst in progress: its later words are still to come. -/
def beginBurst (p : Word64) (g : Vector Word64 32) (pc : Word64) (due : List Nat) (s : State) : State :=
  if due = [] then s else { s with cur := { s.cur with burst := some { pc := pc, ptr := p, g := g, due := due } } }

/-- Write consecutive registers to some words: the first now, the others in their banks' cycles. -/
def writeWords (p : Word64) (ks : List Nat) (d : Reg) (s : State) : State :=
  match ks with
  | [] => s
  | k :: ks =>
    let now := bankCyc s (bankOf s k)
    storeWords now 1 ks (d + 1)
      (beginBurst p s.cur.a.g (groupPc s) ks (l1Write s.cur.bind.launch k 8 (rd s d).toNat s))

/-- The words of a burst, after its checks. -/
def burstPlace (s : State) (a : Reg) (n : BitVec 3) (x : BitVec 10) (need : Need) : Except Trap (List Nat × Word64) :=
  match ea s a x 8 with
  | .error t => .error t
  | .ok p =>
    match check s p (8 * (n.toNat + 1)) 8 need .local with
    | .error t => .error t
    | .ok e =>
      match wordKeys s p (myCluster s) s.cur.bind.area (e.base + ov p) (n.toNat + 1) with
      | .error t => .error t
      | .ok ks => .ok (ks, p)

def execLdb (d a : Reg) (n : BitVec 3) (x : BitVec 10) (s : State) : Out :=
  orTrap s (burstPlace s a n x .r) fun kp =>
  afterWords kp.1 s fun t =>
  if kp.1.any (fun k => l1Poisoned t k 8) then raise .poison kp.2 s
  else memDone (readWords kp.1 d t)

/-- STB (R151, R250): its first word is written, and the others follow one a cycle in reserved cycles of their banks.
DESIGN CHOICE, unsafe (log entry 102). -/
def execStb (d a : Reg) (n : BitVec 3) (x : BitVec 10) (s : State) : Out :=
  orTrap s (burstPlace s a n x .w) fun kp =>
  afterWords kp.1 s fun t => memDone (writeWords kp.2 kp.1 d t)

end Sys2Proof.Machine
end

