-- ==== Sys2Proof/Machine/Sync.lean ====
section
/-!
DEFINITION. Full/empty operations (R152-R154), AMO and CAS (R155-R157), FENCE, FENCE.SYS, cache ranges,
PREF and MONW (R158-R163).
-/

namespace Sys2Proof.Machine

open Sys2Proof

/-! ### Full/empty -/

/-- The word of an FE member after its checks, and its pointer. -/
def fePlace (s : State) (a : Reg) (x : BitVec 10) (need : Need) : Except Trap (Nat × Word64) :=
  match ea s a x 8 with
  | .error t => .error t
  | .ok p =>
    match check s p 8 8 need .local with
    | .error t => .error t
    | .ok e =>
      match placeLocal s p e with
      | .error t => .error t
      | .ok k => .ok (k, p)

/-- An FE member of a class: waits for own releases, performs own stores, then does its bank operation.  `reads` says
that it reads the word or its full/empty bit, which the bank's check covers (R247).
DESIGN CHOICE, unsafe (log entry 102). -/
def feOp (a : Reg) (x : BitVec 10) (need : Need) (acq rel reads : Bool) (s : State)
    (k : Nat → Word64 → State → Out) : Out :=
  orTrap s (fePlace s a x need) fun kp =>
  if classWait s acq rel then .next (park .releases s)
  else
    afterDrain rel false kp.1 8 s fun t =>
    if reads && l1Poisoned t kp.1 8 then raise .poison kp.2 s else k kp.1 kp.2 t

/-- The bank operation of LDE and LDC on a full word: read, and LDC empties it. -/
def takeFull (launch : Nat) (empties : Bool) (d : Reg) (key : Nat) (s : State) : State :=
  let s := wr d (nat64 (s.mem.l1.readN key 8)) s
  if empties then l1SetFull launch key false s else s

/-- The bank operation of STF on an empty word, and of STO: write and fill. -/
def putFull (launch key : Nat) (v : Word64) (s : State) : State :=
  l1SetFull launch key true (l1Write launch key 8 v.toNat s)

def execLde (d a : Reg) (x : BitVec 10) (s : State) : Out :=
  feOp a x .r true false true s fun key p t =>
  if isFull t key then memDone (takeFull s.cur.bind.launch false d key t)
  else .next (bankPark (.lde d) key p t)

def execLdc (d a : Reg) (x : BitVec 10) (s : State) : Out :=
  feOp a x .rw true false true s fun key p t =>
  if isFull t key then memDone (takeFull s.cur.bind.launch true d key t)
  else .next (bankPark (.ldc d) key p t)

def execStf (d a : Reg) (x : BitVec 10) (s : State) : Out :=
  feOp a x .w false true true s fun key p t =>
  if isFull t key then .next (bankPark (.stf (rd s d)) key p t)
  else memDone (putFull s.cur.bind.launch key (rd s d) t)

def execSto (d a : Reg) (x : BitVec 10) (s : State) : Out :=
  feOp a x .w false false false s fun key _ t => memDone (putFull s.cur.bind.launch key (rd s d) t)

def execSete (a : Reg) (x : BitVec 10) (s : State) : Out :=
  feOp a x .w false false true s fun key _ t => memDone (l1SetFull s.cur.bind.launch key false t)

def execSetf (a : Reg) (x : BitVec 10) (s : State) : Out :=
  feOp a x .w false false true s fun key _ t => memDone (l1SetFull s.cur.bind.launch key true t)

def execFeq (d a : Reg) (x : BitVec 10) (s : State) : Out :=
  feOp a x .r false false true s fun key _ t => memDone (wr d (flag64 (isFull t key)) t)

/-! ### AMO (R155) -/

/-- .ACQ and .REL of an ord field. -/
def ordAcq (o : BitVec 2) : Bool := o.getLsbD 0
def ordRel (o : BitVec 2) : Bool := o.getLsbD 1

/-- An atomic on LOCAL: `f` gives the new bytes, or none where nothing is written, and `k` the register
write from the old bytes.
DESIGN CHOICE, unsafe (log entry 102). -/
def localAtomic (p : Word64) (e : HandleEntry) (n : Nat) (acq rel : Bool) (f : Nat → Option Nat)
    (k : Nat → State → State) (s : State) : Out :=
  orTrap s (placeLocal s p e) fun key =>
  if classWait s acq rel then .next (park .releases s)
  else
    afterDrain rel false key n s fun t =>
    (Acc.ofCheck (l1Read t p key n) t).andThen s fun old t =>
    let t := match f old with
      | some v => l1Write s.cur.bind.launch key n v t
      | none => t
    memDone (k old t)

/-- AMOop (R155) by its op code.
DESIGN CHOICE, unsafe (log entry 102). -/
def amo (op : Nat) (d a b : Reg) (o : BitVec 2) (w : BitVec 1) (s : State) : Out :=
  let n := if w = 1 then 4 else 8
  let p := rd s a
  let v := (rd s b).toNat % 2 ^ (8 * n)
  orTrap s (check s p n n .rw .localGlobal) fun e =>
  if e.space = 0 then
    localAtomic p e n (ordAcq o) (ordRel o) (fun old => some (amoFun op n old v)) (fun old => wr d (amoResult op n old)) s
  else postHome p e n (.rmw op v d) (ordAcq o) (ordRel o) true true 0 s

def execAmoadd (d a b : Reg) (p : BitVec 2) (w : BitVec 1) (s : State) : Out := amo 0 d a b p w s
def execAmoand (d a b : Reg) (p : BitVec 2) (w : BitVec 1) (s : State) : Out := amo 1 d a b p w s
def execAmoor (d a b : Reg) (p : BitVec 2) (w : BitVec 1) (s : State) : Out := amo 2 d a b p w s
def execAmoxor (d a b : Reg) (p : BitVec 2) (w : BitVec 1) (s : State) : Out := amo 3 d a b p w s
def execAmomin (d a b : Reg) (p : BitVec 2) (w : BitVec 1) (s : State) : Out := amo 4 d a b p w s
def execAmomax (d a b : Reg) (p : BitVec 2) (w : BitVec 1) (s : State) : Out := amo 5 d a b p w s
def execAmominn (d a b : Reg) (p : BitVec 2) (w : BitVec 1) (s : State) : Out := amo 6 d a b p w s
def execAmomaxn (d a b : Reg) (p : BitVec 2) (w : BitVec 1) (s : State) : Out := amo 7 d a b p w s
def execAmoswp (d a b : Reg) (p : BitVec 2) (w : BitVec 1) (s : State) : Out := amo 8 d a b p w s

/-! ### CAS (R157) -/

/-- What CAS leaves in G[d]: the old value, sign-extended for CAS.W. -/
def casResult (n old : Nat) : Word64 := wrap64 (sext old (8 * n))

def execCas (d a b : Reg) (p : BitVec 2) (w : BitVec 1) (s : State) : Out :=
  let n := if w = 1 then 4 else 8
  let ptr := rd s a
  let e := (rd s d).toNat % 2 ^ (8 * n)
  let v := (rd s b).toNat % 2 ^ (8 * n)
  orTrap s (check s ptr n n .rw .localGlobal) fun h =>
  if h.space = 0 then
    localAtomic ptr h n (ordAcq p) (ordRel p) (fun old => if old = e then some v else none)
      (fun old => wr d (casResult n old)) s
  else postHome ptr h n (.cas e v d) (ordAcq p) (ordRel p) true true 0 s

def execCas2 (d : BitVec 4) (a : Reg) (b : BitVec 4) (p : BitVec 2) (s : State) : Out :=
  let ptr := rd s a
  let e := pairVal s d
  let v := pairVal s b
  orTrap s (check s ptr 16 16 .rw .localGlobal) fun h =>
  if h.space = 0 then
    localAtomic ptr h 16 (ordAcq p) (ordRel p) (fun old => if old = e then some v else none)
      (fun old => wrPair d old) s
  else postHome ptr h 16 (.cas2 e v (evenReg d)) (ordAcq p) (ordRel p) true true 0 s

/-! ### Fences (R159) -/

def execFence (s : State) : Out :=
  if releasePending s s.cur.id then .next (park .releases s) else done (drainAllOwn s.cur.id s)

/-- The zero-length reads of FENCE.SYS: one for each port written to since the last (R382). -/
def portRead (s : State) : Out :=
  match s.cur.ports with
  | [] => done s
  | port :: _ =>
    .next (postPcie { ctx := s.cur.id, ptr := 0, asid := s.cur.bind.asid, va := 0, size := 0, op := .none, acq := false, rel := false, pa := port * 2 ^ 59 } s)

def execFenceSys (s : State) : Out :=
  if releasePending s s.cur.id then .next (park .releases s)
  else if shunned s (myCluster s) && dirtyLines s (myCluster s) s.cur.bind.asid != [] then .next (park .agent s)
  else if bumpStalls s (myCluster s) then .next (park .sweep s)
  else portRead (bumpFor s.cur.id (writebackDirty (drainAllOwn s.cur.id s)))

/-! ### Cache ranges and PREF (R160, R161) -/

/-- The lines of an ASID in a cluster that overlap `[lo, hi)`. -/
def linesIn (s : State) (c asid lo hi : Nat) : List Line :=
  (clusterAt s c).lines.filter (fun l => l.asid == asid && decide (l.va < hi) && decide (lo < l.va + 128))

/-- Has the issuing context an outstanding release to a range? -/
def releaseIn (s : State) (va n : Nat) : Bool :=
  s.homes.reqs.any (fun r => r.ctx == s.cur.id && overlaps va n r.va r.size)

/-- CWB and CINV: the range is checked once, its alignment is not. -/
def cacheRange (drop : Bool) (a b : Reg) (s : State) : Out :=
  let p := rd s a
  let len := (rd s b).toNat
  orTrap s (check s p len 1 .r .global) fun e =>
  if handoffWait s s.cur.id then .next (park .handoff s)
  else if len = 0 then memDone s
  else if releaseIn s (vaOf e p) len then .next (park .releases s)
  else if overlapStuck s true s.cur.bind.asid (vaOf e p) len then .next (park (.buffer false true s.cur.bind.asid (vaOf e p) len) s)
  else if shunned s (myCluster s) && (linesIn s (myCluster s) s.cur.bind.asid (vaOf e p) (vaOf e p + len)).any (·.mask != 0) then
    .next (park .agent s)
  else
    let va := vaOf e p
    let s := drainOverlap true s.cur.bind.asid va len s
    let ls := linesIn s (myCluster s) s.cur.bind.asid va (va + len)
    memDone (if drop then exportAll (myCluster s) ls s else writebackAll (myCluster s) ls s)

def execCwb (a b : Reg) (s : State) : Out := cacheRange false a b s
def execCinv (a b : Reg) (s : State) : Out := cacheRange true a b s

/-- Request a fill of a line; a line that is present, or has no readable page or no cache, asks nothing. -/
def requestFill (w : Who) (va policy : Nat) (s : State) : State :=
  let c := clusterOf w.ctx
  let cl := clusterAt s c
  let want := match lineOf cl w.asid va with
    | some l => !(l.present && tagValid cl.v l.v (ctxOf s w.ctx).floor)
    | none => true
  if !want || allocFrames cl == 0 || policy == 2 then s
  else
    match translate c w.asid va s with
    | (none, _) => s
    | (some e, s) =>
      if pageAllows s e (homeKey s e va) true false = false ∨ nonCoherent (homeKey s e va) then s
      else
        let cl := clusterAt s c
        putCluster { cl with fills := addOnce (w.asid, va / 128 * 128, cl.v, allocFrames cl, policy) cl.fills } s

/-- PREF: a pointer that fails a check, or is not GLOBAL, makes it a no-op. -/
def execPref (a : Reg) (s : State) : Out :=
  match check s (rd s a) 1 1 .r .global with
  | .error _ => memDone s
  | .ok e => memDone (requestFill (me s) (vaOf e (rd s a)) (policyOf s e) s)

/-! ### MONW (R162, R163) -/

/-- The CYC value at which a timeout of `n` cycles ends; 0 means none. -/
def deadlineAt (s : State) (n : Nat) : Option Nat := if n = 0 then none else some (cyc s s.cur.id + n)

def execMonw (d a b : Reg) (s : State) : Out :=
  let p := rd s a
  orTrap s (check s p 8 8 .r .localGlobal) fun h =>
  if h.space = 0 then
    orTrap s (placeLocal s p h) fun key =>
    if classWait s true false then .next (park .releases s)
    else
      afterDrain false false key 8 s fun t =>
      (Acc.ofCheck (l1Read t p key 8) t).andThen s fun v t =>
      if nat64 v ≠ rd s d then memDone (wr d (nat64 v) t)
      else .next (bankPark (.monw d (rd s d) (deadlineAt s (rd s b).toNat)) key p t)
  else postHome p h 8 (.monw d (rd s d) (deadlineAt s (rd s b).toNat)) true false true false 0 s

end Sys2Proof.Machine
end

