-- ==== Sys2Proof/Machine/Channel.lean ====
section
/-!
DEFINITION. Channels: queue control words (R32, R33) and the CHAN members (R164-R169).
-/

namespace Sys2Proof.Machine

open Sys2Proof

/-! ### Queue control words (R32, R33) -/

/-- A queue control word as its four words read. -/
structure Qcw where
  head : Nat
  tail : Nat
  base : Word64
  eng : Bool
  imm : Bool
  crel : Bool
  fmt : Nat
  size : Nat
  depth : Nat
  /-- reserved bits of words 2 and 3, all together -/
  resv : Nat
  cons : Nat
  prod : Nat
  deriving DecidableEq, Repr

/-- The fields of the words at a key. -/
def qcwAt (m : Memory) (key : Nat) : Qcw :=
  let w0 := m.readN key 8
  let w2 := m.readN (key + 16) 8
  let w3 := m.readN (key + 24) 8
  { head := w0 % 2 ^ 32, tail := w0 / 2 ^ 32, base := nat64 (m.readN (key + 8) 8)
    eng := w2.testBit 31, imm := w2.testBit 30, crel := w2.testBit 29
    fmt := w2 / 2 ^ 24 % 16, size := w2 / 2 ^ 16 % 256, depth := w2 % 2 ^ 16
    resv := w2 / 2 ^ 32 + w2 / 2 ^ 28 % 2 + w3 / 2 ^ 32
    cons := w3 / 2 ^ 16 % 2 ^ 16, prod := w3 % 2 ^ 16 }

/-- The counter modulus W (R33). -/
def Qcw.wrap (q : Qcw) : Nat := q.depth * (2 ^ 32 / q.depth)

/-- The filled and the free count. -/
def Qcw.filled (q : Qcw) : Nat := (q.head + q.wrap - q.tail) % q.wrap
def Qcw.free (q : Qcw) : Nat := q.depth - q.filled

/-- Do the fields satisfy R33? -/
def Qcw.ok (q : Qcw) : Bool :=
  q.depth != 0 && decide (q.head < q.wrap) && decide (q.tail < q.wrap) && decide (q.filled ≤ q.depth) &&
  q.size != 0 && q.resv == 0

/-- The displacement from slot 0 of the slot addressed as "counter + i". -/
def Qcw.slotOff (q : Qcw) (counter i : Nat) : Nat := (counter + i) % q.depth * q.size * 8

/-- A counter advanced by some slots. -/
def Qcw.advance (q : Qcw) (counter n : Nat) : Nat := (counter + n) % q.wrap

/-! ### The checks of R166 -/

/-- A bound channel: the QCW pointer, the key of word 0 and the fields; `base` is the pointer of slot 0
for the issuing context. -/
structure Bound where
  q : Word64
  key : Nat
  f : Qcw
  base : Word64
  deriving DecidableEq, Repr

/-- A CHAN fault if a condition fails. -/
def chanFault (q : Word64) (bad : Bool) : Except Trap Unit := if bad then .error ⟨.chan, q⟩ else .ok ()

/-- Checks 1 and 2: the handle is bound and the QCW passes R28.  Gives the QCW pointer and its key. -/
def chanPlace (s : State) (c : BitVec 4) : Except Trap (Word64 × Nat) :=
  match s.cur.a.c[c.toNat]'c.isLt with
  | none => .error ⟨.chan, nat64 c.toNat⟩
  | some q =>
    match check s q 32 32 .rw .local with
    | .error t => .error t
    | .ok e =>
      match placeLocal s q e with
      | .error t => .error t
      | .ok key => .ok (q, key)

/-- The pointer of slot 0 of a channel: the QCW's own, or, for a channel that the leaf carved, the pointer
rebased to the issuing context's handle 1 (R333). -/
def rebased (s : State) (key : Nat) (base : Word64) : Word64 :=
  let off := (areaOff s key).2
  match (myLaunch s).carved.find? (fun x => x.1 == myCluster s && x.2.1 == off) with
  | none => base
  | some x => mkPtr 1 (x.2.2 + ov base - (entryIn s.cur.handles 1).base)

/-- Check 3: the fields satisfy R33. -/
def chanFields (s : State) (q : Word64) (key : Nat) : Except Trap Bound :=
  if l1Poisoned s key 32 then .error ⟨.poison, q⟩
  else
    let f := qcwAt s.mem.l1 key
    if f.ok then .ok ⟨q, key, f, rebased s key f.base⟩ else .error ⟨.chan, q⟩

/-- Open a channel for a member: `cls` waits for own releases (R142), and own buffered stores are performed
(all before a release, else those that overlap the QCW) before the QCW is read. -/
def withChan (c : BitVec 4) (cls rel : Bool) (s : State) (k : Bound → State → Out) : Out :=
  orTrap s (chanPlace s c) fun qk =>
  if cls && releasePending s s.cur.id then .next (park .releases s)
  else
    afterDrain rel false qk.2 32 s fun t =>
    orTrap s (chanFields t qk.1 qk.2) fun b => k b t

/-- The checked key and pointer of a slot (check 5). -/
def slotPlace (s : State) (b : Bound) (counter i n : Nat) (need : Need) : Except Trap (Nat × Word64) :=
  match effAddr b.base (b.f.slotOff counter i) 1 with
  | .error t => .error t
  | .ok p =>
    match check s p n n need .local with
    | .error t => .error t
    | .ok e =>
      match placeLocal s p e with
      | .error t => .error t
      | .ok key => .ok (key, p)

/-! ### The members (R165, R167) -/

/-- The sub codes of R164. -/
def subChld : Nat := 1
def subChst : Nat := 2
def subWaitp : Nat := 5
def subWaitc : Nat := 6

/-- CHLD. -/
def chanLoad (d : Reg) (c f : BitVec 4) (n : BitVec 9) (s : State) : Out :=
  withChan c true false s fun b t =>
  orTrap s (chanFault b.q (decide (b.f.depth ≤ n.toNat))) fun _ =>
  orTrap s (slotPlace t b b.f.tail n.toNat (fmtSize f.toNat) .r) fun kp =>
  if n.toNat < b.f.filled then
    afterDrain false false kp.1 (fmtSize f.toNat) t fun t =>
    (Acc.ofCheck (l1Read t kp.2 kp.1 (fmtSize f.toNat)) t).andThen s fun raw t => loadDone d f.toNat raw t
  else .next (bankPark (.chan subChld d c f n) b.key b.q t)

/-- CHST. -/
def chanStore (d : Reg) (c f : BitVec 4) (n : BitVec 9) (s : State) : Out :=
  withChan c true false s fun b t =>
  orTrap s (chanFault b.q (decide (b.f.depth ≤ n.toNat) || b.f.eng)) fun _ =>
  orTrap s (slotPlace t b b.f.head n.toNat (fmtSize f.toNat) .w) fun kp =>
  if n.toNat < b.f.free then
    let v := storeConv (frm s) f.toNat (rd s d)
    afterDrain false false kp.1 (fmtSize f.toNat) t fun t =>
    memDone (addFlags v.2 (l1Write s.cur.bind.launch kp.1 (fmtSize f.toNat) v.1 t))
  else .next (bankPark (.chan subChst d c f n) b.key b.q t)

/-- CHWAITP (`free`) and CHWAITC. -/
def chanWait (free : Bool) (c : BitVec 4) (n : BitVec 9) (s : State) : Out :=
  withChan c true false s fun b t =>
  orTrap s (chanFault b.q (decide (b.f.depth < n.toNat))) fun _ =>
  if n.toNat ≤ (if free then b.f.free else b.f.filled) then memDone t
  else .next (bankPark (.chan (if free then subWaitp else subWaitc) 0 c 0 n) b.key b.q t)

/-- A publication on an immediate channel makes the step non-rollbackable (R365). -/
def publishImm (imm : Bool) (s : State) : State :=
  if imm then putLaunch { myLaunch s with nonRollback := true } s else s

/-- CHADVP: head moves, as one bank atomic. -/
def chanPublish (c : BitVec 4) (n : BitVec 9) (s : State) : Out :=
  withChan c true true s fun b t =>
  orTrap s (chanFault b.q (b.f.eng || decide (b.f.free < n.toNat))) fun _ =>
  memDone (l1Write s.cur.bind.launch b.key 4 (b.f.advance b.f.head n.toNat) (publishImm b.f.imm t))

/-- CHADVC: tail moves, as one bank atomic. -/
def chanFree (c : BitVec 4) (n : BitVec 9) (s : State) : Out :=
  withChan c true true s fun b t =>
  orTrap s (chanFault b.q (decide (b.f.filled < n.toNat))) fun _ =>
  memDone (l1Write s.cur.bind.launch (b.key + 4) 4 (b.f.advance b.f.tail n.toNat) t)

/-- CHPTR: the pointer of a slot. -/
def chanPtr (tail : Bool) (d : Reg) (c : BitVec 4) (i : BitVec 8) (s : State) : Out :=
  withChan c false false s fun b t =>
  orTrap s (chanFault b.q (decide (b.f.depth ≤ i.toNat))) fun _ =>
  orTrap s (effAddr b.base (b.f.slotOff (if tail then b.f.tail else b.f.head) i.toNat) 1) fun p =>
  memDone (wr d p t)

/-- Bind or unbind a channel handle. -/
def setChan (c : BitVec 4) (v : Option Word64) (s : State) : State :=
  { s with cur := { s.cur with a := { s.cur.a with c := s.cur.a.c.set c.toNat v c.isLt } } }

/-- CHB (R165). -/
def execChb (d : Reg) (c : BitVec 4) (s : State) : Out :=
  if rd s d = 0 then done (setChan c none s)
  else orTrap s (check s (rd s d) 32 32 .rw .local) fun _ => done (setChan c (some (rd s d)) s)

def execChld (d : Reg) (c f : BitVec 4) (n : BitVec 9) (s : State) : Out := chanLoad d c f n s
def execChst (d : Reg) (c f : BitVec 4) (n : BitVec 9) (s : State) : Out := chanStore d c f n s
def execChadvp (c : BitVec 4) (n : BitVec 9) (s : State) : Out := chanPublish c n s
def execChadvc (c : BitVec 4) (n : BitVec 9) (s : State) : Out := chanFree c n s
def execChwaitp (c : BitVec 4) (n : BitVec 9) (s : State) : Out := chanWait true c n s
def execChwaitc (c : BitVec 4) (n : BitVec 9) (s : State) : Out := chanWait false c n s
def execChcnt (d : Reg) (c : BitVec 4) (s : State) : Out :=
  withChan c true false s fun b t => memDone (wr d (nat64 b.f.filled) t)
def execChptrHd (d : Reg) (c : BitVec 4) (i : BitVec 8) (s : State) : Out := chanPtr false d c i s
def execChptrTl (d : Reg) (c : BitVec 4) (i : BitVec 8) (s : State) : Out := chanPtr true d c i s

/-- A parked member runs again whole (R167). -/
def chanAgain (sub : Nat) (d : Reg) (c f : BitVec 4) (n : BitVec 9) (s : State) : Out :=
  match sub with
  | 1 => chanLoad d c f n s
  | 2 => chanStore d c f n s
  | 5 => chanWait true c n s
  | _ => chanWait false c n s

end Sys2Proof.Machine
end

