-- ==== Sys2Proof/Machine/Engine.lean ====
section
/-!
DEFINITION. Issue of engine commands (R170-R187), the surfacing of engine faults and flags (R52, R173),
FENCE.ENG (R159), and the knot members (R188-R191).
-/

namespace Sys2Proof.Machine

open Sys2Proof

/-! ### Issue (R170) -/

/-- The area offset that a LOCAL pointer of the issuing context names. -/
def offOf (s : State) (p : Word64) : Nat := (entryOf s p).base + ov p

/-- The check of a knot pointer (R189): LOCAL and 16-aligned, or SPACE. -/
def knotCheck (s : State) (p : Word64) (need : Need) : Except Trap HandleEntry :=
  match check s p 16 16 need .local with
  | .error t => .error (if t.cause = .align then ⟨.space, p⟩ else t)
  | .ok e => .ok e

/-- The KSEL check at issue: the knot's area offset, none when KSEL is 0. -/
def latchKnot (s : State) : Except Trap (Option Nat) :=
  let p := s.cur.a.sr.ksel
  if p = 0 then .ok none
  else
    match knotCheck s p .rw with
    | .error t => .error t
    | .ok _ => .ok (some (offOf s p))

/-- Commands that still hold their queue entry: those that the unit or the engine has not begun (R170). -/
def queued (q : List Cmd) : Nat := (q.filter (fun c => !c.started)).length

/-- The word a command's operands are latched with. -/
def newCmd (kind : CmdKind) (word : Word32) (d a b : Word64) (knot : Option Nat) (desc : List Word64) (s : State) : Cmd :=
  let sr := s.cur.a.sr
  { kind := kind, ctx := s.cur.id, word := word, pc := groupPc s, gd := d, ga := a, gb := b, ksel := sr.ksel, knot := knot
    mstra := fieldOf sr.mstra 0 32, mstrb := fieldOf sr.mstrb 0 32, mbm := sr.mbm, frm := frm s, timed := bitOf sr.cpyc 0
    desc := desc }

/-- Issue a matrix command, or wait for a place in the queue.
DEDUCED, unsafe (log entry 20). -/
def issueMatrix (kind : CmdKind) (word : Word32) (d a b : Word64) (desc : List Word64) (s : State) : Out :=
  if 2 ≤ queued (myCore s).mq then .next (park (.engineQueue true) s)
  else orTrap s (latchKnot s) fun knot =>
    done (putCore { myCore s with mq := (myCore s).mq ++ [newCmd kind word d a b knot desc s] } s)

/-- Issue a copy command, or wait for a place in the queue. -/
def issueCopy (kind : CmdKind) (word : Word32) (d a b : Word64) (desc : List Word64) (s : State) : Out :=
  if 2 ≤ queued (myCore s).cq then .next (park (.engineQueue false) s)
  else orTrap s (latchKnot s) fun knot =>
    done (putCore { myCore s with cq := (myCore s).cq ++ [newCmd kind word d a b knot desc s] } s)

/-- MPART of the issuing context: base and count. -/
def mpBase (s : State) : Nat := fieldOf s.cur.a.sr.mpart 0 6
def mpCount (s : State) : Nat := fieldOf s.cur.a.sr.mpart 8 8

/-- M of an mcode. -/
def rowsOf (m : Nat) : Nat := 8 * 2 ^ m

/-- Do the slots of a shape lie in the partition (R175)? -/
def inPartition (s : State) (slot m n : Nat) : Bool := decide (slot + rowsOf m / 8 * n ≤ mpCount s)

/-! ### MMA (R175) -/

/-- An MMA member.  The partition is tested before the wait for a place in the queue.
DESIGN CHOICE, unsafe (log entry 115). -/
def mma (kind : CmdKind) (op : BitVec 6) (a b : Reg) (m : BitVec 2) (n l : BitVec 6) (sp z : BitVec 1) (s : State) : Out :=
  let word := fmtX op a b m n l sp z
  if inPartition s l.toNat m.toNat n.toNat = false then raise .accslot (word.setWidth 64) s
  else issueMatrix kind word 0 (rd s a) (rd s b) [] s

def execMmaI8 (a b : Reg) (m : BitVec 2) (n l : BitVec 6) (sp z : BitVec 1) (s : State) : Out :=
  mma .mmaI8 0x31#6 a b m n l sp z s
def execMmaI16 (a b : Reg) (m : BitVec 2) (n l : BitVec 6) (sp z : BitVec 1) (s : State) : Out :=
  mma .mmaI16 0x32#6 a b m n l sp z s
def execMmaCq15 (a b : Reg) (m : BitVec 2) (n l : BitVec 6) (sp z : BitVec 1) (s : State) : Out :=
  mma .mmaCq15 0x33#6 a b m n l sp z s
def execMmaDp8 (a b : Reg) (m : BitVec 2) (n l : BitVec 6) (sp z : BitVec 1) (s : State) : Out :=
  mma .mmaDp8 0x34#6 a b m n l sp z s

/-! ### MCTL (R179-R182) -/

/-- A shape word's mcode, n and slot, and whether it is valid. -/
def shapeM (w : Nat) : Nat := w / 2 ^ 14 % 4
def shapeN (w : Nat) : Nat := w / 2 ^ 8 % 64
def shapeSlot (w : Nat) : Nat := w / 4 % 64
def shapeOk (s : State) (w : Nat) : Bool :=
  shapeM w != 3 && shapeN w != 0 && w % 4 == 0 && decide (w < 2 ^ 16) && inPartition s (shapeSlot w) (shapeM w) (shapeN w)

/-- MZERO.  The partition is tested before the wait for a place in the queue.
DESIGN CHOICE, unsafe (log entry 115). -/
def execMzero (a b : Reg) (s : State) : Out :=
  if mpCount s < (rd s a).toNat + (rd s b).toNat then raise .accslot (rd s a) s
  else issueMatrix .mzero (fmtA 0x35#6 0 a b 0#11) 0 (rd s a) (rd s b) [] s

/-- MDRAIN.  The partition is tested before the wait for a place in the queue.
DESIGN CHOICE, unsafe (log entry 115). -/
def execMdrain (a b : Reg) (s : State) : Out :=
  if shapeOk s (rd s b).toNat = false then raise .accslot (rd s b) s
  else issueMatrix .mdrain (fmtA 0x35#6 0 a b 1#11) 0 (rd s a) (rd s b) [] s

/-- A LOCAL descriptor of `n` words, read by the core at issue (R181, R185). -/
def readDesc (p : Word64) (n : Nat) (s : State) : Acc (List Word64) :=
  match check s p (8 * n) 8 .r .local with
  | .error t => .trap t
  | .ok e =>
    match wordKeys s p (myCluster s) s.cur.bind.area (e.base + ov p) n with
    | .error t => .trap t
    | .ok ks =>
      match wordStuck s ks with
      | some k => .wait (.buffer false false 0 k 8)
      | none =>
      let s := drainWords ks s
      if ks.any (fun k => l1Poisoned s k 8) then .trap ⟨.poison, p⟩
      else .ok (ks.map (fun k => nat64 (s.mem.l1.readN k 8))) s

/-- Fields of word 3 of an MSCA descriptor. -/
def mscaStride (w : Word64) : Nat := fieldOf w 32 32
def mscaM (w : Word64) : Nat := fieldOf w 30 2
def mscaN (w : Word64) : Nat := fieldOf w 24 6
def mscaSlot (w : Word64) : Nat := fieldOf w 18 6
def mscaAcc (w : Word64) : Bool := bitOf w 11
def mscaFmt (w : Word64) : Nat := fieldOf w 8 3
def mscaShift (w : Word64) : Int := sext (fieldOf w 0 8) 8

/-- Is word 3 legal (R181)? -/
def mscaOk (s : State) (w : Word64) : Bool :=
  fieldOf w 12 6 == 0 && decide (mscaFmt w < 6) && mscaM w != 3 && mscaN w != 0 &&
  inPartition s (mscaSlot w) (mscaM w) (mscaN w)

def execMsca (a : Reg) (s : State) : Out :=
  if 2 ≤ queued (myCore s).mq then .next (park (.engineQueue true) s)
  else
    (readDesc (rd s a) 4 s).andThen s fun ws t =>
    if mscaOk s (ws.getD 3 0) = false then raise .accslot (rd s a) s
    else orTrap s (latchKnot s) fun knot =>
      done (putCore { myCore t with mq := (myCore t).mq ++ [newCmd .msca (fmtA 0x35#6 0 a 0 2#11) 0 (rd s a) 0 knot ws s] } t)

def execMstride (a b : Reg) (s : State) : Out :=
  done (modSr (fun sr => { sr with mstra := nat64 ((rd s a).toNat % 2 ^ 32), mstrb := nat64 ((rd s b).toNat % 2 ^ 32) }) s)

def execMbmap (a : Reg) (s : State) : Out :=
  orTrap s (check s (rd s a) 8 8 .r .local) fun _ => done (modSr (fun sr => { sr with mbm := rd s a }) s)

/-- Does some slot of the partition have its wrap bit set? -/
def partitionWrap (s : State) : Bool :=
  (tileAt s (tileOf s.cur.id)).slots.any (fun x =>
    x.wrap && decide (mpBase s ≤ x.id) && decide (x.id < mpBase s + mpCount s))

/-- The MSTAT word (R179). -/
def mstatWord (s : State) : Word64 :=
  nat64 (queued (myCore s).mq + boolBit ((myCore s).mq.any (fun c => c.ctx == s.cur.id)) 2 +
    boolBit (partitionWrap s) 3 + (myCore s).weight % 16 * 2 ^ 8)

def execMstat (d : Reg) (s : State) : Out := put d (mstatWord s) s

def execMwaitq (s : State) : Out :=
  if queued (myCore s).mq = 0 then done s else .next (park .matrixQueue s)

/-! ### CPY (R183-R187) -/

def execCpy (d a b : Reg) (s : State) : Out :=
  issueCopy .cpy (fmtA 0x36#6 d a b 0#11) (rd s d) (rd s a) (rd s b) [] s

def execCpy2d (d a b : Reg) (s : State) : Out :=
  if 2 ≤ queued (myCore s).cq then .next (park (.engineQueue false) s)
  else
    (readDesc (rd s d) 2 s).andThen s fun ws t =>
    orTrap s (latchKnot s) fun knot =>
      done (putCore { myCore t with cq := (myCore t).cq ++
        [newCmd .cpy2d (fmtA 0x36#6 d a b 1#11) (rd s d) (rd s a) (rd s b) knot ws s] } t)

def execCpyg (d a b : Reg) (s : State) : Out :=
  issueCopy .cpyg (fmtA 0x36#6 d a b 2#11) (rd s d) (rd s a) (rd s b) [] s
def execCpys (d a b : Reg) (s : State) : Out :=
  issueCopy .cpys (fmtA 0x36#6 d a b 3#11) (rd s d) (rd s a) (rd s b) [] s
def execCpyf (d a b : Reg) (s : State) : Out :=
  issueCopy .cpyf (fmtA 0x36#6 d a b 4#11) (rd s d) (rd s a) (rd s b) [] s
def execCpych (d a b : Reg) (s : State) : Out :=
  issueCopy .cpych (fmtA 0x36#6 d a b 5#11) (rd s d) (rd s a) (rd s b) [] s

/-! ### Surfacing (R52, R173) -/

/-- Merge the recorded flags that `f` selects into AFL. -/
def mergeFlags (f : EngFlags → Bool) (s : State) : State :=
  let es := s.cur.a.eflags.filter f
  let s := addFlags (orFlags (es.map (·.flags))) s
  { s with cur := { s.cur with a := { s.cur.a with eflags := s.cur.a.eflags.filter (fun e => !f e) } } }

/-- EFR0-EFR3 take the stored fault, which is cleared. -/
def takeEfault (f : EngFault) (s : State) : State :=
  { s with cur := { s.cur with a := { s.cur.a with
      sr := { s.cur.a.sr with efr0 := f.efr0, efr1 := f.efr1, efr2 := f.efr2, efr3 := f.efr3 }
      efault := none } } }

/-- Raise a stored engine fault as ENGINE: delivery writes EFR0-EFR3 and clears it; a fault that the handler
cannot take stays stored for the leaf. -/
def engineTrap (f : EngFault) (s : State) : Out :=
  match deliver .engine f.pc s with
  | .next t => .next (if t.cur.run = .stopped then t else takeEfault f t)
  | o => o

/-- Merge every recorded flag, and raise a stored fault or go on. -/
def surfaceAll (s : State) (k : State → Out) : Out :=
  let s := mergeFlags (fun _ => true) s
  match s.cur.a.efault with
  | some f => engineTrap f s
  | none => k s

/-- Has the context engine commands that have not completed? -/
def engineBusy (s : State) (id : Nat) : Bool :=
  let c := coreAt s (coreOf id)
  c.mq.any (fun x => x.ctx == id) || c.cq.any (fun x => x.ctx == id)

/-- Wait as FENCE.ENG does, and surface there; `rel` says that a release follows. -/
def engineWait (rel : Bool) (s : State) (k : State → Out) : Out :=
  if releasePending s s.cur.id then .next (park .releases s)
  else if engineBusy s s.cur.id then .next (park .engines s)
  else surfaceAll (if rel then drainRelease s.cur.id s else drainAllOwn s.cur.id s) k

def execFenceEng (s : State) : Out := engineWait false s done

/-! ### KNOT (R188-R191) -/

/-- Word 0 of a knot after a contribution (R34, R190).
DEDUCED, unsafe (log entry 19). -/
def knotAdd (w v : Nat) : Nat :=
  let phase := w / 2 ^ 63 % 2
  let arrived := w / 2 ^ 32 % 2 ^ 31
  let expected := w % 2 ^ 32
  if expected = 0 then (phase + 1) % 2 * 2 ^ 63 + arrived * 2 ^ 32
  else
    let t := arrived + v
    (phase + t / expected) % 2 * 2 ^ 63 + t % expected % 2 ^ 31 * 2 ^ 32 + expected

/-- The phase of word 0. -/
def knotPhase (w : Nat) : Bool := w.testBit 63

/-- A flip of the step knot ends the step (R313). -/
def noteStep (launch key old new : Nat) (s : State) : State :=
  let l := launchAt s launch
  match l.stepKnot with
  | some k =>
    if k.1 = key / 2 ^ 28 ∧ areaOff s key = k.2 ∧ knotPhase old ≠ knotPhase new then putLaunch { l with stepDone := true } s
    else s
  | none => s

/-- One knot update at the bank: a contribution of `v` to the knot at `key` (R34, R190). -/
def knotUpdate (launch key v : Nat) (s : State) : State :=
  let w := s.mem.l1.readN key 8
  noteStep launch key w (knotAdd w v) (l1Write launch key 8 (knotAdd w v) s)

/-- The checked key of a knot, and its pointer's area offset. -/
def knotPlace (s : State) (p : Word64) (need : Need) : Except Trap (Nat × Nat) :=
  match knotCheck s p need with
  | .error t => .error t
  | .ok e =>
    match placeLocal s p e with
    | .error t => .error t
    | .ok key => .ok (key, e.base + ov p)

def execKinit (a b : Reg) (s : State) : Out :=
  orTrap s (knotPlace s (rd s a) .rw) fun kp =>
  if 2 ^ 31 ≤ (rd s b).toNat then raise .bounds (rd s b) s
  else
    afterDrain false false kp.1 8 s fun t =>
    (Acc.ofCheck (l1Read t (rd s a) kp.1 8) t).andThen s fun w t =>
    done (l1Write s.cur.bind.launch kp.1 8 (w / 2 ^ 63 * 2 ^ 63 + (rd s b).toNat) t)

def execKsel (a : Reg) (s : State) : Out :=
  if rd s a = 0 then done (modSr (fun sr => { sr with ksel := 0 }) s)
  else orTrap s (knotCheck s (rd s a) .rw) fun _ => done (modSr (fun sr => { sr with ksel := rd s a }) s)

def execKarr (a b : Reg) (s : State) : Out :=
  orTrap s (knotPlace s (rd s a) .rw) fun kp =>
  if classWait s false true then .next (park .releases s)
  else
    let t := drainRelease s.cur.id s
    (Acc.ofCheck (l1Read t (rd s a) kp.1 8) t).andThen s fun _ t =>
    done (knotUpdate s.cur.bind.launch kp.1 ((rd s b).toNat % 2 ^ 32) t)

/-- Is an engine fault stored for a command counted on the knot (R173)? -/
def knotFault (s : State) (off : Nat) : Option EngFault :=
  match s.cur.a.efault with
  | some f => if f.knot = some off then some f else none
  | none => none

/-- A KWAIT returns: it merges the knot's recorded flags and raises the knot's stored fault, or writes
G[d]. -/
def kwaitReturn (d : Reg) (off w : Nat) (s : State) : Out :=
  let s := mergeFlags (fun e => e.knot == some off) s
  match knotFault s off with
  | some f => engineTrap f s
  | none => done (wr d (nat64 w) s)

def execKwait (d a b : Reg) (s : State) : Out :=
  orTrap s (knotPlace s (rd s a) .r) fun kp =>
  if classWait s true false then .next (park .releases s)
  else
    afterDrain false false kp.1 8 s fun t =>
    (Acc.ofCheck (l1Read t (rd s a) kp.1 8) t).andThen s fun w t =>
    if knotPhase w ≠ bitOf (rd s b) 0 ∨ (knotFault t kp.2).isSome then kwaitReturn d kp.2 w t
    else .next (bankPark (.kwait d (bitOf (rd s b) 0)) kp.1 (rd s a) t)

def execKtest (d a : Reg) (s : State) : Out :=
  orTrap s (knotPlace s (rd s a) .r) fun kp =>
  afterDrain false false kp.1 8 s fun t =>
  (Acc.ofCheck (l1Read t (rd s a) kp.1 8) t).andThen s fun w t => done (wr d (nat64 w) t)

end Sys2Proof.Machine
end

