-- ==== Sys2Proof/Machine/Home.lean ====
section
/-!
DEFINITION. What the homes do: last-releaser records (R270, R277), the performance of a synchronisation
access (R141, R155, R157, R162, R197, R271, R272), its completion at the context, and watches (R163).
-/

namespace Sys2Proof.Machine

open Sys2Proof

/-! ### Incarnations and records (R263, R270, R277) -/

/-- The current incarnation of an agent. -/
def incOf (s : State) (agent : Nat) : BitVec 8 := (getBy (·.1) agent (agent, 0) s.homes.incs).2

/-- The record of a line, if its home holds one. -/
def recOf (s : State) (line : Nat) : Option Rec := s.homes.recs.find? (fun r => r.line == line)

/-- Does a record name a dead agent or a stale incarnation (R280)? -/
def staleRec (s : State) (r : Rec) : Bool :=
  r.valid && (s.homes.dead.contains r.agent || r.inc != incOf s r.agent)

/-- Store a record and note its use. -/
def putRec (r : Rec) (s : State) : State :=
  { s with homes := { s.homes with recs := putBy Rec.line { r with used := s.steps } s.homes.recs } }

/-- Discard the record of a line. -/
def dropRec (line : Nat) (s : State) : State :=
  { s with homes := { s.homes with recs := s.homes.recs.filter (fun r => r.line != line) } }

/-- The least recently used record of a set whose 8 ways are full; a record that answers LOSTREL stays
until R280 replaces it.
DEDUCED, unsafe (log entry 29). -/
def victimIn (s : State) (slice set : Nat) : Option Rec :=
  let here := s.homes.recs.filter (fun r => r.slice == slice && r.set == set)
  if here.length < 8 then none
  else (here.filter (fun r => !staleRec s r)).foldl
    (fun b r => match b with
      | none => some r
      | some x => if r.used < x.used then some r else some x) none

/-- Is the line busy with a drain (R273)? -/
def lineBusy (s : State) (line : Nat) : Bool := s.homes.busy.any (fun b => b.line == line)

/-- Send DRAIN(rel), or a recall, to an agent and hold the line busy. -/
def sendDrain (b : Busy) (s : State) : State :=
  { s with homes := { s.homes with
      busy := s.homes.busy ++ [b]
      awaiting := s.homes.awaiting ++ [(b.agent, s.plat.moment)] } }

/-- Whether the set of a line has room for its record: it has, or room is made by discarding a drained
record, or a DRAIN is sent first (R277). -/
inductive Room where
  | ready (s : State)
  | draining (s : State)
  | blocked

/-- Make room for the record of a line. -/
def makeRoom (line slice set ctx : Nat) (s : State) : Room :=
  if (recOf s line).isSome then .ready s
  else
    let full := 8 ≤ (s.homes.recs.filter (fun r => r.slice == slice && r.set == set)).length
    if !full then .ready s
    else
      match victimIn s slice set with
      | none => .blocked
      | some v =>
        if !v.valid || v.dr || decide (16 ≤ v.agent) then .ready (dropRec v.line s)
        else if lineBusy s v.line then .blocked
        else .draining (sendDrain { line := v.line, agent := v.agent, rel := v.rel, ctx := ctx, evict := true } s)

/-! ### Watches (R163) -/

/-- Is it a MONW? -/
def HomeOp.isMonw : HomeOp → Bool
  | .monw _ _ _ => true
  | _ => false

/-- Lines with a MONW parked at their home, in the order of their first. -/
def watchedLines (s : State) : List (Nat × Nat) :=
  s.homes.reqs.foldl (fun ls r =>
    if r.watching && r.op.isMonw && !ls.any (fun l => l.1 == r.pa / 128 * 128) then ls ++ [(r.pa / 128 * 128, r.slice)] else ls) []

/-- Give the free watches of each slice, 64, to lines in order; lines that have one keep it. -/
def assignWatches (s : State) : State :=
  let ls := watchedLines s
  let kept := s.homes.watches.filter (fun w => ls.any (fun l => l.1 == w))
  let count := fun (ws : List Nat) (sl : Nat) => (ws.filter (fun w => ls.any (fun l => l.1 == w && l.2 == sl))).length
  let ws := ls.foldl (fun ws l => if ws.contains l.1 || decide (64 ≤ count ws l.2) then ws else ws ++ [l.1]) kept
  { s with homes := { s.homes with watches := ws, changed := s.homes.changed.filter (fun l => ws.contains l) } }

/-! ### Completion at the context -/

/-- Remove the request at an index. -/
def dropReq (i : Nat) (s : State) : State :=
  { s with homes := { s.homes with reqs := s.homes.reqs.eraseIdx i } }

/-- The issuing context runs again. -/
def runCur (s : State) : State := { s with cur := { s.cur with run := .running } }

/-- A task ends: the context becomes idle (R196, R197). -/
def endTask (s : State) : State :=
  alignSweep (tileOf s.cur.id) s.cur.bind.module { s with cur := { dropHints s.cur with run := .idle } }

/-- What an access leaves at the context that issued it, from the old value; `task` does the rest of a
SPAWN, SPAWNR or LAUNCH. -/
def finishOp (r : HomeReq) (old : Nat) (task : HomeOp → Nat → State → Out) (s : State) : Out :=
  match r.op with
  | .load d f => if f = pairFmt then memDone (wrPair (d.extractLsb' 1 4) old s)
    else memDone (addFlags (loadConv f old).2 (wr d (loadConv f old).1 s))
  | .store _ => .next s
  | .rmw op _ d => memDone (wr d (amoResult op r.size old) s)
  | .cas _ _ d => memDone (wr d (wrap64 (sext old (8 * r.size))) s)
  | .cas2 _ _ d => memDone (wrPair (d.extractLsb' 1 4) old s)
  | .monw d _ _ => memDone (wr d (nat64 old) s)
  | .join => done s
  | .none | .engine _ => .next s
  | .spawn _ _ _ _ => task r.op old s
  | .launch _ _ => task r.op old s
  | .exit => .next (endTask s)

/-- The value an access writes, if it writes. -/
def newValue (r : HomeReq) (old : Nat) : Option Nat :=
  match r.op with
  | .load _ _ => none
  | .store v => some v
  | .rmw op v _ => some (amoFun op r.size old v)
  | .cas e v _ => if old = e then some v else none
  | .cas2 e v _ => if old = e then some v else none
  | .monw _ _ _ => none
  | .join => none
  | .none | .engine _ => none
  | .launch _ _ => none
  | .spawn _ _ _ _ => some ((old + 1) % 2 ^ 64)
  | .exit => some ((old + 2 ^ 64 - 1) % 2 ^ 64)

/-- Does the access wait at the home: a MONW that reads its expected value before its timeout, a JOIN that
reads a value other than 0? -/
def keepsWaiting (s : State) (r : HomeReq) (old : Nat) : Bool :=
  match r.op with
  | .monw _ e t => nat64 old == e && !(match t with
    | some t => decide (t ≤ cyc s r.ctx)
    | none => false)
  | .join => old != 0
  | _ => false

/-- Does the access only write, and so read nothing that could be poisoned? -/
def onlyWrites : HomeOp → Bool
  | .store _ => true
  | _ => false

/-! ### Performing an access -/

/-- The releasers of the line that a release of cluster `c` replaces: those of its record, but for `c` itself. -/
def owedBy (s : State) (line c : Nat) : List (Nat × BitVec 16 × Bool) :=
  match recOf s line with
  | none => []
  | some x =>
    let last := if x.valid && !staleRec s x then [(x.agent, x.rel, x.dr)] else []
    let old := x.owed.filter (fun o => !last.any (fun l => l.1 == o.1))
    (old ++ last).filter (fun o => o.1 != c)

/-- Note the release of cluster `c` on a line (R271): its epoch is the release number and goes up.
DEDUCED, unsafe (log entry 88). -/
def recordRelease (r : HomeReq) (c : Nat) (s : State) : State :=
  let es := takeEpoch c s
  putRec { line := r.pa / 128 * 128, slice := r.slice, set := r.set, valid := true, dr := false, agent := c
           rel := es.1, inc := incOf es.2 c, used := 0, owed := owedBy es.2 (r.pa / 128 * 128) c } es.2

/-- Note the use of a line that has no release: its record keeps its contents, or is entered empty. -/
def recordUse (r : HomeReq) (s : State) : State :=
  match recOf s (r.pa / 128 * 128) with
  | some x => putRec x s
  | none => putRec { line := r.pa / 128 * 128, slice := r.slice, set := r.set, valid := false, dr := false, agent := 0
                     rel := 0, inc := 0, used := 0 } s

/-- A fault of a posted access: its context stops at the instruction. -/
def faultAt (r : HomeReq) (cause : Cause) (s : State) : Out :=
  raise cause r.ptr (runCur (switchTo r.ctx s))

/-- Perform request `i` at its home.  `bump` bumps the version of an acquiring context (R268). -/
def performReq (i : Nat) (r : HomeReq) (bump : Bool) (task : HomeOp → Nat → State → Out) (s : State) : Out :=
  let c := clusterOf r.ctx
  let line := r.pa / 128 * 128
  let s := exportLine c r.asid r.va s
  let old := homeReadN s r.pa r.size
  if s.homes.poison.contains line && !onlyWrites r.op then faultAt r .poison (dropReq i s)
  else
    let s := match newValue r old with
      | none => s
      | some v =>
        let w : Who := { ctx := r.ctx, asid := r.asid, launch := (ctxOf s r.ctx).bind.launch }
        homeWriteN r.pa r.size v (logGlobal w r.va r.pa s)
    let s := if r.rel && (newValue r old).isSome then recordRelease r c s else recordUse r s
    let s := if bump then bumpFor r.ctx s else if r.acq then acquired r.ctx s else s
    if keepsWaiting s r old then
      .next (assignWatches { s with homes := { s.homes with
        reqs := setAt s.homes.reqs i { r with watching := true, again := false, shown := false, turn := 0 } } })
    else
      let s := assignWatches (dropReq i s)
      match r.op with
      | .store _ => .next s
      | _ => finishOp r old task (runCur (switchTo r.ctx s))

/-! ### The choice of the atomic unit (R274) -/

/-- The port of a home slice that a cluster's requests come through: 0-3 the clusters of its die, 4-6 the
other dies in ascending order; at the host agent, all come in order of arrival. -/
def portOf (slice cluster : Nat) : Nat :=
  let die := slice / 64
  let from_ := cluster / 4
  if from_ = die then cluster % 4 else if from_ < die then 4 + from_ else 3 + from_

/-- The slice's rotating pointer. -/
def slicePtr (s : State) (slice : Nat) : Nat := (getBy (·.1) slice (slice, 0) s.homes.ptrs).2

/-- A request that may be performed: it waits for nothing but its line. -/
def mayPerform (s : State) (r : HomeReq) : Bool :=
  (!r.watching || r.again) && !r.zlr && (homeReady s r.pa true).isNone && !s.homes.dead.contains (clusterOf r.ctx)

/-- The requests for one line that its unit has before it: those presented now, and those presented before and not yet
performed; none where one presented is for another line or may not be performed. -/
def before (s : State) (present : List Nat) : List (Nat × HomeReq) :=
  match present.head?.bind (fun i => s.homes.reqs[i]?) with
  | none => []
  | some r0 =>
    let here := fun (r : HomeReq) => r.pa / 128 == r0.pa / 128 && mayPerform s r
    if present.all (fun i => (s.homes.reqs[i]?).any here) then
      ((List.range s.homes.reqs.length).filterMap (fun i => (s.homes.reqs[i]?).map (fun r => (i, r)))).filter
        (fun x => here x.2 && (present.contains x.1 || x.2.shown))
    else []

/-- The place of a port in the slice's rotation. -/
def portRank (s : State) (slice port : Nat) : Nat := if slice = 256 then 0 else (port + 8 - slicePtr s slice) % 8

/-- The request that the unit performs: the one at the port that comes first from the pointer on (R274).  After a drain
those that stood at their ports before the line was busy come first, then those that have come meanwhile, in their order,
then those that come now (R273). -/
def chosen (s : State) (rs : List (Nat × HomeReq)) : Option (Nat × HomeReq) :=
  let waited := rs.any (fun x => x.2.turn != 0)
  let group := fun (r : HomeReq) => if !waited then 0 else if r.turn != 0 then 1 else if r.shown then 0 else 2
  let rank := fun (r : HomeReq) => portRank s r.slice (portOf r.slice (clusterOf r.ctx))
  let sooner := fun (x y : HomeReq) =>
    decide (group x < group y) || (group x == group y &&
      (decide (x.turn < y.turn) || (x.turn == y.turn && decide (rank x < rank y))))
  rs.foldl (fun b x => match b with
    | none => some x
    | some y => if sooner x.2 y.2 then some x else some y) none

/-- May the I/O die's request for a line be performed now, at port 7: the line is not busy, and no request that waits there
comes before it (R273, R274)? -/
def ioTurn (s : State) (slice line : Nat) : Bool :=
  !lineBusy s line && s.homes.reqs.all (fun r => !(r.shown && r.pa / 128 * 128 == line && mayPerform s r) ||
    (r.turn == 0 && decide (portRank s slice 7 < portRank s slice (portOf slice (clusterOf r.ctx)))))

/-- Note that some requests have been presented and wait; at a busy line, in order of arrival. -/
def noteShown (s : State) (busy : Bool) (is : List Nat) : State :=
  let mark := fun (i : Nat) (r : HomeReq) =>
    if is.contains i then
      { r with shown := true, turn := if busy && !r.shown then s.steps * 65536 + is.idxOf i + 1 else r.turn }
    else r
  { s with homes := { s.homes with reqs := s.homes.reqs.mapIdx mark } }

/-- A slice's pointer moves past a port. -/
def advancePort (slice port : Nat) (s : State) : State :=
  if slice = 256 then s
  else { s with homes := { s.homes with ptrs := putBy (·.1) (slice, (port + 1) % 8) s.homes.ptrs } }

/-- The pointer moves past the port that was served. -/
def advancePtr (r : HomeReq) (s : State) : State := advancePort r.slice (portOf r.slice (clusterOf r.ctx)) s

end Sys2Proof.Machine
end

