-- ==== Sys2Proof/Machine/Launch.lean ====
section
/-!
DEFINITION. What the dispatcher and the leaves share: vectors and reports to the host (R388-R390), launch
records (R303), completion words (R304), queues (R302), rank tables (R320), and travellers (R31).
-/

namespace Sys2Proof.Machine

open Sys2Proof

/-! ### Vectors and the request ring (R388-R390) -/

/-- A word of the MSI-X table: the reset value of a vector's second word is masked, as PCIe has it.
PRESUMED, unsafe (log entry 109). -/
def msixWord (s : State) (offset : Nat) : Word64 :=
  let o := offset / 8 * 8
  (getBy (·.1) o (o, if o % 16 = 8 then nat64 (2 ^ 32) else 0) s.host.regs).2

/-- Is a vector masked: bit 0 of its vector control? -/
def masked (s : State) (v : Nat) : Bool := bitOf (msixWord s (0x60000 + 16 * v + 8)) 32

/-- An MSI-X vector fires: its message is sent, or it is pending while the vector is masked (R8). -/
def fire (v : Nat) (s : State) : State :=
  if masked s v then { s with host := { s.host with pba := addOnce v s.host.pba } }
  else { s with host := { s.host with fired := v :: s.host.fired } }

/-- Pending vectors that are masked no more send their messages. -/
def firePending (s : State) : State :=
  let go := s.host.pba.filter (fun v => !masked s v)
  { s with host := { s.host with pba := s.host.pba.filter (masked s), fired := go.reverse ++ s.host.fired } }

/-- A word of the pending-bit array: 64 vectors. -/
def pbaWord (s : State) (i : Nat) : Word64 :=
  nat64 (((List.range 64).map (fun b => boolBit (s.host.pba.contains (64 * i + b)) b)).sum)

/-- Write the waiting reports that the ring, if there is one, has room for: each at slot FRTAIL mod FRSIZE, then FRTAIL
advances, then vector 64 fires. -/
def flushReports : List Report → State → State
  | [], s => { s with host := { s.host with reports := [] } }
  | r :: rs, s =>
    if s.host.frsize = 0 ∨ (s.host.frtail - s.host.frhead).toNat = s.host.frsize then { s with host := { s.host with reports := r :: rs } }
    else
      let at_ := s.host.frbase.toNat + 32 * (s.host.frtail.toNat % s.host.frsize)
      let bytes := (r.map (fun w => toBytes w.toNat 8)).flatten
      flushReports rs (fire 64 { s with
        mem := { s.mem with host := s.mem.host.writeBytes at_ bytes }
        host := { s.host with frtail := s.host.frtail + 1 } })

/-- Report to the host. -/
def report (r : Report) (s : State) : State := flushReports (s.host.reports ++ [r]) s

/-- The lowest free tag, if any. -/
def freeTag (s : State) : Option Nat := (List.range 256).find? (fun t => !s.host.tags.any (fun e => e.tag == t))

/-- Word 0 of a report. -/
def reportWord (rank queue cause tag kind : Nat) : Word64 :=
  nat64 (rank % 2 ^ 16 * 2 ^ 32 + queue % 64 * 2 ^ 24 + cause % 256 * 2 ^ 16 + tag % 256 * 2 ^ 8 + kind)

/-- A residency request (kind 2) for some pages; none while every tag is held (R389). -/
def residencyRequest (queue asid va pages : Nat) (write : Bool) (e : TagEntry) (s : State) : Option (Nat × State) :=
  (freeTag s).map fun t =>
    (t, report [reportWord 0 queue 0 t 2, nat64 (va / 4096 * 4096), nat64 (asid + boolBit write 16), nat64 pages]
      { s with host := { s.host with tags := s.host.tags ++ [{ e with tag := t, kind := 2, va := va / 4096 * 4096 }] } })

/-- Free a tag. -/
def dropTag (t : Nat) (s : State) : State :=
  { s with host := { s.host with tags := s.host.tags.filter (fun e => e.tag != t) } }

/-! ### Launch records (R303) -/

/-- Fields of a launch record. -/
def recWord (ws : List Word64) (i : Nat) : Word64 := ws.getD i 0
def recModule (ws : List Word64) : Nat := fieldOf (recWord ws 0) 40 24
def recGraph (ws : List Word64) : Nat := fieldOf (recWord ws 0) 32 8
def recSteps (ws : List Word64) : Nat := fieldOf (recWord ws 0) 0 32
def recPrio (ws : List Word64) : Nat := fieldOf (recWord ws 1) 61 3
def recNres (ws : List Word64) : Nat := fieldOf (recWord ws 1) 57 4
def recParam (ws : List Word64) : Nat := fieldOf (recWord ws 1) 0 57
def recCw (ws : List Word64) : Nat := fieldOf (recWord ws 2) 0 57
def recPlen (ws : List Word64) : Nat := fieldOf (recWord ws 3) 57 7
def recRlist (ws : List Word64) : Nat := fieldOf (recWord ws 3) 0 57
def recWant (ws : List Word64) (i : Nat) : Nat := fieldOf (recWord ws (4 + i)) 61 3
def recDep (ws : List Word64) (i : Nat) : Nat := fieldOf (recWord ws (4 + i)) 0 57

/-- The loaded module with an identifier. -/
def loaded (s : State) (id : Nat) : Option Module := s.disp.modules.find? (fun m => m.id == id)

/-- Does the record fail with BADREC? -/
def badRec (s : State) (ws : List Word64) : Bool :=
  let deps := [0, 1, 2, 3]
  fieldOf (recWord ws 2) 57 7 != 0 || deps.any (fun i => fieldOf (recWord ws (4 + i)) 57 4 != 0) ||
  recGraph ws != 0 ||
  (recParam ws :: recCw ws :: recRlist ws :: deps.map (recDep ws)).any (fun a => a % 8 != 0) ||
  (match loaded s (recModule ws) with
    | none => true
    | some m => decide (1 < recSteps ws) && m.graph.isNone)

/-! ### Writes by the device at a home -/

/-- The record of a line that the host or the I/O die has written: valid, drained, agent 16, release 0
(R286, R378). -/
def recordHost (line slice set : Nat) (s : State) : State :=
  putRec { line := line, slice := slice, set := set, valid := true, dr := true, agent := 16, rel := 0
           inc := incOf s 16, used := 0, owed := owedBy s line 16 } (advancePort slice 7 s)

/-- What a write of the I/O die gives: it is performed, or its page has no valid mapping, or it waits. -/
inductive DevWrite where
  | done (s : State)
  | unmapped
  | wait (s : State)

/-- A write of the I/O die at a line is performed in its turn, once there is room for the line's record (R274, R277). -/
def deviceTurn (line : Nat) (place : Nat × Nat) (s : State) (k : State → State) : DevWrite :=
  if ioTurn s place.1 line = false then .wait s
  else
    match makeRoom line place.1 place.2 65536 s with
    | .blocked => .wait s
    | .draining t => .wait t
    | .ready t => .done (recordHost line place.1 place.2 (k t))

/-- Write 8 bytes at the home as a release of the device; it waits for a bias flip and for the host's grant as any access
does (R377, R379). -/
def deviceRelease (asid va : Nat) (v : Word64) (s : State) : DevWrite :=
  match walk s asid va with
  | none => .unmapped
  | some e =>
    let key := homeKey s e va
    if nonCoherent key then
      .done { homeWriteN key 8 v.toNat s with
        host := { s.host with posted := (key / 2 ^ 59, key % 2 ^ 59, 8, v.toNat) :: s.host.posted } }
    else if (homeReady s key true).isSome then .wait s
    else deviceTurn (key / 128 * 128) (placeOf s key) s (homeWriteN key 8 v.toNat)

/-! ### Completion words (R304) -/

/-- Status codes. -/
def statusDone : Nat := 1
def statusTorn : Nat := 2
def statusAborted : Nat := 3
def statusDropped : Nat := 4
def statusFault : Nat := 5
def statusNofit : Nat := 6
def statusBadrec : Nat := 7

/-- The completion word. -/
def cwWord (status cause rank done_ : Nat) : Word64 :=
  nat64 (status * 2 ^ 56 + cause % 256 * 2 ^ 48 + rank % 65536 * 2 ^ 32 + done_ % 2 ^ 32)

/-- Write a completion word and fire the queue's vector; a page without a valid mapping is asked for first,
and the write waits; it waits for its turn at the home.
DESIGN CHOICE, unsafe (log entry 31). -/
def writeCw (w : CwWrite) (s : State) : State :=
  match deviceRelease w.asid w.addr w.word s with
  | .done t => fire w.queue t
  | .wait t => { t with disp := { t.disp with cwWaiting := t.disp.cwWaiting ++ [{ w with tag := none }] } }
  | .unmapped =>
    match residencyRequest w.queue w.asid w.addr 1 true { tag := 0, kind := 2, who := w.queue, source := 2 } s with
    | some (t, u) => { u with disp := { u.disp with cwWaiting := u.disp.cwWaiting ++ [{ w with tag := some t }] } }
    | none => { s with disp := { s.disp with cwWaiting := s.disp.cwWaiting ++ [{ w with tag := none }] } }

/-- Completion words that found no tag, or had to wait at the home, are tried again. -/
def retryCws (s : State) : State :=
  let ws := s.disp.cwWaiting.filter (fun w => w.tag.isNone)
  ws.foldl (fun s w => writeCw w s) { s with disp := { s.disp with cwWaiting := s.disp.cwWaiting.filter (fun w => w.tag.isSome) } }

/-- Complete a record: its word names no address when cw is 0 or misaligned or its module is not loaded. -/
def complete (queue : Nat) (ws : List Word64) (word : Word64) (s : State) : State :=
  match loaded s (recModule ws) with
  | none => s
  | some m =>
    if recCw ws = 0 ∨ recCw ws % 8 ≠ 0 then s
    else writeCw { queue := queue, asid := m.asid, addr := recCw ws, word := word, tag := none } s

/-! ### Queues (R302) -/

/-- Accept a record in a queue's store with the next sequence number; a host record that fails R303
completes with BADREC. -/
def acceptRec (q : Nat) (e : QEntry) (s : State) : State :=
  let qu := queueAt s q
  let e := { e with seq := qu.nextSeq, deps := [0, 1, 2, 3].map (fun i => recDep e.words i == 0) }
  let s := putQueue { qu with nextSeq := qu.nextSeq + 1 } s
  if e.heldBy.isNone && badRec s e.words then complete q e.words (cwWord statusBadrec 0 0 0) s
  else
    let qu := queueAt s q
    putQueue { qu with store := qu.store ++ [e] } s

/-- Is the launch being torn down: has it ended, or is its queue busy? -/
def tearing (s : State) (l : Launch) : Bool := l.phase == 4 || (queueAt s l.queue).busy

/-- Submit a device-side record (R199): the state and the status. -/
def submit (q : Nat) (ws : List Word64) (handoff : List (Nat × BitVec 16)) (s : State) : State × Nat :=
  let l := myLaunch s
  let qu := queueAt s q
  let e : QEntry := { words := ws, seq := 0, heldBy := some l.id, handoff := handoff }
  if tearing s l then (complete q ws (cwWord statusTorn 0 0 0) s, 0)
  else if qu.busy then (putQueue { qu with heldRec := qu.heldRec ++ [e] } s, 0)
  else if 32 ≤ qu.store.length + qu.heldRec.length then (s, 1)
  else (acceptRec q e s, 0)

/-! ### Ranks and travellers (R31, R320) -/

/-- The rank count of the issuing context's launch, and the entry of a rank. -/
def rankCount (s : State) : Nat := (myLaunch s).ranks.length
def rankEntry (l : Launch) (r : Nat) : RankEntry := l.ranks.getD r {}

/-- A rank-table entry as its 32-bit word. -/
def rankWord (e : RankEntry) : BitVec 32 := BitVec.ofNat 32 (boolBit e.valid 31 + boolBit e.transit 30 + e.ctx % 65536)

/-- G3 to G10. -/
def args (s : State) : List Word64 := [3, 4, 5, 6, 7, 8, 9, 10].map (fun r => s.cur.a.g.toArray.getD r 0)

/-- Word 0 of a traveller. -/
def travWord (origin : Nat) (jv mig rmt spl : Bool) (tmr pc : Nat) : Word64 :=
  nat64 (origin % 65536 * 2 ^ 48 + boolBit jv 39 + boolBit mig 38 + boolBit rmt 37 + boolBit spl 36 +
    tmr % 8 * 2 ^ 33 + pc % 2 ^ 32)

/-- Build a traveller (R194). -/
def traveller (s : State) (pc : Word64) (join : Word64) (mig rmt : Bool) : Traveller :=
  travWord s.cur.bind.rank (join != 0) mig rmt false (fieldOf s.cur.a.sr.tmr 0 3) pc.toNat :: args s ++ [join]

/-- Fields of a traveller. -/
def travW (t : Traveller) (i : Nat) : Word64 := t.getD i 0
def travPc (t : Traveller) : Word64 := nat64 (fieldOf (travW t 0) 0 32)
def travTmr (t : Traveller) : Nat := fieldOf (travW t 0) 33 3
def travMig (t : Traveller) : Bool := bitOf (travW t 0) 38
def travJoin (t : Traveller) : Word64 := if bitOf (travW t 0) 39 then travW t 9 else 0

/-- The context that holds a rank: a SAVED one lies in the dispatcher's list. -/
def savedRank (s : State) (launch rank : Nat) : Option Ctx :=
  s.disp.savedCtx.find? (fun c => c.bind.launch == launch && c.bind.rank == rank)

/-- Change the context that holds a rank of a launch. -/
def modRank (launch rank : Nat) (f : Ctx → Ctx) (s : State) : State :=
  match savedRank s launch rank with
  | some _ =>
    { s with disp := { s.disp with savedCtx := s.disp.savedCtx.map (fun c =>
        if c.bind.launch = launch ∧ c.bind.rank = rank then f c else c) } }
  | none => putCtx (f (ctxOf s (rankEntry (launchAt s launch) rank).ctx)) s

/-- Put something in flight. -/
def sendFlight (f : Flight) (s : State) : State :=
  { s with disp := { s.disp with flight := s.disp.flight ++ [f] } }

/-- A hand-off is a release of the issuing cluster (R219): agent and release number; what its context still has to drain
goes before it. -/
def handoffOf (s : State) : List (Nat × BitVec 16) × State :=
  let es := takeEpoch (myCluster s) s
  (s.cur.handoff ++ [(myCluster s, es.1)], es.2)

/-- The acquire end of a hand-off: the drains of other clusters are owed before the next GLOBAL access. -/
def owe (hs : List (Nat × BitVec 16)) (c : Ctx) : Ctx :=
  { c with handoff := c.handoff ++ hs.filter (fun h => h.1 != clusterOf c.id) }

end Sys2Proof.Machine
end

