-- ==== Sys2Proof/Machine/Barrier.lean ====
section
/-!
DEFINITION. BAR: barriers (R192) and wakes (R193).
-/

namespace Sys2Proof.Machine

open Sys2Proof

/-! ### Barriers (R192) -/

/-- The physical unit that stands for a barrier number of the issuing context's launch. -/
def unitOf (s : State) (n : Nat) : BarUnit :=
  match (clusterAt s (myCluster s)).bars.find? (fun b => b.launch == s.cur.bind.launch && b.number == n) with
  | some b => b
  | none => { unit := n, launch := s.cur.bind.launch, number := n, count := (myModule s).barriers.getD n 0 }

/-- The unit with a number in a cluster. -/
def unitAt (s : State) (c u : Nat) : Option BarUnit := (clusterAt s c).bars.find? (fun b => b.unit == u)

/-- A barrier number that the module declares. -/
def barrierOk (s : State) (n : Nat) : Bool := decide (n < 64) && decide (n < (myModule s).barriers.length)

/-- Send an arrival: a release. -/
def arrive (waits : Bool) (unit : Nat) (s : State) : State :=
  sendFlight (.arrival (myCluster s) unit s.cur.id waits) (drainRelease s.cur.id s)

/-- Forget the kept arrival. -/
def dropKept (s : State) : State := { s with cur := { s.cur with a := { s.cur.a with kept := none } } }

/-- The waiter leaves: BARWT writes G[d]. -/
def barLeave (d : Option Reg) (v : Word64) (s : State) : Out :=
  match d with
  | none => done (dropKept s)
  | some r => done (wr r v (dropKept s))

/-- BARW and BARWT: arrive and wait.  A kept arrival is not sent again; if its phase has completed the
context goes on at once. -/
def barWait (a : Reg) (d : Option Reg) (timeout : Nat) (s : State) : Out :=
  let n := (rd s a).toNat
  if barrierOk s n = false then raise .bounds (rd s a) s
  else
    let b := unitOf s n
    match s.cur.a.kept with
    | some (u, ph) =>
      match unitAt s (myCluster s) u with
      | some x =>
        if x.phase ≠ ph then barLeave d 1 s
        else .next (park (.barrier u ph d (deadlineAt s timeout)) s)
      | none => .next (park (.barrier u ph d (deadlineAt s timeout)) s)
    | none =>
      if classWait s true true then .next (park .releases s)
      else .next (park (.barrier b.unit b.phase d (deadlineAt s timeout)) (arrive true b.unit s))

def execBarw (a : Reg) (s : State) : Out := barWait a none 0 s
def execBarwt (d a b : Reg) (s : State) : Out := barWait a (some d) (rd s b).toNat s

def execBara (a : Reg) (s : State) : Out :=
  let n := (rd s a).toNat
  if barrierOk s n = false then raise .bounds (rd s a) s
  else if classWait s false true then .next (park .releases s)
  else done (arrive false (unitOf s n).unit s)

/-! ### Wakes (R193) -/

def execWake (a b : Reg) (s : State) : Out :=
  let r := (rd s a).toNat
  if rankCount s ≤ r then raise .bounds (rd s a) s
  else if rd s b = 0 then done s
  else if classWait s false true then .next (park .releases s)
  else
    let hs := handoffOf (drainRelease s.cur.id s)
    done (sendFlight (.wake s.cur.id s.cur.bind.launch r ((rd s b).setWidth 16) hs.1) hs.2)

/-- Replace the wake register. -/
def setWake (w : BitVec 16) (s : State) : State := { s with cur := { s.cur with a := { s.cur.a with wake := w } } }

/-- The context acquires the hand-offs of the WAKEs whose bits it takes. -/
def takeWakes (s : State) : State :=
  { s with cur := { owe s.cur.wakeFrom s.cur with wakeFrom := [] } }

def execWfw (d : Reg) (s : State) : Out :=
  if classWait s true false then .next (park .releases s)
  else if s.cur.a.wake = 0 then .next (park .wake s)
  else done (takeWakes (setWake 0 (wr d (s.cur.a.wake.setWidth 64) s)))

/-- DEDUCED, unsafe (log entry 30). -/
def execWclr (a : Reg) (s : State) : Out :=
  let w := s.cur.a.wake &&& ~~~(rd s a).setWidth 16
  let t := setWake w s
  done (if w = 0 then { t with cur := { t.cur with wakeFrom := [] } } else t)

def execWrd (d : Reg) (s : State) : Out := done (wr d (s.cur.a.wake.setWidth 64) s)

end Sys2Proof.Machine
end

