-- ==== Sys2Proof/Machine/Task.lean ====
section
/-!
DEFINITION. TASK: spawns, migration, JOIN, EXIT, YIELD, LAUNCH and RANKQ (R194-R200).
-/

namespace Sys2Proof.Machine

open Sys2Proof

/-! ### Travellers in L1 (R31, R243) -/

/-- A context of a launch on a core, whose bind says where the rings are. -/
def ringOwner (s : State) (core launch : Nat) : Option Ctx :=
  (allCtx s ++ s.disp.savedCtx).find? (fun c => coreOf c.id == core && c.bind.launch == launch && c.run != .unbound)

/-- A word of an area, in its frame or in the backing store. -/
def areaWord (s : State) (cluster area off : Nat) : Nat :=
  match localKey s cluster area off with
  | some k => s.mem.l1.readN k 8
  | none => match s.mem.backing.find? (fun b => b.cluster == cluster && b.area == area && b.page == off / 65536) with
    | some b => b.bytes.readN (off % 65536) 8
    | none => 0

/-- Change the page of the backing store that holds an area offset. -/
def mapBacked (cluster area off : Nat) (f : Backed → Backed) (s : State) : State :=
  { s with mem := { s.mem with backing := s.mem.backing.map (fun b =>
      if b.cluster = cluster ∧ b.area = area ∧ b.page = off / 65536 then f b else b) } }

/-- Log a LOCAL line whose page lies in the backing store (R363). -/
def logBacked (launch cluster area off : Nat) (s : State) : State :=
  match s.mem.backing.find? (fun b => b.cluster == cluster && b.area == area && b.page == off / 65536) with
  | none => s
  | some b =>
    let at_ := off % 65536 / 128 * 128
    let fe := (List.range 16).foldl (fun n i => n + boolBit (!b.empty.contains (at_ + 8 * i)) i) 0
    logUndo launch
      { isLocal := true, cluster := cluster, line := off / 128 * 128, tag := area, fe := fe, old := b.bytes.line at_ } s

/-- Write a word of an area, in its frame or in the backing store. -/
def setAreaWord (launch cluster area off v : Nat) (s : State) : State :=
  match localKey s cluster area off with
  | some k => l1Write launch k 8 v s
  | none => mapBacked cluster area off (fun b =>
      { b with bytes := b.bytes.writeN (off % 65536) 8 v, poison := b.poison.filter (· != off % 65536 / 8 * 8) })
      (logBacked launch cluster area off s)

/-- A byte of an area, in its frame or in the backing store. -/
def areaByte (s : State) (cluster area off : Nat) : Byte :=
  match localKey s cluster area off with
  | some k => s.mem.l1.read k
  | none => match s.mem.backing.find? (fun b => b.cluster == cluster && b.area == area && b.page == off / 65536) with
    | some b => b.bytes.read (off % 65536)
    | none => 0

/-- Bytes of an area. -/
def areaRead (s : State) (cluster area off n : Nat) : List Byte := (List.range n).map (fun i => areaByte s cluster area (off + i))

/-- The traveller whose ten words stand at an offset of a context's area. -/
def travAt (s : State) (c : Ctx) (off : Nat) : Traveller :=
  (List.range 10).map (fun i => nat64 (areaWord s (clusterOf c.id) c.bind.area (off + 8 * i)))

/-- Store a traveller's ten words. -/
def putTrav (c : Ctx) (off : Nat) (t : Traveller) (s : State) : State :=
  (List.range 10).foldl (fun s i =>
    setAreaWord c.bind.launch (clusterOf c.id) c.bind.area (off + 8 * i) (t.getD i 0).toNat s) s

/-! ### Deques (R318) -/

/-- SPL is set when a traveller enters a ring or the overflow list (R31, R319). -/
def setSpl (t : Traveller) : Traveller :=
  match t with
  | [] => []
  | w :: ws => (w ||| nat64 (2 ^ 36)) :: ws

/-- Where a slot of the deque ring of a launch on a core lies: its owner and the area offset. -/
def dequeSlot (s : State) (core : Nat) (d : DequeEntry) : Option (Ctx × Nat) :=
  (ringOwner s core d.launch).map (fun c => (c, c.bind.deqOff + 32 + 80 * d.slot))

/-- An entry of the deque ring, with what stands in its slot now. -/
def fromRing (s : State) (core : Nat) (d : DequeEntry) : DequeEntry :=
  match dequeSlot s core d with
  | some x => { d with trav := travAt s x.1 x.2 }
  | none => d

/-- The entries of a launch in a core's deque ring. -/
def inRing (k : Core) (launch : Nat) : List DequeEntry := k.dequeRing.filter (fun d => d.launch == launch)

/-- Move the oldest entry of the hardware deque to the next slot of its launch's ring.
DESIGN CHOICE, unsafe (log entry 34). -/
def spillDeque (core : Nat) (s : State) : State :=
  let k := coreAt s core
  match k.deque with
  | [] => s
  | x :: xs =>
    let slot := match (inRing k x.launch).getLast? with
      | some d => (d.slot + 1) % 64
      | none => 0
    let x := { x with slot := slot, trav := setSpl x.trav }
    let s := putCore { k with deque := xs, dequeRing := k.dequeRing ++ [x], dqsp := k.dqsp + 1 } s
    match dequeSlot s core x with
    | some p => putTrav p.1 p.2 x.trav s
    | none => s

/-- Push a traveller on a core's deque: a full hardware deque first moves its oldest entry to the ring. -/
def pushDeque (core : Nat) (e : DequeEntry) (s : State) : State :=
  let s := if (coreAt s core).deque.length < 16 then s else spillDeque core s
  let k := coreAt s core
  putCore { k with deque := k.deque ++ [e] } s

/-- Spawns of the core's contexts whose increment is on its way; each has its place on the deque. -/
def spawning (s : State) (core : Nat) : Nat :=
  (s.homes.reqs.filter (fun r => coreOf r.ctx == core && (match r.op with | .spawn _ _ _ none => true | _ => false))).length

/-- Are the hardware deque and the ring that its oldest entry would move to full? -/
def dequeFull (s : State) : Bool :=
  let k := myCore s
  let n := k.deque.length + spawning s (coreOf s.cur.id)
  let launch := match k.deque with
    | x :: _ => x.launch
    | [] => s.cur.bind.launch
  decide (16 ≤ n) && decide (80 ≤ n + (inRing k launch).length)

/-! ### SPAWN and SPAWNR (R195) -/

/-- SPCNT := SPCNT + 1. -/
def countChild (s : State) : State := modSr (fun sr => { sr with spcnt := nat64 ((sr.spcnt.toNat + 1) % 65536) }) s

/-- Push the child on the deque, or send it to a rank. -/
def bear (a b : Reg) (rank : Option Nat) (s : State) : State :=
  let t := traveller s (rd s a) (rd s b) false rank.isSome
  match rank with
  | none => countChild (pushDeque (coreOf s.cur.id) { launch := s.cur.bind.launch, parent := (s.cur.id, s.cur.task), trav := t } s)
  | some r =>
    let hs := handoffOf s
    countChild (sendFlight (.trav s.cur.id
      { rank := r, launch := s.cur.bind.launch, trav := t, handoff := hs.1, parent := some (s.cur.id, s.cur.task) }) hs.2)

/-- SPAWN and SPAWNR after their entry checks.
DEDUCED, unsafe (log entry 26). -/
def spawn (d a b : Reg) (rank : Option Nat) (s : State) : Out :=
  if s.cur.a.sr.splim.toNat ≤ s.cur.a.sr.spcnt.toNat then done (wr d 1 s)
  else if rank.isNone && dequeFull s then done (wr d 2 s)
  else if rd s b = 0 then
    if classWait s true true then .next (park .releases s)
    else done (wr d 0 (bear a b rank (drainRelease s.cur.id s)))
  else
    orTrap s (check s (rd s b) 8 8 .rw .localGlobal) fun e =>
    if classWait s true true then .next (park .releases s)
    else if e.space = 0 then
      orTrap s (placeLocal s (rd s b) e) fun key =>
      let t := drainRelease s.cur.id s
      (Acc.ofCheck (l1Read t (rd s b) key 8) t).andThen s fun old t =>
      done (wr d 0 (bear a b rank (l1Write s.cur.bind.launch key 8 ((old + 1) % 2 ^ 64) t)))
    else postHome (rd s b) e 8 (.spawn d a b rank) false true true true 0 (drainRelease s.cur.id s)

def execSpawn (d a b : Reg) (s : State) : Out :=
  orTrap s (checkTarget s (rd s a)) fun _ => spawn d a b none s

def execSpawnr (d a b : Reg) (s : State) : Out :=
  orTrap s (checkTarget s (rd s a)) fun _ =>
  let r := (rd s d).toNat % 65536
  if rankCount s ≤ r then raise .bounds (rd s d) s else spawn d a b (some r) s

/-! ### MIGR (R196) -/

def execMigr (a : Reg) (s : State) : Out :=
  let r := (rd s a).toNat
  if rankCount s ≤ r then raise .bounds (rd s a) s
  else engineWait true s fun t =>
    let hs := handoffOf t
    let trav := traveller t (linkAddr t) t.cur.a.sr.joinp true false
    .next (endTask (sendFlight (.trav t.cur.id
      { rank := r, launch := t.cur.bind.launch, trav := trav, handoff := hs.1 }) (retire hs.2)))

/-! ### JOIN and EXIT (R197) -/

/-- JOIN.  Outside the table of R140 no instruction uses a STREAM hint up (R64).
DESIGN CHOICE, unsafe (log entry 107). -/
def execJoin (a : Reg) (s : State) : Out :=
  let p := rd s a
  orTrap s (check s p 8 8 .r .localGlobal) fun h =>
  if h.space = 0 then
    orTrap s (placeLocal s p h) fun key =>
    if classWait s true false then .next (park .releases s)
    else
      afterDrain false false key 8 s fun t =>
      (Acc.ofCheck (l1Read t p key 8) t).andThen s fun v t =>
      if v = 0 then done t else .next (bankPark .join key p t)
  else postHome p h 8 .join true false true false 0 s

def execExit (s : State) : Out :=
  engineWait true s fun t =>
    let p := t.cur.a.sr.joinp
    if p = 0 then .next (endTask (retire t))
    else
      orTrap t (check t p 8 8 .rw .localGlobal) fun h =>
      if h.space = 0 then
        orTrap t (placeLocal t p h) fun key =>
        (Acc.ofCheck (l1Read t p key 8) t).andThen t fun old t =>
        .next (endTask (retire (l1Write t.cur.bind.launch key 8 ((old + 2 ^ 64 - 1) % 2 ^ 64) t)))
      else postHome p h 8 .exit false true true true 0 t

/-! ### YIELD, LAUNCH and RANKQ (R198-R200) -/

def execYield (d : Reg) (s : State) : Out :=
  if s.cur.pre = .requested ∧ s.cur.deadline.any (fun t => decide (t < rtm s)) = false then
    .next { retire s with cur := { (retire s).cur with pre := .suspending, coop := some d, deadline := none } }
  else done (wr d 0 s)

/-- A record of 64 bytes as its 8 words. -/
def recordWords (v : Nat) : List Word64 := (List.range 8).map (fun i => nat64 (v / 2 ^ (64 * i)))

/-- Submit a record that has been read. -/
def launchRecord (d : Reg) (q v : Nat) (s : State) : Out :=
  let hs := handoffOf s
  let r := submit q (recordWords v) hs.1 hs.2
  done (wr d (nat64 r.2) r.1)

/-- LAUNCH.  Its record's read neither takes a STREAM hint nor uses it up (R64).
DESIGN CHOICE, unsafe (log entry 107). -/
def execLaunch (d a b : Reg) (s : State) : Out :=
  orTrap s (check s (rd s a) 64 64 .r .localGlobal) fun e =>
  if 64 ≤ (rd s b).toNat then raise .bounds (rd s b) s
  else if classWait s true true then .next (park .releases s)
  else
    let u := drainRelease s.cur.id s
    ((plainLoad (rd s a) e 64 (.launch d (rd s b).toNat) { u with cur := { u.cur with stream := none } }).mapState
      (fun t => { t with cur := { t.cur with stream := s.cur.stream } })).andThen s fun v t =>
    launchRecord d (rd s b).toNat v t

/-- What remains of a SPAWN, SPAWNR or LAUNCH when its access has been performed elsewhere. -/
def taskFinish (op : HomeOp) (v : Nat) (s : State) : Out :=
  match op with
  | .spawn d a b rank => done (wr d 0 (bear a b rank s))
  | .launch d q => launchRecord d q v s
  | _ => done s

def execRankq (d a : Reg) (s : State) : Out :=
  let r := (rd s a).toNat
  if rankCount s ≤ r then done (wr d (BitVec.allOnes 64) s)
  else if (rankEntry (myLaunch s) r).transit then .next (park (.rank r) s)
  else done (wr d (nat64 (rankEntry (myLaunch s) r).ctx) s)

end Sys2Proof.Machine
end

