-- ==== Sys2Proof/Machine/Sys.lean ====
section
/-!
DEFINITION. SYS: traps, services and state registers (R20-R23, R171, R201-R206, R312).
-/

namespace Sys2Proof.Machine

open Sys2Proof

/-! ### State registers -/

/-- The strand of the issuing context: tiles 4j to 4j + 3 of a cluster (R322). -/
def strandOf (id : Nat) : Nat := id / 128
def strandAt (s : State) (k : Nat) : Strand := getBy Strand.id k { id := k } s.plat.strands

/-- THRC: the die cycles at half clock, those of a period that runs included (R323, R326). -/
def halfCycles (k : Strand) (now : Nat) : Nat := if k.throttled then k.thrc + (now - k.since) else k.thrc

/-- CTXID (R22). -/
def ctxidWord (c : Ctx) : Word64 :=
  nat64 (c.bind.queue % 64 * 2 ^ 48 + c.bind.serial % 65536 * 2 ^ 32 + c.bind.asid % 65536 * 2 ^ 16 + c.id % 65536)

/-- The register with an index, as SRD reads it; none where the index names no register. -/
def srRead (s : State) (i : Nat) : Option Word64 :=
  let sr := s.cur.a.sr
  let die := dieAt s (dieOf s.cur.id)
  match i with
  | 0x000 => some (nat64 (s.cur.bind.rank % 65536))
  | 0x001 => some (nat64 (s.cur.id % 65536))
  | 0x002 => some (ctxidWord s.cur)
  | 0x010 => some (nat64 (cyc s s.cur.id))
  | 0x011 => some (nat64 (rtm s))
  | 0x012 => some (nat64 die.fsrt)
  | 0x013 => some (nat64 die.fsrc)
  | 0x014 => some (nat64 die.fsrf)
  | 0x020 => some sr.afl
  | 0x021 => some sr.afen
  | 0x022 => some sr.tmr
  | 0x030 => some sr.tvec
  | 0x031 => some sr.tpc
  | 0x032 => some sr.tcause
  | 0x033 => some sr.tval
  | 0x034 => some sr.tsave
  | 0x035 => some sr.efr0
  | 0x036 => some sr.efr1
  | 0x037 => some sr.efr2
  | 0x038 => some sr.efr3
  | 0x040 => some sr.ksel
  | 0x041 => some sr.mpart
  | 0x042 => some sr.mstra
  | 0x043 => some sr.mstrb
  | 0x044 => some sr.mbm
  | 0x045 => some sr.cpyc
  | 0x050 => some sr.splim
  | 0x051 => some sr.spcnt
  | 0x052 => some sr.arq
  | 0x053 => some sr.joinp
  | 0x054 => some (nat64 ((myCore s).arrc - s.cur.arrc0))
  | 0x055 => some (nat64 ((myCore s).arsp - s.cur.arsp0))
  | 0x056 => some (nat64 ((myCore s).arov - s.cur.arov0))
  | 0x057 => some (nat64 ((myCore s).dqsp - s.cur.dqsp0))
  | 0x060 =>
    let k := strandAt s (strandOf s.cur.id)
    some (nat64 (k.strimb % 65536 + k.strimbTile % 128 * 65536))
  | 0x061 => some (nat64 (strandAt s (strandOf s.cur.id)).balc)
  | 0x062 => some (nat64 (halfCycles (strandAt s (strandOf s.cur.id)) (cyc s s.cur.id)))
  | 0x070 => some sr.step
  | 0x071 => some sr.stepk
  | _ => none

/-- The low `n` bits of a word: reserved bits are not written (R10). -/
def low (n : Nat) (v : Word64) : Word64 := nat64 (v.toNat % 2 ^ n)

/-- The state registers after SWR of a value to an index; none where the index names no register that is
RW. -/
def srWrite (i : Nat) (v : Word64) (sr : SRegs) : Option SRegs :=
  match i with
  | 0x020 => some { sr with afl := low 7 v }
  | 0x021 => some { sr with afen := low 7 v }
  | 0x022 => some { sr with tmr := low 3 v }
  | 0x030 => some { sr with tvec := v }
  | 0x031 => some { sr with tpc := v }
  | 0x032 => some { sr with tcause := low 8 v }
  | 0x033 => some { sr with tval := v }
  | 0x034 => some { sr with tsave := v }
  | 0x040 => some { sr with ksel := v }
  | 0x042 => some { sr with mstra := low 32 v }
  | 0x043 => some { sr with mstrb := low 32 v }
  | 0x044 => some { sr with mbm := v }
  | 0x045 => some { sr with cpyc := low 1 v }
  | 0x050 => some { sr with splim := low 16 v }
  | 0x053 => some { sr with joinp := v }
  | _ => none

/-- DEDUCED, unsafe (log entry 25). -/
def execSrd (d : Reg) (i : BitVec 12) (s : State) : Out :=
  match srRead s i.toNat with
  | some v => done (wr d v s)
  | none => raise .illegal ((fmtS 0x3A#6 d 0 4#4 i).setWidth 64) s

def execSwr (a : Reg) (i : BitVec 12) (s : State) : Out :=
  match srWrite i.toNat (rd s a) s.cur.a.sr with
  | some sr => done (modSr (fun _ => sr) s)
  | none => raise .illegal ((fmtS 0x3A#6 0 a 5#4 i).setWidth 64) s

/-- SRX: the register is read and written as one operation. -/
def execSrx (d a : Reg) (i : BitVec 12) (s : State) : Out :=
  match srRead s i.toNat, srWrite i.toNat (rd s a) s.cur.a.sr with
  | some v, some sr => done (wr d v (modSr (fun _ => sr) s))
  | _, _ => raise .illegal ((fmtS 0x3A#6 d a 6#4 i).setWidth 64) s

/-! ### Traps (R202, R204) -/

/-- The immediate of a SYS member. -/
def sysImm (i : BitVec 12) (s : State) : Int := immZ s 12 i.toNat

def execTrap (i : BitVec 12) (s : State) : Out := deliver .trap (wrap64 (sysImm i s)) s
def execBrk (i : BitVec 12) (s : State) : Out := deliver .brk (wrap64 (sysImm i s)) s

/-- TRET. -/
def execTret (s : State) : Out := trapReturn (fmtS 0x3A#6 0 0 8#4 0) s

def execTfence (s : State) : Out :=
  surfaceAll s fun t =>
    let m := t.cur.a.sr.afl &&& t.cur.a.sr.afen
    if m = 0 then done t else deliver .arith m t

/-! ### Services and waits (R203, R206) -/

/-- SVC: a full fence, and the context parks while the leaf works. -/
def execSvc (i : BitVec 12) (s : State) : Out :=
  if releasePending s s.cur.id then .next (park .releases s)
  else .next (park (.svc (wrap64 (sysImm i s)) (cyc s s.cur.id + 200)) (drainAllOwn s.cur.id s))

def execWaitc (i : BitVec 12) (s : State) : Out :=
  let n := sysImm i s
  if n ≤ 0 then done s else .next (park (.cycles (cyc s s.cur.id + n.toNat)) s)

end Sys2Proof.Machine
end

