-- ==== Sys2Proof/Machine/Blocks.lean ====
section
/-!
DEFINITION. Translation blocks (R315, R337-R342, R349): their words, the entries that discovery finds, the
translation cache of a cluster, and the blocks that contexts are inside of.
-/

namespace Sys2Proof.Machine

open Sys2Proof

/-! ### Words and groups (R65, R66, R339) -/

/-- The code word of a module at a PC. -/
def wordAt (s : State) (m : Module) (pc : Nat) : Option Word32 :=
  if pc < m.codeSize then some (BitVec.ofNat 32 (s.mem.hbm.readN (m.codeAt + pc) 4)) else none

/-- Does a member end a block (R339)? -/
def endsBlock : Member → Bool
  | .beq | .bne | .blt | .bge | .bltn | .bgen | .loop | .jmp | .call | .jr | .callr | .tret | .exit | .migr => true
  | .illegal => true
  | _ => false

/-- Does a word end a block: as a transfer or as a stub (R62)? -/
def wordEnds (rev : Nat) (w : Word32) : Bool :=
  match memberAt rev w with
  | .ok m => endsBlock m
  | .error _ => true

/-- The words of the group at a PC, and whether it ends a block; a misplaced IMMX is a stub of one word (R65). -/
def groupAt (s : State) (m : Module) (pc : Nat) : Option (Nat × Bool) :=
  match wordAt s m pc with
  | none => none
  | some w =>
    if isImmx w then
      match wordAt s m (pc + 4) with
      | none => some (1, true)
      | some v =>
        if widenable v then some (2, wordEnds m.rev v)
        else
          match wordAt s m (pc + 8) with
          | none => some (1, true)
          | some u => if isImmx v && widenable u then some (3, wordEnds m.rev u) else some (1, true)
    else some (1, wordEnds m.rev w)

/-- Words of the block at a PC; `n` is the number of instructions left. -/
def blockWords (s : State) (m : Module) : Nat → Nat → Nat
  | 0, _ => 0
  | n + 1, pc =>
    match groupAt s m pc with
    | none => 0
    | some g =>
      if n = 0 ∧ 1 < g.1 then 0
      else if g.2 || decide (m.codeSize ≤ pc + 4 * g.1) then g.1
      else g.1 + blockWords s m n (pc + 4 * g.1)

/-! ### Discovery (R337) -/

/-- The signed payload-extended displacement of the word at a PC, with the IMMX words before it. -/
def dispAt (s : State) (m : Module) (pc w f : Nat) : Int :=
  let p1 := wordAt s m (pc - 4)
  let p2 := wordAt s m (pc - 8)
  let imm := fun (x : Option Word32) => match x with
    | some v => if isImmx v then [v.extractLsb' 0 23] else []
    | none => []
  let near := if 4 ≤ pc then imm p1 else []
  let far := if 8 ≤ pc ∧ near ≠ [] then imm p2 else []
  widenWith (far ++ near) w f true

/-- The entries that the last word of a group discovers; a target below PC 0 is none (R105). -/
def discovers (s : State) (m : Module) (pc : Nat) : List Nat :=
  match wordAt s m pc with
  | none => []
  | some w =>
    let go := fun (d : Int) => let t := (pc : Int) + 4 * d; if t < 0 then [] else [t.toNat]
    match memberAt m.rev w with
    | .ok .beq | .ok .bne | .ok .blt | .ok .bge | .ok .bltn | .ok .bgen | .ok .loop =>
      go (dispAt s m pc 16 (w.extractLsb' 0 16).toNat) ++ [pc + 4]
    | .ok .jmp => go (dispAt s m pc 26 (w.extractLsb' 0 26).toNat)
    | .ok .call => go (dispAt s m pc 26 (w.extractLsb' 0 26).toNat) ++ [pc + 4]
    | .ok .callr => [pc + 4]
    | _ => []

/-- The last word of the straight run from a PC, with no limit on its length; `n` bounds its groups. -/
def runEnd (s : State) (m : Module) : Nat → Nat → Nat
  | 0, pc => pc
  | n + 1, pc =>
    match groupAt s m pc with
    | none => pc
    | some g => if g.2 || decide (m.codeSize ≤ pc + 4 * g.1) then pc + 4 * (g.1 - 1) else runEnd s m n (pc + 4 * g.1)

/-- Discovery from some entries until no new one appears; `n` bounds the entries looked at. -/
def closure (s : State) (m : Module) : Nat → List Nat → List Nat → List Nat
  | 0, _, found => found
  | _, [], found => found
  | n + 1, e :: es, found =>
    if found.contains e || decide (m.codeSize ≤ e) then closure s m n es found
    else closure s m n (es ++ discovers s m (runEnd s m (m.codeSize / 4) e)) (found ++ [e])

/-- The discovered entries of a module.
DEDUCED, safe (log entry 85). -/
def entriesOf (s : State) (m : Module) : List Nat :=
  closure s m (m.codeSize + m.actors.length + 1) (m.actors.map (fun a => a.entry / 4 * 4) ++ (if m.tvec = 0 then [] else [m.tvec])) []

/-! ### The translation cache (R338, R340) -/

/-- The native revision of a cluster's die (R351). -/
def nativeRev (s : State) (cluster : Nat) : Nat := (dieAt s (cluster / 4)).nativeRev

/-- The resident block of a cluster under a key. -/
def blockAt (s : State) (cluster module entry : Nat) : Option Block :=
  (clusterAt s cluster).blocks.find? (fun b => b.module == module && b.entry == entry && b.rev == nativeRev s cluster)

/-- Is every block at a discovered entry of the module resident in the cluster (R338)? -/
def allResident (s : State) (cluster : Nat) (m : Module) : Bool :=
  (entriesOf s m).all (fun e => (blockAt s cluster m.id e).isSome)

/-- The modules lowered in a cluster, of those that were and of a module whose block has come, after its blocks have
changed. -/
def noteLowered (c : Nat) (new : List Nat) (s : State) : State :=
  let cl := clusterAt s c
  putCluster { cl with lowered := (new.foldl (fun xs id => addOnce id xs) cl.lowered).filter (fun id => allResident s c (moduleAt s id)) } s

/-- Lines of the translation cache that a block of `w` words takes: R340 says at most so many, the model takes them all
(log entry 105: DESIGN CHOICE, safe). -/
def blockLines (w : Nat) : Nat := (16 * w + 256 + 255) / 256

/-- Is the context inside its block (R339)? -/
def inBlock (c : Ctx) : Bool :=
  match c.blk with
  | some b => decide (b.1 ≤ c.a.pc.toNat) && decide (c.a.pc.toNat < b.1 + 4 * b.2)
  | none => false

/-- Is a context of the cluster inside a block, whether it runs or is parked? -/
def executing (s : State) (c : Nat) (b : Block) : Bool :=
  (allCtx s).any (fun x => clusterOf x.id == c && x.bind.module == b.module && x.blk == some (b.entry, b.words) && inBlock x)

/-- Evict the least recently entered blocks that nothing executes until `need` lines are free; none where they do not
become free.  `n` bounds the evictions. -/
def makeLines (s : State) (c need : Nat) : Nat → List Block → Option (List Block)
  | 0, bs => if (bs.map (fun b => blockLines b.words)).sum + need ≤ 32768 then some bs else none
  | n + 1, bs =>
    if (bs.map (fun b => blockLines b.words)).sum + need ≤ 32768 then some bs
    else
      match (bs.filter (fun b => !executing s c b)).foldl (fun x b => match x with
          | none => some b
          | some y => if b.used < y.used then some b else some y) none with
      | none => none
      | some b => makeLines s c need n (dropFirst b bs)

/-- Lower one block: it is resident, unless no line can be freed. -/
def lowerBlock (c : Nat) (m : Module) (entry : Nat) (s : State) : State :=
  if (blockAt s c m.id entry).isSome then s
  else
    let cl := clusterAt s c
    let w := blockWords s m 64 entry
    match makeLines s c (blockLines w) cl.blocks.length cl.blocks with
    | none => s
    | some bs =>
      noteLowered c [m.id] (putCluster { cl with
        blocks := bs ++ [{ module := m.id, entry := entry, rev := nativeRev s c, words := w, used := s.steps }] } s)

/-- Lower some blocks. -/
def lowerAll (c : Nat) (m : Module) : List Nat → State → State
  | [], s => s
  | e :: es, s => lowerAll c m es (lowerBlock c m e s)

/-! ### Entering a block (R315, R340, R342) -/

/-- Has the issuing context a block to run: one it is inside of, or a resident one at its PC? -/
def hasBlock (s : State) (c : Ctx) : Bool :=
  inBlock c || (blockAt s (clusterOf c.id) c.bind.module c.a.pc.toNat).isSome

/-- A translation miss of the issuing context: it parks and asks its cluster's lowering engine. -/
def missBlock (s : State) : State :=
  let c := s.cur
  let cl := clusterAt s (clusterOf c.id)
  let t := putCluster { cl with misses := cl.misses ++ [(c.bind.module, c.a.pc.toNat, c.id)] } s
  park .translation { t with cur := { c with blk := none } }

/-- The BRP that stands before the branch which ends a block: the last one in the block, else the hint in effect at
its entry (R64). -/
def brpOf (s : State) (m : Module) (b : Block) (now : Option Nat) : Option Nat :=
  (List.range b.words).foldl (fun x i => match wordAt s m (b.entry + 4 * i) with
    | none => x
    | some w => match memberAt m.rev w with
      | .ok .brp => some (w.extractLsb' 0 7).toNat
      | _ => x) now

/-- The requests that a context posts as it enters a block: for the fall-through and for the target, the target first
with a BRP of 64 or more (R315).  A request is a context, an address, and which half of its buffer it fills. -/
def fetchPosts (s : State) (b : Block) : List (Nat × Nat × Bool) :=
  let c := s.cur
  let m := moduleAt s c.bind.module
  let fall := b.entry + 4 * b.words
  let ends := discovers s m (fall - 4)
  let here := if ends = [] ∨ ends.contains fall = true then [(c.id, fall, false)] else []
  let away := (ends.filter (· != fall)).map (fun t => (c.id, t, true))
  match brpOf s m b c.brp with
  | some p => if 64 ≤ p then away ++ here else here ++ away
  | none => here ++ away

/-- The issuing context enters the block at its PC. -/
def enterBlock (s : State) : State :=
  if inBlock s.cur then s
  else
    let c := s.cur
    match blockAt s (clusterOf c.id) c.bind.module c.a.pc.toNat with
    | none => s
    | some b =>
      let ps := fetchPosts s b
      let cl := clusterAt s (clusterOf c.id)
      let s := putCluster { cl with blocks := cl.blocks.map (fun x => if x = b then { x with used := s.steps } else x) } s
      let t := tileAt s (tileOf c.id)
      putTile { t with fetchReqs := t.fetchReqs ++ ps }
        { s with cur := { s.cur with
          blk := some (b.entry, b.words)
          half0 := s.cur.half0 && !ps.any (fun p => !p.2.2)
          half1 := s.cur.half1 && !ps.any (fun p => p.2.2) } }

/-- Is the half of the instruction buffer filled that the context's next word comes from (R314, R315)? -/
def halfFilled (c : Ctx) : Bool := inBlock c || (if c.taken then c.half1 else c.half0)

/-- A word that ends its block leaves it once it has completed, a transfer to its own address too; was the transfer
taken? -/
def leaveBlock (rev : Nat) (w : Word32) (pc : Word64) (c : Ctx) : Ctx :=
  if wordEnds rev w && c.run == .running then { c with blk := none, taken := c.a.pc != pc + 4 } else c

end Sys2Proof.Machine
end

