-- ==== Sys2Proof/Machine/Ready.lean ====
section
/-!
DEFINITION. Which contexts may issue, and which one does (R314).
-/

namespace Sys2Proof.Machine

open Sys2Proof

/-- Is the wait over, so that the instruction runs again?  A wait that another step ends is not.
DEDUCED, safe (log entry 75). -/
def waitOver (s : State) (c : Ctx) : Wait → Bool
  | .engineQueue matrix => decide (queued (if matrix then (coreAt s (coreOf c.id)).mq else (coreAt s (coreOf c.id)).cq) < 2)
  | .engines => !engineBusy s c.id
  | .matrixQueue => queued (coreAt s (coreOf c.id)).mq == 0
  | .releases => !releasePending s c.id
  | .wake => c.a.wake != 0
  | .rank r => !(rankEntry (launchAt s c.bind.launch) r).transit
  | .handoff => c.handoff == []
  | .sweep => !bumpStalls s (clusterOf c.id)
  | .hostLine line write => (homeReady s line write).isNone
  | .bias => !bitOf s.host.bfctl 63
  | .relock die => (dieAt s die).relock.isNone
  | .buffer room glob asid addr n =>
    if room then decide ((coreAt s (coreOf c.id)).sbuf.length < 16) &&
      !drainStuck s c.id (fun y => y.ctx != c.id && meets glob asid addr n y)
    else !drainStuck s c.id (meets glob asid addr n)
  | .agent => !shunned s (clusterOf c.id)
  | _ => false

/-- Do the cores of a die issue?  Not while it relocks (R399). -/
def dieRuns (s : State) (id : Nat) : Bool := (dieAt s (dieOf id)).relock.isNone

/-- Is the launch stopped while the host deals with a fault (R355)? -/
def heldLaunch (s : State) (launch : Nat) : Bool := s.host.holds.any (fun h => h.1 == launch)

/-- Does a teardown stop the launch's contexts (R329)? -/
def tornDown (s : State) (launch : Nat) : Bool := (queueAt s (launchAt s launch).queue).busy

/-- Has the context a memory request presented at a bank, or a burst in progress (R248, R250)? -/
def inFlight (s : State) (c : Ctx) : Bool :=
  c.burst.isSome || s.banks.any (fun b => b.pending.any (fun r => r.2.2.1 == c.id && r.2.2.2 == 3))

/-- Does a member use the divider (R88)? -/
def isDivide : Member → Bool
  | .div | .divn | .rem | .remn | .divw | .remw => true
  | _ => false

/-- The member that a context's next word is, if it is one. -/
def nextMember (s : State) (c : Ctx) : Option Member :=
  match wordAt s (moduleAt s c.bind.module) c.a.pc.toNat with
  | none => none
  | some w => match memberAt (moduleAt s c.bind.module).rev w with
    | .ok m => some m
    | .error _ => none

/-- Does the context wait for its core's divider: is its next word a divide while another is in it (R88)? -/
def divWait (s : State) (c : Ctx) : Bool :=
  decide (cyc s c.id < (coreAt s (coreOf c.id)).divUntil) && (nextMember s c).any isDivide

/-- Does a context that a teardown stops still issue a LAUNCH, in the tick in which the teardown reaches the dispatcher: the
two are events of one cycle (R199, R330)?
DEDUCED, unsafe (log entry 45). -/
def launchesNow (s : State) (c : Ctx) : Bool :=
  (queueAt s (launchAt s c.bind.launch).queue).since / 111384 == s.plat.moment / 111384 && nextMember s c == some .launch

/-- Has the collector stopped a context at its yield deadline (R357)? -/
def overdue (s : State) (c : Ctx) : Bool := c.pre == .requested && c.deadline.any (fun t => decide (t < rtm s))

/-- Does the boot stage let launches run: links are up and the bundle's launches are dispatched (R405)?
DEDUCED, safe (log entry 110). -/
def launchesRun (s : State) : Bool := s.plat.stage == 9 || s.plat.stage == 10

/-- May a context issue (R314)?  It runs, with the results it needs at hand (R86), the divider free where it needs it
(R88) and its buffer half filled, or its wait is over; no access of it is at a bank; and neither the collector (R357), a
fault hold (R355), a teardown (R329) nor a brown-out (R407) has stopped it, and the boot has come so far
(R405).
DESIGN CHOICE, safe (log entry 32). -/
def ready (s : State) (c : Ctx) : Bool :=
  (match c.run with
    | .running => decide (c.busyUntil ≤ cyc s c.id) && halfFilled c && !inFlight s c && !divWait s c
    | .parked w => waitOver s c w
    | _ => false) &&
  (c.pre == .running || c.pre == .requested) && !overdue s c && dieRuns s c.id && !heldLaunch s c.bind.launch &&
  (!tornDown s c.bind.launch || launchesNow s c) && !brownStopped s && launchesRun s

/-- The clusters in service (R6, R7). -/
def inService (s : State) : List Nat :=
  (List.range 16).filter (fun c => (!s.plat.gl4012 || decide (c % 4 < 3)) && !(clusterAt s c).out)

/-- Is there a context with the number (R2, R6)?  A cluster out of service has none (R7). -/
def ctxExists (s : State) (id : Nat) : Bool := decide (id < 65536) && (inService s).contains (clusterOf id)

/-- The first ready context of a core in last + 1, ..., last + 4. -/
def barrel (s : State) (k : Core) : Nat → Option Nat
  | 0 => none
  | n + 1 =>
    let id := k.id * 4 + (k.last + (4 - n)) % 4
    if ready s (ctxOf s id) then some id else barrel s k n

/-- The contexts of a core that are ready. -/
def readyOn (s : State) (core : Nat) : List Ctx := (allCtx s).filter (fun c => coreOf c.id == core && ready s c)

/-- The context that PRIO puts first: a ready one with PRIO remaining, unless a ready context has waited 8 cycles (R314).
Of several, the first in the rotation (log entry 106: DESIGN CHOICE, unsafe). -/
def prioChoice (s : State) (k : Core) : Option Nat :=
  if (readyOn s k.id).any (fun c => decide (8 ≤ c.waited)) then none
  else ((List.range 4).map (fun i => k.id * 4 + (k.last + 1 + i) % 4)).find? (fun id =>
    ready s (ctxOf s id) && (ctxOf s id).prio != 0)

/-- The choice of R314: the context that PRIO puts first, else the rotation. -/
def chooseIn (s : State) (k : Core) : Option Nat :=
  match prioChoice s k with
  | some id => some id
  | none => barrel s k 4

end Sys2Proof.Machine
end

