-- ==== Sys2Proof/Machine/Issue.lean ====
section
/-!
DEFINITION. Issue: the words fetched (R66), the bank that an instruction's access is presented at (R239, R250, R251,
R257), plain loads that are performed late (R142, R217), and what an issue leaves behind.
-/

namespace Sys2Proof.Machine

open Sys2Proof

/-! ### Fetch (R66) -/

/-- Is the address inside an instruction group: does an IMMX before it belong to a group that goes on? -/
def insideGroup (s : State) (pc : Nat) : Bool :=
  match codeWord s pc with
  | none => false
  | some w =>
    decide (4 ≤ pc) &&
    (match codeWord s (pc - 4) with
      | none => false
      | some v =>
        isImmx v && (widenable w || (isImmx w && (match codeWord s (pc + 4) with
          | some x => widenable x
          | none => false))))

/-- What a fetch at the PC gives. -/
inductive Fetched where
  | word (w : Word32)
  /-- the code section has ended: BOUNDS -/
  | ended
  /-- arrival inside a group: ILLEGAL with the word there -/
  | inside (w : Word32)
  /-- handle 2 does not admit the fetch (R28) -/
  | barred (t : Trap)
  deriving DecidableEq, Repr

/-- Does the page of the PC's word, where it is mapped, bar execution (R385)? -/
def codeBarred (s : State) : Bool :=
  let m := myModule s
  (lookup s (myCluster s) m.asid ((m.codeVa + s.cur.a.pc.toNat) % 2 ^ 57)).any (fun e => !pteX e.pte)

/-- Fetch for the issuing context, through handle 2.
DEDUCED, unsafe (log entry 23). -/
def fetch (s : State) : Fetched :=
  match codeWord s s.cur.a.pc.toNat with
  | none => .ended
  | some w =>
    match check s (mkPtr 2 s.cur.a.pc.toNat) 4 4 .x .any with
    | .error t => .barred t
    | .ok _ =>
      if codeBarred s then .barred ⟨.perm, mkPtr 2 s.cur.a.pc.toNat⟩
      else if s.cur.a.immx = [] ∧ insideGroup s s.cur.a.pc.toNat = true then .inside w else .word w

/-! ### The bank of an access -/

/-- How an access takes its banks. -/
inductive Reach where
  /-- one word; a plain read merges (R248) -/
  | one (plain : Bool)
  /-- an even word and the odd one beside it; a plain read merges (R251) -/
  | pair (plain : Bool)
  /-- an LDB or STB (R250) -/
  | burst (load : Bool)
  deriving DecidableEq, Repr

/-- An access as it is presented: its words in order, and how it takes their banks. -/
structure Access where
  keys : List Nat
  reach : Reach
  deriving DecidableEq, Repr

/-- The key of the first byte of a checked access: of its LOCAL word, or of a cached line for a plain read. -/
def placeKey (s : State) (p : Word64) (n : Nat) (need : Need) (plain : Bool) : Option Nat :=
  match check s p n 1 need .localGlobal with
  | .error _ => none
  | .ok e =>
    if e.space = 0 then (placeLocal s p e).toOption
    else if plain then
      (lineOf (clusterAt s (myCluster s)) s.cur.bind.asid (vaOf e p)).map
        (fun l => lineKey s (myCluster s) l + vaOf e p % 128)
    else none

/-- Does the context's own store buffer hold bytes of a LOCAL range? -/
def ownBuffered (s : State) (key n : Nat) : Bool :=
  (myCore s).sbuf.any (fun x => x.ctx == s.cur.id && !x.isGlobal && overlaps key n x.addr x.size)

/-- The access of one or two words at a pointer. -/
def accessAt (s : State) (p : Except Trap Word64) (n : Nat) (need : Need) (reach : Reach) (plain : Bool) : Option Access :=
  match p with
  | .error _ => none
  | .ok p =>
    match placeKey s p n need plain with
    | none => none
    | some k => if plain && ownBuffered s k n then none else some ⟨[k], reach⟩

/-- The access of a channel member or knot member at its first word. -/
def accessKey (k : Except Trap Nat) : Option Access :=
  match k with
  | .ok k => some ⟨[k], .one false⟩
  | .error _ => none

/-- The access that a member presents at a bank, if it presents one at once. -/
def accessOf (m : Member) (w : Word32) (s : State) : Option Access :=
  let a := aOf w
  let at8 := ea s a (dispOf w) 8
  let sized := ea s a (dispOf w) (fmtSize (fmtOf w).toNat)
  let wide := if w.getLsbD 4 then 4 else 8
  match m with
  | .ld => accessAt s sized (fmtSize (fmtOf w).toNat) .r (.one true) true
  | .ldp => accessAt s (ea s a (dispOf w) 16) 16 .r (.pair true) true
  | .ldb => match burstPlace s a (w.extractLsb' 12 3) (dispOf w) .r with
    | .ok kp => some ⟨kp.1, .burst true⟩
    | .error _ => none
  | .stb => match burstPlace s a (w.extractLsb' 12 3) (dispOf w) .w with
    | .ok kp => some ⟨kp.1, .burst false⟩
    | .error _ => none
  | .ldacq => accessAt s sized (fmtSize (fmtOf w).toNat) .r (.one false) false
  | .strel => accessAt s sized (fmtSize (fmtOf w).toNat) .w (.one false) false
  | .lde | .feq => accessAt s at8 8 .r (.one false) false
  | .ldc => accessAt s at8 8 .rw (.one false) false
  | .stf | .sto | .sete | .setf => accessAt s at8 8 .w (.one false) false
  | .amoadd | .amoand | .amoor | .amoxor | .amomin | .amomax | .amominn | .amomaxn | .amoswp | .cas =>
    accessAt s (.ok (rd s a)) wide .rw (.one false) false
  | .cas2 => accessAt s (.ok (rd s a)) 16 .rw (.pair false) false
  | .monw | .join => accessAt s (.ok (rd s a)) 8 .r (.one false) false
  | .chld | .chst | .chadvp | .chadvc | .chwaitp | .chwaitc => accessKey ((chanPlace s (w.extractLsb' 17 4)).map (·.2))
  | .chcnt => accessKey ((chanPlace s (w.extractLsb' 17 4)).map (·.2))
  | .kinit | .karr => accessKey ((knotPlace s (rd s a) .rw).map (·.1))
  | .kwait | .ktest => accessKey ((knotPlace s (rd s a) .r).map (·.1))
  | _ => none

/-- The run of a member that may present an access at a bank. -/
def runLocal (m : Member) (w : Word32) (st : State) : Option Out :=
  match m with
  | .ld => some (Sys2Proof.Machine.execLd (dOf w) (aOf w) (fmtOf w) (dispOf w) st)
  | .ldp => some (Sys2Proof.Machine.execLdp (w.extractLsb' 22 4) (aOf w) (dispOf w) st)
  | .ldb => some (Sys2Proof.Machine.execLdb (dOf w) (aOf w) (w.extractLsb' 12 3) (dispOf w) st)
  | .ldacq => some (Sys2Proof.Machine.execLdacq (dOf w) (aOf w) (fmtOf w) (dispOf w) st)
  | .st => some (Sys2Proof.Machine.execSt (dOf w) (aOf w) (fmtOf w) (dispOf w) st)
  | .stp => some (Sys2Proof.Machine.execStp (w.extractLsb' 22 4) (aOf w) (dispOf w) st)
  | .stb => some (Sys2Proof.Machine.execStb (dOf w) (aOf w) (w.extractLsb' 12 3) (dispOf w) st)
  | .strel => some (Sys2Proof.Machine.execStrel (dOf w) (aOf w) (fmtOf w) (dispOf w) st)
  | .lde => some (Sys2Proof.Machine.execLde (dOf w) (aOf w) (dispOf w) st)
  | .ldc => some (Sys2Proof.Machine.execLdc (dOf w) (aOf w) (dispOf w) st)
  | .stf => some (Sys2Proof.Machine.execStf (dOf w) (aOf w) (dispOf w) st)
  | .sto => some (Sys2Proof.Machine.execSto (dOf w) (aOf w) (dispOf w) st)
  | .sete => some (Sys2Proof.Machine.execSete (aOf w) (dispOf w) st)
  | .setf => some (Sys2Proof.Machine.execSetf (aOf w) (dispOf w) st)
  | .feq => some (Sys2Proof.Machine.execFeq (dOf w) (aOf w) (dispOf w) st)
  | .amoadd => some (Sys2Proof.Machine.execAmoadd (dOf w) (aOf w) (bOf w) (w.extractLsb' 5 2) (w.extractLsb' 4 1) st)
  | .amoand => some (Sys2Proof.Machine.execAmoand (dOf w) (aOf w) (bOf w) (w.extractLsb' 5 2) (w.extractLsb' 4 1) st)
  | .amoor => some (Sys2Proof.Machine.execAmoor (dOf w) (aOf w) (bOf w) (w.extractLsb' 5 2) (w.extractLsb' 4 1) st)
  | .amoxor => some (Sys2Proof.Machine.execAmoxor (dOf w) (aOf w) (bOf w) (w.extractLsb' 5 2) (w.extractLsb' 4 1) st)
  | .amomin => some (Sys2Proof.Machine.execAmomin (dOf w) (aOf w) (bOf w) (w.extractLsb' 5 2) (w.extractLsb' 4 1) st)
  | .amomax => some (Sys2Proof.Machine.execAmomax (dOf w) (aOf w) (bOf w) (w.extractLsb' 5 2) (w.extractLsb' 4 1) st)
  | .amominn => some (Sys2Proof.Machine.execAmominn (dOf w) (aOf w) (bOf w) (w.extractLsb' 5 2) (w.extractLsb' 4 1) st)
  | .amomaxn => some (Sys2Proof.Machine.execAmomaxn (dOf w) (aOf w) (bOf w) (w.extractLsb' 5 2) (w.extractLsb' 4 1) st)
  | .amoswp => some (Sys2Proof.Machine.execAmoswp (dOf w) (aOf w) (bOf w) (w.extractLsb' 5 2) (w.extractLsb' 4 1) st)
  | .cas => some (Sys2Proof.Machine.execCas (dOf w) (aOf w) (bOf w) (w.extractLsb' 5 2) (w.extractLsb' 4 1) st)
  | .cas2 => some (Sys2Proof.Machine.execCas2 (w.extractLsb' 22 4) (aOf w) (fmtOf w) (w.extractLsb' 5 2) st)
  | .monw => some (Sys2Proof.Machine.execMonw (dOf w) (aOf w) (bOf w) st)
  | .chld => some (Sys2Proof.Machine.execChld (dOf w) (w.extractLsb' 17 4) (w.extractLsb' 9 4) (w.extractLsb' 0 9) st)
  | .chst => some (Sys2Proof.Machine.execChst (dOf w) (w.extractLsb' 17 4) (w.extractLsb' 9 4) (w.extractLsb' 0 9) st)
  | .chadvp => some (Sys2Proof.Machine.execChadvp (w.extractLsb' 17 4) (w.extractLsb' 0 9) st)
  | .chadvc => some (Sys2Proof.Machine.execChadvc (w.extractLsb' 17 4) (w.extractLsb' 0 9) st)
  | .chwaitp => some (Sys2Proof.Machine.execChwaitp (w.extractLsb' 17 4) (w.extractLsb' 0 9) st)
  | .chwaitc => some (Sys2Proof.Machine.execChwaitc (w.extractLsb' 17 4) (w.extractLsb' 0 9) st)
  | .chcnt => some (Sys2Proof.Machine.execChcnt (dOf w) (w.extractLsb' 17 4) st)
  | .kinit => some (Sys2Proof.Machine.execKinit (aOf w) (bOf w) st)
  | .karr => some (Sys2Proof.Machine.execKarr (aOf w) (bOf w) st)
  | .kwait => some (Sys2Proof.Machine.execKwait (dOf w) (aOf w) (bOf w) st)
  | .ktest => some (Sys2Proof.Machine.execKtest (dOf w) (aOf w) st)
  | .join => some (Sys2Proof.Machine.execJoin (aOf w) st)
  | _ => none

/-! ### Reserved cycles (R248-R251) -/

/-- Reserve the cycles of the words of a burst after the first, one cycle each; `hold` says what each is for. -/
def reserveWords (hold : Nat → Hold) (now : Nat) : Nat → List Nat → State → State
  | _, [], s => s
  | i, k :: ks, s => reserveWords hold now (i + 1) ks (reserve k (now + i) (hold i) s)

/-- The odd half that a pair reserves as it is served at its even bank (R251). -/
def reserveOdd (x : Access) (now : Nat) (s : State) : State :=
  match x.reach, x.keys with
  | .pair _, k :: _ => reserve (k / 16 * 16 + 8) now .busy s
  | _, _ => s

/-- The bank at which an access is presented. -/
def Access.bank (x : Access) (s : State) : Nat := bankOf s (x.keys.headD 0)

/-- The bank that keeps an access waiting: one it takes now whose cycle is reserved or owed to a retry (R248, R251,
R254). -/
def Access.owed (x : Access) (s : State) : Option Nat :=
  let b := x.bank s
  let odd := bankOf s (x.keys.headD 0 / 16 * 16 + 8)
  if owedAt s b then some b
  else
    match x.reach with
    | .pair _ => if owedAt s odd then some odd else none
    | _ => none

/-- The bank at which an access cannot be served at once: one that keeps it waiting, or its own where other requests are
presented (R248). -/
def Access.blocked (x : Access) (s : State) : Option Nat :=
  match x.owed s with
  | some b => some b
  | none => if (bankAt s (x.bank s)).pending = [] then none else some (x.bank s)

/-! ### Late loads (R142, R217) -/

/-- Do two ranges of a space overlap? -/
def sameBytes (e : HandleEntry) (p : Word64) (n : Nat) (f : HandleEntry) (q : Word64) (m : Nat) : Bool :=
  e.space == f.space && overlaps (e.base + ov p) n (f.base + ov q) m

/-- The registers that a memory member names beside a and b: d, or those of a pair or a burst. -/
def regsOf (m : Member) (w : Word32) : List Reg :=
  match m with
  | .ldp | .stp => [dOf w, dOf w ^^^ 1]
  | .ldb | .stb => (List.range ((w.extractLsb' 12 3).toNat + 1)).map (fun i => dOf w + BitVec.ofNat 5 i)
  | .cas2 => [dOf w, dOf w ^^^ 1, bOf w, bOf w ^^^ 1]
  | _ => [dOf w]

/-- May a posted load still be performed after the instruction?  Not after a release or a fence, nor after one that reads or
writes its register, or that accesses its bytes. -/
def keepsPost (m : Member) (w : Word32) (s : State) (x : Post) : Bool :=
  let major := (w.extractLsb' 26 6).toNat
  let regs := regsOf m w ++ [aOf w, bOf w, cOf w]
  let free := !regs.contains x.d && !(x.fmt == pairFmt && regs.contains (x.d + 1))
  let apart := fun (p : Except Trap Word64) (n : Nat) => match p with
    | .error _ => false
    | .ok q => !sameBytes x.entry x.ptr x.n (entryOf s q) q n
  let noRel := !w.getLsbD 6
  match m with
  | .ld | .st | .ldacq => free && apart (ea s (aOf w) (dispOf w) (fmtSize (fmtOf w).toNat)) (fmtSize (fmtOf w).toNat)
  | .ldp | .stp => free && apart (ea s (aOf w) (dispOf w) 16) 16
  | .ldb | .stb => free && apart (ea s (aOf w) (dispOf w) 8) (8 * ((w.extractLsb' 12 3).toNat + 1))
  | .sto | .sete | .setf | .feq | .lde | .ldc => free && apart (ea s (aOf w) (dispOf w) 8) 8
  | .amoadd | .amoand | .amoor | .amoxor | .amomin | .amomax | .amominn | .amomaxn | .amoswp | .cas =>
    free && noRel && apart (.ok (rd s (aOf w))) 8
  | .cas2 => free && noRel && apart (.ok (rd s (aOf w))) 16
  | .kinit | .ktest | .monw => free && apart (.ok (rd s (aOf w))) 8
  | .call | .jr | .callr => false
  | _ => free && (decide (major < 0x20) || (decide (0x29 ≤ major) && decide (major ≤ 0x30)) || decide (major = 0x3F))

/-- The posted loads that may not pass an instruction stand as they were read. -/
def prunePosts (m : Except DecodeReject Member) (w : Word32) (s : State) : State :=
  let keep := fun (x : Post) => match m with
    | .ok m => keepsPost m w s x
    | .error _ => false
  { s with cur := { s.cur with posted := s.cur.posted.filter keep } }

/-- The loads of a member that may be performed later: LD and LDP; none from IO, none under the policy UC, whose accesses
stay in order (R147), none whose conversion sets a flag.  The entry keeps the policy in effect. -/
def postsOf (m : Member) (w : Word32) (s : State) : List Post :=
  let post := fun (p : Except Trap Word64) (n : Nat) (d : Reg) (f : Nat) => match p with
    | .error _ => []
    | .ok p =>
      let e := entryOf s p
      let policy := policyOf s e
      if e.space = 2 ∨ d = 0 ∨ (e.space = 1 ∧ policy = 2) then []
      else [{ ptr := p, entry := { e with policy := policy }, n := n, d := d, fmt := f : Post }]
  match m with
  | .ld => if fmtOf w = 7 then [] else post (ea s (aOf w) (dispOf w) (fmtSize (fmtOf w).toNat)) (fmtSize (fmtOf w).toNat) (dOf w) (fmtOf w).toNat
  | .ldp => post (ea s (aOf w) (dispOf w) 16) 16 (evenReg (w.extractLsb' 22 4)) pairFmt
  | _ => []

/-- Is the bank of a posted load's word free, where it has one? -/
def postFree (s : State) (x : Post) : Bool :=
  if x.entry.space = 0 then
    match placeLocal s x.ptr x.entry with
    | .ok k => bankFree s k
    | .error _ => true
  else
    match lineOf (clusterAt s (myCluster s)) s.cur.bind.asid (vaOf x.entry x.ptr) with
    | some l => bankFree s (lineKey s (myCluster s) l + vaOf x.entry x.ptr % 128)
    | none => true

/-- A posted load is performed now, under the policy in effect at its issue: its register takes the value.  Where the
access would fault or wait, the value read at issue stands; where its bank is not free, it is performed later. -/
def performPost (id i : Nat) (s : State) : Out :=
  let t := switchTo id s
  match t.cur.posted[i]? with
  | none => .next s
  | some x =>
    if postFree t x = false then .next s
    else
      let hint := t.cur.stream
      let u := { t with cur := { t.cur with posted := t.cur.posted.eraseIdx i, stream := none } }
      let back := fun (v : State) => .next { v with cur := { v.cur with stream := hint } }
      match plainLoad x.ptr x.entry x.n (.load x.d x.fmt) u with
      | .ok raw v => back (if x.fmt = pairFmt then wrPair (x.d.extractLsb' 1 4) raw v else wr x.d (loadConv x.fmt raw).1 v)
      | _ => back u

/-! ### An issue -/

/-- What the barrel notes when a context issues a word (R311, R314): PRIO counts down where it chose the context; a gated
core's clock runs again (R317).
DEDUCED, safe (log entry 24). -/
def noteIssue (w : Word32) (s : State) : State :=
  let k := myCore s
  let own := s.cur.id
  let first := prioChoice s k == some own
  let s := prunePosts (memberAt (myModule s).rev w) w (enterBlock s)
  let wait := fun (c : Ctx) => if coreOf c.id == k.id && c.id != own && ready s c then { c with waited := c.waited + 1 } else c
  putCore { k with last := own % 4, gated := false }
    { s with
      cur := { s.cur with
        issued := true, waited := 0, run := .running
        prio := if first && !isImmx w then s.cur.prio - 1 else s.cur.prio }
      others := s.others.map wait }

/-- The access that a word presents for the issuing context. -/
def wordAccess (w : Word32) (s : State) : Option Access :=
  match memberAt (myModule s).rev w with
  | .ok m => accessOf m w s
  | .error _ => none

/-- Is it an acquire of R142 or R208, as far as its word says? -/
def acquires (m : Member) (w : Word32) : Bool :=
  match m with
  | .ldacq | .lde | .ldc | .monw | .join | .chld | .chst | .chwaitp | .chwaitc | .chcnt | .kwait | .barw | .barwt | .wfw => true
  | .amoadd | .amoand | .amoor | .amoxor | .amomin | .amomax | .amominn | .amomaxn | .amoswp | .cas | .cas2 => w.getLsbD 5
  | _ => false

/-- Bits of a number below 2^65. -/
def bitLength (n : Nat) : Nat := ((List.range 65).filter (fun i => decide (2 ^ i ≤ n))).length

/-- Cycles of a divide with a dividend and a divisor (R93). -/
def divLatency (x y : Nat) : Nat := 18 + 3 * ((bitLength (x / y) + 3) / 4)

/-- Cycles that a member keeps the divider busy, if it is a divide (R88, R93). -/
def divCycles (m : Member) (w : Word32) (s : State) : Option Nat :=
  let x := rd s (aOf w)
  let y := rd s (bOf w)
  let low := fun (v : Word64) => (sext (v.toNat % 2 ^ 32) 32).natAbs
  match m with
  | .div | .rem => some (divLatency x.toInt.natAbs y.toInt.natAbs)
  | .divn | .remn => some (divLatency x.toNat y.toNat)
  | .divw | .remw => some (divLatency (low x) (low y))
  | _ => none

/-- The divider is busy until the result of a divide is usable. -/
def takeDivider (m : Member) (w : Word32) (s t : State) : State :=
  match divCycles m w s with
  | none => t
  | some n => putCore { coreAt t (coreOf s.cur.id) with divUntil := cyc s s.cur.id + n } t

/-- After an issue: the block may have been left (R339), a result may not be ready yet (R86), the divider may be busy
(R88), and `late` loads stay posted. -/
def afterIssue (late : Bool) (w : Word32) (s t : State) : State :=
  let c := leaveBlock (myModule s).rev w s.cur.a.pc (ctxOf t s.cur.id)
  let posts := match memberAt (myModule s).rev w with
    | .ok m => if late && c.run == .running && c.a.pc == s.cur.a.pc + 4 then postsOf m w s else []
    | .error _ => []
  let t := putCtx { c with busyUntil := cyc s s.cur.id + Config.latency s.steps, posted := c.posted ++ posts } t
  match memberAt (myModule s).rev w with
  | .ok m => takeDivider m w s (if acquires m w && c.run == .running then acquired s.cur.id t else t)
  | .error _ => t

/-- An LDB that has loaded its first word has the others to come, each in its bank's reserved cycle; a failure of one goes
back to the state before the LDB. -/
def burstOf (w : Word32) (x : Access) (s t : State) : State :=
  let c := ctxOf t s.cur.id
  if c.run == .running && x.keys.length != 1 then
    let p := match ea s (aOf w) (dispOf w) 8 with
      | .ok p => p
      | .error _ => 0
    putCtx { c with burst := some { pc := groupPc s, ptr := p, g := s.cur.a.g, due := x.keys.tail } } t
  else t

/-- After an access that its bank has served at once: the pointers move, and its further words reserve their cycles. -/
def afterAccess (w : Word32) (x : Option Access) (s t : State) : State :=
  match x with
  | none => t
  | some x =>
    if (ctxOf t s.cur.id).run = .stopped then t
    else
      let key := x.keys.headD 0
      let now := bankCyc s (bankOf s key)
      let id := s.cur.id
      let u := takeBank key (coreOf id) 0 t
      match x.reach with
      | .burst true => reserveWords (fun i => .word [(id, dOf w + BitVec.ofNat 5 i)]) now 1 x.keys.tail (burstOf w x s u)
      | _ => reserveOdd x now u

end Sys2Proof.Machine
end

