-- ==== Sys2Proof/Machine/BankDev.lean ====
section
/-!
DEFINITION. Device steps at the banks: the store buffer (R144), wait lists (R154, R253, R254), soft errors and self-tests
(R369-R373).
-/

namespace Sys2Proof.Machine

open Sys2Proof

/-! ### Store buffer (R144) -/

/-- May the entry at an index be performed: no older store of its context overlaps it (R143)? -/
def mayDrain (q : List SBEntry) (i : Nat) : Bool :=
  match q[i]? with
  | none => false
  | some x => (q.take i).all (fun y =>
      !(y.ctx == x.ctx && sameSpace x.isGlobal x.asid y && overlaps x.addr x.size y.addr y.size))

/-- The access of a buffered store to LOCAL. -/
def storeAccess (x : SBEntry) : Access := ⟨[x.addr], if x.size = 16 then .pair false else .one false⟩

/-- May the entry at an index be performed as far as its core is concerned: no older store of its context holds it back,
nothing keeps its line, and its die's clock runs (R399)? -/
def drainable (s : State) (core i : Nat) : Bool :=
  let q := (coreAt s core).sbuf
  mayDrain q i && (dieAt s (core / 4096)).relock.isNone && (match q[i]? with
    | some x => !lineStuck s x
    | none => false)

/-- Perform the entry at an index of a core's store buffer. -/
def drainEntry (core i : Nat) (s : State) : State :=
  let k := coreAt s core
  match k.sbuf[i]? with
  | none => s
  | some x => if drainable s core i then performStore x (putCore { k with sbuf := k.sbuf.eraseIdx i } s) else s

/-! ### Errors (R369-R373) -/

/-- The counters of a source: corrected, uncorrected. -/
def errOf (s : State) (src : Nat) : BitVec 32 × BitVec 32 := (getBy (·.1) src (src, 0, 0) s.host.errs).2

/-- Where a record comes in the log: behind those of earlier ticks, and among those of its tick by source (R373). -/
def logPlace (r : ErrRec) (log : List ErrRec) : Nat :=
  (log.filter (fun x => !(x.time == r.time && decide (r.source < x.source)))).length

/-- Count an error, write its log record, and start its self-test.  A log of 256 records keeps the first 256.
DEDUCED, safe (log entry 116). -/
def countError (src : Nat) (uncorrected : Bool) (addr : Nat) (s : State) : State :=
  let e := errOf s src
  let e := if uncorrected then (e.1, e.2 + 1) else (e.1 + 1, e.2)
  let r : ErrRec := {
    source := src, uncorrected := uncorrected, count := (if uncorrected then e.2 else e.1).toNat, time := rtm s, addr := addr }
  let p := logPlace r s.host.elog
  let kept := fun (i : Nat) => if i < 256 then some i else none
  { s with host := { s.host with
      errs := putBy (·.1) (src, e) s.host.errs
      elog := (s.host.elog.take p ++ r :: s.host.elog.drop p).take 256
      ovf := s.host.ovf || decide (256 ≤ s.host.elog.length)
      tests := s.host.tests.map (fun t => (t.1, t.2.bind (fun i => kept (if p ≤ i then i + 1 else i)))) ++ [(src, kept p)] } }

/-- The error source of the bank that holds a word, and the word's index in the bank: a bank holds two words of each
INTERLEAVED page (R239), and a TILE page's where the spec does not say. -/
def bankSource (s : State) (key : Nat) : Nat := bankOf s key
def bankIndex (s : State) (key : Nat) : Nat :=
  let frame := key / 65536 % 4096
  let e := pmOf (clusterAt s (key / 2 ^ 28)) frame
  let w := key % 65536 / 8
  if pmValid e && pmUse e == 0 && pmTile e then Config.bankWord frame w else 2 * frame + w / 4096

/-- The error that the check of a word finds on an access: 1 a corrected one, 2 an uncorrectable one, which poisons the
word before it is read, so that the access fails (R247); 0 none. -/
def checkWord (err key : Nat) (s : State) : State :=
  match err with
  | 0 => s
  | 1 => countError (bankSource s key) false (bankIndex s key) s
  | _ =>
    countError (bankSource s key) true (bankIndex s key) { s with mem := { s.mem with poison := insertKey (key / 8 * 8) s.mem.poison } }

/-! ### Retries (R154, R253, R254) -/

/-- The state that an outcome gives. -/
def Out.state (o : Out) (s : State) : State :=
  match o with
  | .next t => t
  | _ => s

/-- The bank's operation of a parked context, tried again: none when it stays parked. -/
def tryParked (pk : Parked) (s : State) : Option Out :=
  let t := runCur (switchTo pk.ctx s)
  let launch := t.cur.bind.launch
  let poisoned := l1Poisoned t pk.key 8
  let w := t.mem.l1.readN pk.key 8
  match pk.op with
  | .lde d =>
    if poisoned then some (raise .poison pk.ptr t)
    else if isFull t pk.key then some (memDone (takeFull launch false d pk.key t)) else none
  | .ldc d =>
    if poisoned then some (raise .poison pk.ptr t)
    else if isFull t pk.key then some (memDone (takeFull launch true d pk.key t)) else none
  | .stf v =>
    if poisoned then some (raise .poison pk.ptr t)
    else if isFull t pk.key then none else some (memDone (putFull launch pk.key v t))
  | .monw d e _ =>
    if poisoned then some (raise .poison pk.ptr t)
    else if nat64 w = e then none else some (memDone (wr d (nat64 w) t))
  | .chan sub d c f n =>
    match chanAgain sub d c f n t with
    | .next u => if u.cur.run = .parked (.bank pk.key) then none else some (.next u)
    | o => some o
  | .kwait d phase =>
    let off := (areaOff t pk.key).2
    if poisoned then some (raise .poison pk.ptr t)
    else if knotPhase w ≠ phase ∨ (knotFault t off).isSome then some (kwaitReturn d off w t) else none
  | .join =>
    if poisoned then some (raise .poison pk.ptr t) else if w = 0 then some (done t) else none
  | .cpych _ _ => none

/-- A CPYCH that finds its free slots leaves the wait list; its command goes on (R298). -/
def tryCpych (pk : Parked) (core n : Nat) (s : State) : Option State :=
  let f := qcwAt s.mem.l1 pk.key
  if f.ok && decide (n ≤ f.free) then
    let k := coreAt s core
    some (putCore { k with cq := k.cq.map (fun c => if c.parked && c.ctx == pk.ctx then { c with parked := false } else c) } s)
  else none

/-- Remove a parked entry from its bank. -/
def unpark (pk : Parked) (s : State) : State :=
  let b := bankAt s (bankOf s pk.key)
  putBank { b with waiters := b.waiters.filter (fun x => x != pk), once := b.once.filter (fun x => x != pk) } s

/-- Is the operation an acquire (R142)? -/
def ParkOp.acquires : ParkOp → Bool
  | .stf _ => false
  | .cpych _ _ => false
  | _ => true

/-- The context whose parked operation has completed, if that is an acquire, may not read what its cluster's contexts
may not. -/
def noteAcquired (pk : Parked) (s : State) : State := if pk.op.acquires then acquired pk.ctx s else s

/-- Retry one entry: on success it leaves the list. -/
def retryOne (pk : Parked) (s : State) : State :=
  match pk.op with
  | .cpych core n =>
    match tryCpych pk core n s with
    | some t => unpark pk t
    | none => s
  | _ =>
    match tryParked pk (unpark pk s) with
    | some o => noteAcquired pk (o.state s)
    | none => s

/-- Retry some entries in park order. -/
def retryAll : List Parked → State → State
  | [], s => s
  | pk :: pks, s => retryAll pks (retryOne pk s)

/-- One retry pass: over the entries for a changed word, or over one that came from the overflow table, if it still
waits (R253, R254); `err` is the check of the word. -/
def retryPass (bank err : Nat) (s : State) : State :=
  let b := bankAt s bank
  match b.retry with
  | w :: ws => retryAll (b.waiters.filter (fun p => p.key == w)) (checkWord err w (putBank { b with retry := ws } s))
  | [] =>
    match b.once with
    | p :: ps =>
      let t := putBank { b with once := ps } s
      if b.waiters.contains p then retryOne p (checkWord err p.key t) else t
    | [] => s

def execWaitListRetry (bank : Nat) (s : State) : Out :=
  if stopped s (bank / 16384) then .next s else .next (retryPass bank 0 s)

/-! ### The overflow table and refused operations (R253) -/

/-- The oldest overflow-table entry of a bank moves into a free list entry and is retried once. -/
def execOverflowTableMove (bank : Nat) (s : State) : Out :=
  let b := bankAt s bank
  let t := tileAt s (bank / 32)
  match t.table.filter (fun p => bankOf s p.key == bank) with
  | p :: _ =>
    if b.waiters.length < 8 ∧ stopped s (bank / 16384) = false then
      .next (putBank { b with waiters := b.waiters ++ [p], once := b.once ++ [p] }
        (putTile { t with table := dropFirst p t.table } s))
    else .next s
  | [] => .next s

/-- A refused operation whose condition holds completes; none when it does not. -/
def tryRefused (p : Parked) (s : State) : Option Out :=
  match p.op with
  | .cpych core n => (tryCpych p core n s).map .next
  | _ => (tryParked p s).map (fun o => .next (noteAcquired p (o.state s)))

/-- The refused operations are presented again: the first whose condition holds completes, or else the one with the
oldest sequence number takes a free list entry of its bank or a freed table entry. -/
def execRefusedRepresentation (tile : Nat) (s : State) : Out :=
  let t := tileAt s tile
  let done := t.refused.findSome? (fun x =>
    tryRefused x.2 (putTile { t with refused := t.refused.filter (· != x) } s))
  if stopped s (tile / 512) then .next s
  else
    match done with
    | some o => o
    | none =>
      match t.refused with
      | [] => .next s
      | x :: _ => .next (parkOldest x.1 x.2 s)

/-! ### Self-tests (R370, R372) -/

/-- Retire the unit of a source: the state and the action code. -/
def retireUnit (src : Nat) (spare : Bool) (s : State) : State × Nat :=
  let note := fun (a : Nat) (s : State) => ({ s with homes := { s.homes with retired := (src, a) :: s.homes.retired } }, a)
  if src < 0x10000 then
    let b := bankAt s src
    if 0 < b.spares then (putBank { b with spares := b.spares - 1 } s, 1)
    else (putCluster { clusterAt s (src / 4096) with outNext := true } s, 5)
  else if src < 0x10100 then note 2 s
  else if src < 0x10300 then (if spare then note 1 s else note 3 s)
  else note 4 s

/-- A self-test ends.  `spare` says whether an HBM pseudo-channel has a spare row left.
DESIGN CHOICE, safe (log entry 33). -/
def execSelfTestEnd (index : Nat) (lasting spare : Bool) (s : State) : Out :=
  match s.host.tests[index]? with
  | none => .next s
  | some (src, rec) =>
    let s := { s with host := { s.host with tests := s.host.tests.eraseIdx index } }
    let r := if lasting then retireUnit src spare s else (s, 0)
    match rec with
    | none => .next r.1
    | some i =>
      match r.1.host.elog[i]? with
      | none => .next r.1
      | some e =>
        .next (fire 65 { r.1 with host := { r.1.host with
          elog := setAt r.1.host.elog i { e with lasting := lasting, action := r.2, done := true } } })

end Sys2Proof.Machine
end

