-- ==== Sys2Proof/Machine/CacheDev.lean ====
section
/-!
DEFINITION. Device steps of the cluster cache: fills (R267, R268), sweep passes (R275), epoch writebacks
(R276), conversion and growth (R257-R260), and evictions (R218, R266).
-/

namespace Sys2Proof.Machine

open Sys2Proof

/-- Does a line lie in a frame that a conversion takes from the cache (R259)? -/
def converting (cl : Cluster) (l : Line) : Bool := cl.conv.any (fun k => decide (k.newFrames ≤ l.pos / 512))

/-- A fill that arrives for a frame that leaves the cache is discarded and requested again, into the frames that stay; a
line there leaves them first (R259). -/
def refetch (cluster asid va policy : Nat) (s : State) : State :=
  let s := exportLine cluster asid va s
  let cl := clusterAt s cluster
  if allocFrames cl = 0 then s
  else putCluster { cl with fills := cl.fills ++ [(asid, va, cl.v, allocFrames cl, policy)] } s

/-- Does an error source belong to a line's home: its slice, its pseudo-channel, or a lane of a link that joins its die to
another, or to die `from_` alone where the reader's die is known (R371)? -/
def sourceFits (s : State) (line source : Nat) (from_ : Option Nat) : Bool :=
  let slice := (placeOf s line).1
  let die := slice / 64
  let ends := [(0, 1), (0, 2), (0, 3), (1, 2), (1, 3), (2, 3)]
  let link := (source - 0x10300) / 64
  if 0x10300 ≤ source then
    (match ends[link]? with
      | some p => decide (slice < 256) && ((p.1 == die && from_.all (· == p.2)) || (p.2 == die && from_.all (· == p.1)))
      | none => decide (link < 10) && (slice == 256 || link - 6 == die) && (slice != 256 || from_.all (· == link - 6)))
  else if slice = 256 then false
  else if 0x10100 ≤ source then decide (line < 2 ^ 60) && source == 0x10100 + pchOf s line
  else source == 0x10000 + slice

/-- An access at a line's home meets an error: it is counted, and an uncorrectable one poisons the line (R369, R372). -/
def meetError (line source : Nat) (bad : Bool) (s : State) : State :=
  countError source bad (if 0x10300 ≤ source then 0 else line) (if bad then poisonHome line s else s)

/-- The next access at a line's home meets an error; a source that is none of the line's is nothing.
DEDUCED, safe (log entry 116). -/
def homeError (line source : Nat) (bad : Bool) (s : State) : Out :=
  let line := line / 128 * 128
  .next (if sourceFits s line source none then meetError line source bad s else s)

/-- A requested fill arrives: the home's bytes go to the unmasked positions, tagged with the version the
request left with.  `err` is the home's check: 1 a corrected error, 2 an uncorrectable one of source `source`, which
poisons the line. -/
def execCacheFill (cluster index err source : Nat) (s : State) : Out :=
  let cl := clusterAt s cluster
  match cl.fills[index]? with
  | none => .next s
  | some (asid, va, v, frames, policy) =>
    match translate cluster asid va s with
    | (none, _) => .next (putCluster { cl with fills := cl.fills.eraseIdx index } s)
    | (some e, s) =>
      let key := homeKey s e va
      match homeReady s key false with
      | some _ => .next s
      | none =>
        if shunned s cluster || stopped s (cluster / 4) then .next s
        else
          let cl := clusterAt s cluster
          let s := putCluster { cl with fills := cl.fills.eraseIdx index } s
          let line := key / 128 * 128
          let s := if err = 0 ∨ sourceFits s line source (some (cluster / 4)) = false then s else meetError line source (err != 1) s
          if s.homes.poison.contains (key / 128 * 128) || allocFrames cl == 0 then .next s
          else
            match lineOf (clusterAt s cluster) asid va with
            | some l =>
              if converting cl l then .next (refetch cluster asid va policy s)
              else if l.present && l.v == cl.v then .next s
              else .next (fillLine cluster v l s).1
            | none =>
              if frames ≠ allocFrames cl then .next (refetch cluster asid va policy s)
              else
                let sl := allocLine cluster asid va key policy s
                .next (fillLine cluster v sl.2 sl.1).1

/-! ### Sweeps (R275) -/

/-- Is a value 8 or more behind V? -/
def isOld (V v : BitVec 4) : Bool := decide (8 ≤ (V - v).toNat)

/-- A floor is raised to V - 7 if it is old. -/
def raised (V f : BitVec 4) : BitVec 4 := if isOld V f then V - 7 else f

/-- A sweep visits a line: an old C line is invalidated, and the old unmasked bytes of a D line count as
absent. -/
def sweepLine (V : BitVec 4) (l : Line) : Option Line :=
  if !isOld V l.v then some l else if l.mask = 0 then none else some { l with present := false }

/-- A fill on its way that left with an old value is asked for again.  A pass starts when none runs and some tag or floor may be old: when V has moved since the start of the
last completed pass.
DEDUCED, safe (log entry 27). -/
def execSweepPass (cluster : Nat) (s : State) : Out :=
  let cl := clusterAt s cluster
  if cl.sweep.isSome || cl.age == 0 || stopped s (cluster / 4) then .next s
  else
    let up := fun (c : Ctx) => if clusterOf c.id = cluster then { c with floor := raised cl.v c.floor } else c
    .next (clearPresence cluster <| putCluster { cl with
        sweep := some 0, floor := raised cl.v cl.floor, lines := cl.lines.filterMap (sweepLine cl.v)
        fills := cl.fills.map (fun f => if isOld cl.v f.2.2.1 then (f.1, f.2.1, cl.v, f.2.2.2) else f) }
      { s with cur := up s.cur, others := s.others.map up
               disp := { s.disp with savedCtx := s.disp.savedCtx.map up } })

/-- The pass completes: the bumps made while it ran are what the next one has to clear. -/
def execSweepPassEnd (cluster : Nat) (s : State) : Out :=
  let cl := clusterAt s cluster
  match cl.sweep with
  | some n => .next (putCluster { cl with sweep := none, age := n } s)
  | none => .next s

/-- A D line whose epoch the next release would leave half the counter behind is written back (R276). -/
def execEpochWriteback (cluster index : Nat) (s : State) : Out :=
  let cl := clusterAt s cluster
  match cl.lines[index]? with
  | some l =>
    if l.mask != 0 && decide (32767 ≤ (cl.e - l.e).toNat) && !stopped s (cluster / 4) then .next (writebackLine cluster l s) else .next s
  | none => .next s

/-! ### Size of the cache (R257-R260) -/

/-- Is a size legal: 0 to 128 MiB in steps of 16 MiB? -/
def sizeOk (frames : Nat) : Bool := frames % 256 == 0 && decide (frames ≤ 2048)

/-- Does a line keep its place under a new size: its frame stays, and its set is the same?  A line allocated since
the conversion began has its set under the new size. -/
def keepsPlace (old frames : Nat) (l : Line) : Bool :=
  let set := l.va / 128 % cacheSets frames
  frames != 0 && decide (l.pos < frames * 512) && l.pos % cacheSets frames == set &&
  (l.pos % cacheSets old != l.va / 128 % cacheSets old || l.va / 128 % cacheSets old == set)

/-- Set the page-map entry of some frames. -/
def setFrames (es : List (Nat × BitVec 64)) (m : List (Nat × BitVec 64)) : List (Nat × BitVec 64) :=
  es.foldl (fun m e => putBy (·.1) e m) m

/-- The page-map entry of a cache frame. -/
def cacheEntry (use : Nat) : BitVec 64 := pmEntry use false false 0 0 0

/-- Firmware starts to convert frames: from now on allocations use the new size, and the frames that leave
carry use 10.
DEDUCED, safe (log entry 35). -/
def execCacheConversion (cluster frames : Nat) (s : State) : Out :=
  let cl := clusterAt s cluster
  if sizeOk frames && decide (frames < cl.frames) && cl.conv.isNone then
    .next (putCluster { cl with
      conv := some { newFrames := frames, stage := 1 }
      pageMap := setFrames ((cl.cacheFrames.drop frames).map (fun f => (f, cacheEntry 2))) cl.pageMap } s)
  else .next s

/-- The lowest free frames of a cluster. -/
def freeFrames (cl : Cluster) (n : Nat) : List Nat :=
  ((List.range 4096).filter (fun f => !pmValid (pmOf cl f))).take n

/-- Zero a frame: every byte 0, every full/empty bit full, no poison (R246). -/
def zeroFrame (cluster frame : Nat) (s : State) : State :=
  let inF := fun (k : Nat) => k / 65536 == cluster * 4096 + frame
  { s with mem := { s.mem with
      l1 := s.mem.l1.filter (fun c => !inF c.1)
      empty := s.mem.empty.filter (fun k => !inF k)
      poison := s.mem.poison.filter (fun k => !inF k) } }

/-- Zero some frames. -/
def zeroFrames (cluster : Nat) : List Nat → State → State
  | [], s => s
  | f :: fs, s => zeroFrames cluster fs (zeroFrame cluster f s)

/-- Lines that a new size displaces are written back and invalidated. -/
def displace (cluster frames : Nat) (s : State) : State :=
  let cl := clusterAt s cluster
  exportAll cluster (cl.lines.filter (fun l => !keepsPlace cl.frames frames l)) s

/-- With no fill outstanding, the displaced lines written back and the frames zeroed, the frames become
scratchpad. -/
def execConversionComplete (cluster : Nat) (s : State) : Out :=
  let cl := clusterAt s cluster
  match cl.conv with
  | none => .next s
  | some k =>
    if cl.fills != [] then .next s
    else
      let s := zeroFrames cluster (cl.cacheFrames.drop k.newFrames) (displace cluster k.newFrames s)
      let cl := clusterAt s cluster
      let gone := cl.cacheFrames.drop k.newFrames
      .next (putCluster { cl with
        conv := none, frames := k.newFrames, cacheFrames := cl.cacheFrames.take k.newFrames
        pageMap := cl.pageMap.filter (fun e => !gone.contains e.1) } s)

/-- An eviction ahead of its need: the line that the next allocation of a full set would take is written
back and leaves (R218, R257).
DEDUCED, unsafe (log entry 28). -/
def execWriteback (cluster index : Nat) (s : State) : Out :=
  let cl := clusterAt s cluster
  match cl.lines[index]? with
  | none => .next s
  | some l =>
    let sets := cacheSets (allocFrames cl)
    if (pickWay cl.lines sets (l.va / 128 % sets) 15).2 = some l then
      .next (dropLine cluster l.asid l.va (writebackLine cluster l s))
    else .next s

end Sys2Proof.Machine
end

