-- ==== Sys2Proof/Machine/HomeDev.lean ====
section
/-!
DEFINITION. Device steps at the homes: releases, acquires and atomics (R270-R274, R277, R280), drains
(R269, R273), dead agents (R278, R279), MONW (R162, R163), wakes and hand-offs (R193, R219).
-/

namespace Sys2Proof.Machine

open Sys2Proof

/-! ### Performing accesses -/

/-- Perform the presented request that the unit takes, if it is of a kind, with room for its record; `k`
performs it.  At a busy line the presented requests wait in order of arrival, and those that another comes before
stay at their ports. -/
def atHome (present : List Nat) (kind : HomeReq → Bool) (k : Nat → HomeReq → State → Out) (s : State) : Out :=
  let rs := before s present
  match chosen s rs with
  | none => .next s
  | some (i, r) =>
    if lineBusy s (r.pa / 128 * 128) then .next (noteShown s true present)
    else if kind r = false then .next s
    else
      let s := noteShown s false ((rs.map (·.1)).filter (· != i))
      match makeRoom (r.pa / 128 * 128) r.slice r.set r.ctx s with
      | .blocked => .next s
      | .draining t => .next t
      | .ready t => k i r t

/-- A release (R271): no drain. -/
def execHomeRelease (present : List Nat) (s : State) : Out :=
  atHome present (fun r => r.rel && !r.acq) (fun i r t => performReq i r false taskFinish (advancePtr r t)) s

/-- A plain read-modify-write (R274): the record stays. -/
def execHomeAtomic (present : List Nat) (s : State) : Out :=
  atHome present (fun r => !r.rel && !r.acq) (fun i r t => performReq i r false taskFinish (advancePtr r t)) s

/-- The record of a line names no replaced releaser any more. -/
def clearOwed (line : Nat) (s : State) : State :=
  match recOf s line with
  | some x => putRec { x with owed := [] } s
  | none => s

/-- Its own cluster's record asks an acquire for nothing (R272); where that record has replaced releases of others, which
are drained by now, the cluster evicts the clean bytes that may be older than what they published (R216, R219). -/
def evictOwed (line c : Nat) (s : State) : State :=
  match recOf s line with
  | none => s
  | some x => if x.valid && x.agent == c && x.owed != [] then clearOwed line (evictClean c (fun l => l.present) s) else s

/-- An acquire that may be performed now (R272): its own cluster's record asks for nothing, any other bumps. -/
def acquireNow (i : Nat) (r : HomeReq) (bump : Bool) (s : State) : Out :=
  if bump && bumpStalls s (clusterOf r.ctx) then .next s
  else performReq i r bump taskFinish (advancePtr r (evictOwed (r.pa / 128 * 128) (clusterOf r.ctx) s))

/-- A replaced releaser that an acquire has to drain: none of its own cluster, and none that is dead. -/
def owedTo (s : State) (x : Rec) (c : Nat) : Option (Nat × BitVec 16 × Bool) :=
  x.owed.find? (fun o => !o.2.2 && o.1 != c && decide (o.1 < 16) && !s.homes.dead.contains o.1)

/-- An acquire (R272, R280).  Releasers whose record another release has replaced are drained first.
DEDUCED, unsafe (log entry 88). -/
def execHomeAcquire (present : List Nat) (s : State) : Out :=
  atHome present (fun r => r.acq) (fun i r t =>
    let line := r.pa / 128 * 128
    match recOf t line with
    | none => acquireNow i r true t
    | some x =>
      if staleRec t x then faultAt r .lostrel (dropReq i t)
      else
        match owedTo t x (clusterOf r.ctx) with
        | some o => .next (sendDrain { line := line, agent := o.1, rel := o.2.1, ctx := r.ctx, owed := true } t)
        | none =>
          if x.valid && x.agent == clusterOf r.ctx then acquireNow i r false t
          else if x.valid && !x.dr then .next (sendDrain { line := line, agent := x.agent, rel := x.rel, ctx := r.ctx } t)
          else acquireNow i r true t) s

/-! ### Drains (R269, R273) -/

/-- The latest of some release numbers, none of which the agent's epoch has passed by half the counter. -/
def latest (e n : BitVec 16) (bs : List Busy) : BitVec 16 :=
  bs.foldl (fun n b => if (e - b.rel).toNat < (e - n).toNat then b.rel else n) n

/-- The agent receives a DRAIN and writes back every D line up to the number, or to the latest that has been asked of it;
with that it has drained for each of them (R273). -/
def execDrain (index : Nat) (s : State) : Out :=
  match s.homes.busy[index]? with
  | none => .next s
  | some b =>
    if s.homes.dead.contains b.agent || b.drained || b.recalling then .next s
    else
      let asked := fun (x : Busy) => x.agent == b.agent && !x.drained && !x.recalling
      let s := drainTo b.agent (latest (clusterAt s b.agent).e b.rel (s.homes.busy.filter asked)) s
      .next { s with homes := { s.homes with busy := s.homes.busy.map (fun x => if asked x then { x with drained := true } else x) } }

/-- The line is no longer busy with an entry, and its answer is no longer awaited. -/
def freeBusy (index : Nat) (s : State) : State :=
  { s with homes := { s.homes with busy := s.homes.busy.eraseIdx index, awaiting := s.homes.awaiting.eraseIdx index } }

/-- The drain of a record, or of an earlier releaser of its line, has completed. -/
def noteDrained (b : Busy) (s : State) : State :=
  match recOf s b.line with
  | none => s
  | some x =>
    if b.owed then putRec { x with owed := x.owed.map (fun o => if o.1 = b.agent then (o.1, o.2.1, true) else o) } s
    else if x.valid && x.agent == b.agent && x.rel == b.rel then putRec { x with dr := true } s
    else s

/-- The index of the acquire that waits for a drain. -/
def waitingAcquire (s : State) (b : Busy) : Option (Nat × HomeReq) :=
  (List.range s.homes.reqs.length).filterMap (fun i => (s.homes.reqs[i]?).bind (fun r =>
    if r.ctx == b.ctx && r.acq && (!r.watching || r.again) && r.pa / 128 * 128 == b.line then some (i, r) else none)) |>.head?

/-- DRAIN-DONE: the record's drain has completed and the waiting acquire is performed, or the record that
makes room is discarded (R277).  After the drain of an earlier releaser the acquire looks at the record again. -/
def execDrainDone (index : Nat) (s : State) : Out :=
  match s.homes.busy[index]? with
  | none => .next s
  | some b =>
    if b.drained = false ∨ b.recalling = true then .next s
    else if b.evict then .next (dropRec b.line (freeBusy index s))
    else
      match waitingAcquire s b with
      | none => .next (noteDrained b (freeBusy index s))
      | some (i, r) =>
        if b.owed then
          (let t := noteDrained b (freeBusy index s)
           execHomeAcquire [i] { t with homes := { t.homes with
             reqs := setAt t.homes.reqs i { r with shown := true, turn := 0 } } })
        else if bumpStalls s (clusterOf r.ctx) then .next s
        else acquireNow i r true (noteDrained b (freeBusy index s))

/-- An agent says that its drains and recalls proceed: the 10 µs begin anew (R278). -/
def execDrainBusy (agent : Nat) (s : State) : Out :=
  .next { s with homes := { s.homes with
    awaiting := s.homes.awaiting.map (fun a => if a.1 = agent then (agent, s.plat.moment) else a) } }

/-! ### Dead agents (R278, R279) -/

/-- 10 µs in units of the moment; a tick is 1 ns. -/
def deadAfter : Nat := 10000 * tickUnits

/-- Acquires whose drain ends in a declaration of death raise LOSTREL. -/
def failWaiting : List Busy → State → State
  | [], s => s
  | b :: bs, s =>
    match waitingAcquire s b with
    | some (i, r) => failWaiting bs ((faultAt r .lostrel (dropReq i s)).state s)
    | none => failWaiting bs s

/-- What is in flight through a die's copy-engine port is dropped (R279): a write makes its command fail (R297), and a timed
read is asked for again. -/
def losePort (die : Nat) (s : State) : State :=
  let gone := fun (x : EngWrite) => match x.spot with
    | .l1 _ _ _ remote => x.unit == 2 && remote
    | .mem _ _ => false
  { s with
    cores := s.cores.map (fun k =>
      if k.id / 4096 = die ∧ k.out.any gone = true then
        { k with
          out := k.out.filter (fun x => !gone x)
          cq := match k.cq with
            | [] => []
            | c :: cs => { c with dropped := true } :: cs }
      else k)
    homes := { s.homes with calReqs := s.homes.calReqs.map (fun r =>
      if r.core / 4096 = die ∧ r.used = false then { r with due := none, data := [], poisoned := false } else r) } }

/-- No answer to one of its requests for 10 µs: the agent is dead, and what was asked of it is over.  A die's copy-engine
port, which no home asks anything, may be declared dead at any time (R263, R297).
DESIGN CHOICE, safe (log entry 92). -/
def execAgentDead (agent : Nat) (s : State) : Out :=
  if 17 ≤ agent ∧ agent ≤ 20 then .next (losePort (agent - 17) { s with homes := { s.homes with dead := addOnce agent s.homes.dead } })
  else if s.homes.awaiting.any (fun a => a.1 == agent && decide (a.2 + deadAfter ≤ s.plat.moment)) then
    let mine := s.homes.busy.filter (fun b => b.agent == agent)
    .next (failWaiting (mine.filter (fun b => !b.evict && !b.recalling)) { s with homes := { s.homes with
      dead := addOnce agent s.homes.dead
      busy := s.homes.busy.filter (fun b => b.agent != agent)
      awaiting := s.homes.awaiting.filter (fun x => x.1 != agent) } })
  else .next s

/-- A cluster that firmware has reset: its copies, its buffered stores and its messages are gone, and its
contexts stand still until their launches roll back. -/
def resetCluster (c : Nat) (s : State) : State :=
  let stop := fun (x : Ctx) =>
    if clusterOf x.id = c then { x with run := if x.run = .unbound then .unbound else .stopped, floor := 0 } else x
  clearPresence c <| putCluster { clusterAt s c with lines := [], fills := [], tlb := [], v := 0, e := 0, floor := 0, age := 0, sweep := none }
    { s with
      cur := stop s.cur, others := s.others.map stop
      disp := { s.disp with savedCtx := s.disp.savedCtx.map (fun x => if clusterOf x.id = c then { x with floor := 0 } else x) }
      cores := s.cores.map (fun k => if k.id / 1024 = c then { k with sbuf := [] } else k)
      homes := { s.homes with reqs := s.homes.reqs.filter (fun r => clusterOf r.ctx != c) } }

/-- Firmware re-admits a dead agent with the next incarnation. -/
def execAgentReadmit (agent : Nat) (s : State) : Out :=
  if s.homes.dead.contains agent = false then .next s
  else
    let s := if agent < 16 then resetCluster agent s else s
    .next { s with homes := { s.homes with
      dead := s.homes.dead.filter (· != agent)
      incs := putBy (·.1) (agent, incOf s agent + 1) s.homes.incs } }

/-! ### MONW (R162, R163) -/

/-- The operations that wait on a line are presented again. -/
def representLine (line : Nat) (s : State) : State :=
  { s with homes := { s.homes with
      changed := s.homes.changed.filter (· != line)
      reqs := s.homes.reqs.map (fun r => if r.pa / 128 * 128 == line then { r with again := r.watching } else r) } }

/-- The home rereads a line that has no watch. -/
def execMonwPoll (line : Nat) (s : State) : Out :=
  if s.homes.watches.contains line then .next s else .next (representLine line s)

/-- A write to a watched line wakes what waits on it. -/
def execMonwWake (line : Nat) (s : State) : Out :=
  if s.homes.changed.contains line then .next (representLine line s) else .next s

/-- The parked entry of a context, wherever it waits. -/
def parkedOf (s : State) (id : Nat) : Option Parked :=
  ((s.banks.map (·.waiters)).flatten ++ (s.tiles.map (fun t => t.table ++ t.refused.map (·.2))).flatten).find?
    (fun p => p.ctx == id && !p.op.isCpych)

/-- The timeout of a MONW: it reads once more and returns what it reads; at the home by being presented
again. -/
def execMonwTimeout (ctx : Nat) (s : State) : Out :=
  match parkedOf s ctx with
  | some pk =>
    match pk.op with
    | .monw d _ (some t) =>
      if cyc s ctx < t then .next s
      else
        let u := runCur (switchTo ctx (leaveBanks ctx s))
        (Acc.ofCheck (l1Read u pk.ptr pk.key 8) u).andThen u fun v u => memDone (wr d (nat64 v) (acquired ctx u))
    | _ => .next s
  | none =>
    .next { s with homes := { s.homes with reqs := s.homes.reqs.map (fun r =>
      match r.op with
      | .monw _ _ (some t) => if r.ctx = ctx ∧ t ≤ cyc s ctx then { r with again := r.watching } else r
      | _ => r) } }

/-! ### Wakes and hand-offs (R193, R219) -/

/-- Remove a flight. -/
def dropFlight (i : Nat) (s : State) : State := { s with disp := { s.disp with flight := s.disp.flight.eraseIdx i } }

/-- No earlier flight of the same sender goes to the same rank (R319, R320). -/
def oldestOf (s : State) (i from_ launch rank : Nat) : Bool :=
  (s.disp.flight.take i).all (fun f => match f with
    | .trav g a => !(g == from_ && a.launch == launch && a.rank == rank)
    | .wake g l r _ _ => !(g == from_ && l == launch && r == rank)
    | _ => true)

/-- A WAKE is applied to the wake register of the rank's context; an IN-TRANSIT rank holds it (R320). -/
def execWakeDelivery (index : Nat) (s : State) : Out :=
  match s.disp.flight[index]? with
  | some (.wake from_ launch rank bits h) =>
    if (rankEntry (launchAt s launch) rank).transit || !oldestOf s index from_ launch rank ||
      stopped s (dieOf (rankEntry (launchAt s launch) rank).ctx) then .next s
    else
      .next (modRank launch rank (fun c =>
        { c with a := { c.a with wake := c.a.wake ||| bits }, wakeFrom := c.wakeFrom ++ h }) (dropFlight index s))
  | _ => .next s

/-- The receiving side of a cross-cluster hand-off: the sender's cluster drains up to the release number,
and the version is bumped. -/
def execCrossClusterHandoffDrain (ctx : Nat) (s : State) : Out :=
  let c := ctxOf s ctx
  match c.handoff with
  | [] => .next s
  | h :: hs =>
    if bumpStalls s (clusterOf ctx) then .next s
    else
      let s := if s.homes.dead.contains h.1 then s else drainTo h.1 h.2 s
      .next (bumpFor ctx (putCtx { c with handoff := hs } s))

end Sys2Proof.Machine
end

