-- ==== Sys2Proof/Machine/WaitDev.lean ====
section
/-!
DEFINITION. Device steps that end waits: barriers (R192), WAITC (R206), ALIGN (R316) and services (R203).
-/

namespace Sys2Proof.Machine

open Sys2Proof

/-! ### Barriers (R192) -/

/-- Store a barrier unit. -/
def putUnit (c : Nat) (b : BarUnit) (s : State) : State :=
  let cl := clusterAt s c
  putCluster { cl with bars := putBy BarUnit.unit b cl.bars } s

/-- The register a barrier wait writes, if the context waits at a unit. -/
def barrierDest (c : Ctx) (u : Nat) : Option (Option Reg) :=
  match c.run with
  | .parked (.barrier v _ d _) => if v = u then some d else none
  | _ => none

/-- Release one waiter. -/
def releaseWaiter (u id : Nat) (s : State) : State :=
  match barrierDest (ctxOf s id) u with
  | none => s
  | some d => acquired id ((barLeave d 1 (runCur (switchTo id s))).state s)

/-- Release some waiters. -/
def releaseWaiters (u : Nat) : List Nat → State → State
  | [], s => s
  | id :: ids, s => releaseWaiters u ids (releaseWaiter u id s)

/-- The contexts of a cluster that wait for a phase of a unit. -/
def waitersOf (s : State) (c u : Nat) (ph : Bool) : List Nat :=
  ((allCtx s).filter (fun x => clusterOf x.id == c && (barrierDest x u).isSome && x.a.kept == some (u, ph))).map (·.id)

/-- An arrival is applied; the one that brings the count to the membership completes the phase. -/
def applyArrival (c : Nat) (b : BarUnit) (s : State) : State :=
  if b.count ≤ b.arrived + 1 then
    releaseWaiters b.unit (waitersOf s c b.unit b.phase) (putUnit c { b with arrived := 0, phase := !b.phase } s)
  else putUnit c { b with arrived := b.arrived + 1 } s

def execBarrierArrival (index : Nat) (s : State) : Out :=
  match s.disp.flight[index]? with
  | some (.arrival c u ctx waits) =>
    if stopped s (c / 4) then .next s
    else
      let s := dropFlight index s
      match unitAt s c u with
      | none => .next s
      | some b =>
        let x := ctxOf s ctx
        let s := if waits then putCtx { x with a := { x.a with kept := some (u, b.phase) } } s else s
        .next (applyArrival c b s)
  | _ => .next s

/-- BARWT times out: the arrival stays counted, and nothing is acquired. -/
def execBarwtTimeout (ctx : Nat) (s : State) : Out :=
  match (ctxOf s ctx).run with
  | .parked (.barrier _ _ (some d) (some t)) =>
    if cyc s ctx < t then .next s
    else
      let late := fun (f : Flight) => match f with
        | .arrival c u x w => Flight.arrival c u x (w && x != ctx)
        | f => f
      let s := { s with disp := { s.disp with flight := s.disp.flight.map late } }
      barLeave (some d) 0 (runCur (switchTo ctx s))
  | _ => .next s

/-! ### Other waits -/

/-- A WAITC count expires. -/
def execWaitcExpiry (ctx : Nat) (s : State) : Out :=
  match (ctxOf s ctx).run with
  | .parked (.cycles t) => if cyc s ctx < t then .next s else done (runCur (switchTo ctx s))
  | _ => .next s

/-- An ALIGN park ends 64 cycles after issue. -/
def execAlignTimeout (ctx : Nat) (s : State) : Out :=
  match (ctxOf s ctx).run with
  | .parked (.align _ t) => if cyc s ctx < t then .next s else .next (runCur (switchTo ctx s))
  | _ => .next s

/-- The result of a service (R203). -/
def svcResult (c : Ctx) (code : Word64) : Word64 :=
  if code = 0 then 0
  else if code = 1 then (if c.a.sr.step = 0 then BitVec.allOnes 64 else c.a.sr.step - 1)
  else BitVec.allOnes 64

/-- The leaf completes the service of the issuing context. -/
def finishSvc (code : Word64) (s : State) : State := retire (wr 3 (svcResult s.cur code) (runCur s))

/-- A service completes, no sooner than 200 cycles after issue. -/
def execSvcServiceDone (ctx : Nat) (s : State) : Out :=
  match (ctxOf s ctx).run with
  | .parked (.svc code t) => if cyc s ctx < t then .next s else .next (finishSvc code (switchTo ctx s))
  | _ => .next s

end Sys2Proof.Machine
end

