-- ==== Sys2Proof/Machine/Pages.lean ====
section
/-!
DEFINITION. LOCAL pages without a frame: eviction to the backing store and refill (R246, R300, R360).
-/

namespace Sys2Proof.Machine

open Sys2Proof

/-- Does a key lie in a frame? -/
def inFrame (cluster frame key : Nat) : Bool := key / 65536 == cluster * 4096 + frame

/-- Is an access to a frame in flight: a parked operation, a request at a bank, a word of a burst, a buffered store, or a
write of an engine? -/
def frameBusy (s : State) (cluster frame : Nat) : Bool :=
  s.banks.any (fun b => b.waiters.any (fun p => inFrame cluster frame p.key) ||
    b.reserved.any (fun r => inFrame cluster frame r.key) || (b.id / 4096 == cluster && b.pending != [])) ||
  s.cores.any (fun k => k.id / 1024 == cluster && k.out != []) ||
  s.tiles.any (fun t => t.table.any (fun p => inFrame cluster frame p.key) ||
    t.refused.any (fun p => inFrame cluster frame p.2.key)) ||
  s.cores.any (fun k => k.sbuf.any (fun x => !x.isGlobal && inFrame cluster frame x.addr))

/-- May a frame be evicted: a LOCAL page, unpinned, with no access in flight? -/
def evictable (s : State) (cluster frame : Nat) : Bool :=
  let e := pmOf (clusterAt s cluster) frame
  pmValid e && pmUse e == 0 && !pmPin e && !frameBusy s cluster frame

/-- Copy a page and its full/empty bits to the backing store of its launch and mark its frame invalid. -/
def evictFrame (cluster frame : Nat) (s : State) : State :=
  let cl := clusterAt s cluster
  let e := pmOf cl frame
  let base := l1Key cluster frame 0
  let b : Backed := {
    cluster := cluster, area := pmArea e, page := pmPage e, entry := e
    bytes := (s.mem.l1.filter (fun c => inFrame cluster frame c.1)).map (fun c => (c.1 - base, c.2))
    empty := (s.mem.empty.filter (inFrame cluster frame)).map (fun k => k - base)
    poison := (s.mem.poison.filter (inFrame cluster frame)).map (fun k => k - base) }
  zeroFrame cluster frame
    (putCluster { cl with pageMap := cl.pageMap.filter (fun x => x.1 != frame) }
      { s with mem := { s.mem with backing := s.mem.backing ++ [b] } })

/-! ### Room in the banks (R246, R256, R258) -/

/-- Does a page-map entry hold a TILE page homed on a tile? -/
def onTile (t : Nat) (e : BitVec 64) : Bool := pmValid e && pmUse e == 0 && pmTile e && pmHome e == t

/-- Frames in use as TILE pages of a tile, and as pages that lie in every bank: INTERLEAVED ones and the cache's. -/
def tileFrames (cl : Cluster) (t : Nat) : Nat := (cl.pageMap.filter (fun f => onTile t f.2)).length
def interFrames (cl : Cluster) : Nat :=
  (cl.pageMap.filter (fun f => pmValid f.2 && !(pmUse f.2 == 0 && pmTile f.2))).length

/-- Have the banks of a tile the words for `n` TILE pages and `i` INTERLEAVED pages more? -/
def tileRoom (cl : Cluster) (t n i : Nat) : Bool := decide (128 * (tileFrames cl t + n) + interFrames cl + i ≤ 4096)

/-- Have the banks the words for one page more, on its home tile, or on every tile? -/
def roomFor (cl : Cluster) : Option Nat → Bool
  | some t => tileRoom cl t 1 0
  | none => (List.range 128).all (fun t => tileRoom cl t 0 1)

/-- Would the eviction of a frame free words that a page asks for: those of its home tile, or of a tile that is full? -/
def helps (cl : Cluster) (home : Option Nat) (e : BitVec 64) : Bool :=
  !pmTile e || (match home with
    | some t => pmHome e == t
    | none => !tileRoom cl (pmHome e) 0 1)

/-- Evict unpinned frames until a page has room: those of its home tile first; none where it gets none. -/
def makeRoomFor (cluster : Nat) (home : Option Nat) : Nat → State → Option State
  | 0, s => if roomFor (clusterAt s cluster) home then some s else none
  | n + 1, s =>
    let cl := clusterAt s cluster
    if roomFor cl home then some s
    else
      let fs := (List.range 4096).filter (fun f => evictable s cluster f && helps cl home (pmOf cl f))
      match (fs.filter (fun f => home.isNone || pmTile (pmOf cl f))) ++ fs with
      | f :: _ => makeRoomFor cluster home n (evictFrame cluster f s)
      | [] => none

/-- A frame for a page: the lowest that is free, once the banks of its home have the words for it.
DESIGN CHOICE, safe (log entry 53). -/
def claimFrame (cluster : Nat) (home : Option Nat) (s : State) : Option (Nat × State) :=
  match makeRoomFor cluster home 4096 s with
  | none => none
  | some t => (freeFrames (clusterAt t cluster) 1).head?.map (fun f => (f, t))

/-- The home of a page, from its page-map entry. -/
def homeOf (e : BitVec 64) : Option Nat := if pmTile e then some (pmHome e) else none

/-- Are the resources of a SAVED context kept for the waiting head of a queue other than `queue` (R306)? -/
def keptFor (s : State) (queue : Nat) (c : Ctx) : Bool := s.disp.reserved.any (fun r => r.1 == c.id && r.2 != queue)

/-- The prio of the waiting head for which a context's resources are kept. -/
def headPrio (s : State) (r : Nat × Nat) : Nat := match (queueAt s r.2).store with
  | e :: _ => recPrio e.words
  | [] => 0

/-- Is the collector of the context's cluster serving a newer request, of higher prio (R361)? -/
def retargeted (s : State) (ctx : Nat) : Bool :=
  let mine := ((s.disp.reserved.filter (fun r => r.1 == ctx)).map (headPrio s)).foldl max 0
  s.disp.reserved.any (fun r => r.1 != ctx && clusterOf r.1 == clusterOf ctx && decide (mine < headPrio s r) &&
    ((ctxOf s r.1).pre == .requested || (ctxOf s r.1).pre == .suspending))

/-- Is a context half saved, its save held back by a newer request?  Its pages may be evicted then (R361). -/
def halfSaved (s : State) (c : Ctx) : Bool := c.pre == .suspending && [0, 1, 2, 3].all c.acks.contains && retargeted s c.id

/-- Has a launch with an area a context on a core of the cluster, or one whose resources another head waits for? -/
def residentArea (s : State) (queue cluster area : Nat) : Bool :=
  (allCtx s).any (fun c => clusterOf c.id == cluster && c.run != .unbound && c.bind.area == area && !halfSaved s c) ||
  s.disp.savedCtx.any (fun c => clusterOf c.id == cluster && c.bind.area == area && keptFor s queue c)

/-- The pages of the launches resident in a cluster, with a frame or in the backing store, and those that a launch will
take that waits for its ranges (R307): their homes.  `queue` is the queue of the head that asks, 64 for none.
DEDUCED, safe (log entry 91). -/
def residentPages (s : State) (queue cluster : Nat) : List (Option Nat) :=
  ((clusterAt s cluster).pageMap.filter (fun f =>
    pmValid f.2 && pmUse f.2 == 0 && residentArea s queue cluster (pmArea f.2))).map (fun f => homeOf f.2) ++
  (s.mem.backing.filter (fun b => b.cluster == cluster && residentArea s queue cluster b.area)).map (fun b => homeOf b.entry) ++
  ((s.disp.launches.filter (·.phase == 1)).map (fun l => ((l.kept.filter (·.1 == cluster)).map (·.2)).flatten)).flatten

/-- R256 for a cluster with some pages and `more` cache frames counted. -/
def fits (s : State) (queue cluster : Nat) (new : List (Option Nat)) (more : Nat) : Bool :=
  let ps := residentPages s queue cluster ++ new
  let i := (ps.filter (·.isNone)).length + (clusterAt s cluster).frames + more
  (List.range 128).all (fun t => decide (128 * (ps.filter (· == some t)).length + i ≤ 4096))

/-- Firmware adds free frames to the cache, if R256 holds with them. -/
def execCacheGrowth (cluster frames : Nat) (s : State) : Out :=
  let cl := clusterAt s cluster
  let more := frames - cl.frames
  let new := freeFrames cl more
  if sizeOk frames && decide (cl.frames < frames) && cl.conv.isNone && new.length == more && fits s 64 cluster [] more &&
      (List.range 128).all (fun t => tileRoom cl t 0 more) then
    let s := displace cluster frames s
    let cl := clusterAt s cluster
    .next (putCluster { cl with
      frames := frames, cacheFrames := cl.cacheFrames ++ new
      pageMap := setFrames (new.map (fun f => (f, cacheEntry 1))) cl.pageMap } s)
  else .next s

/-- Give a new page of an area its frame, zeroed; while none is free it stands in the backing store, all zero. -/
def placePage (cluster : Nat) (entry : BitVec 64) (s : State) : State :=
  match claimFrame cluster (homeOf entry) s with
  | some (f, s) =>
    let s := zeroFrame cluster f s
    let cl := clusterAt s cluster
    putCluster { cl with pageMap := putBy (·.1) (f, entry) cl.pageMap } s
  | none =>
    { s with mem := { s.mem with backing := s.mem.backing ++
      [{ cluster := cluster, area := pmArea entry, page := pmPage entry, entry := entry, bytes := [], empty := [], poison := [] }] } }

/-! ### Refill (R246, R360) -/

/-- The page of the backing store. -/
def backedPage (s : State) (cluster area page : Nat) : Option Backed :=
  s.mem.backing.find? (fun b => b.cluster == cluster && b.area == area && b.page == page)

/-- Insert some bytes of a frame. -/
def restoreBytes (base : Nat) : Memory → Memory → Memory
  | [], m => m
  | c :: cs, m => restoreBytes base cs (m.write (base + c.1) c.2)

/-- Refill a page into a zeroed frame, in its own mode and on its own home tile; unchanged while no frame is
free. -/
def refillPage (cluster area page : Nat) (pin : Bool) (s : State) : State :=
  if (frameOf (clusterAt s cluster) area page).isSome then s
  else
    match backedPage s cluster area page with
    | none => s
    | some b =>
      match claimFrame cluster (homeOf b.entry) s with
      | none => s
      | some (f, s) =>
        let s := zeroFrame cluster f s
        let base := l1Key cluster f 0
        let cl := clusterAt s cluster
        let e := pmEntry 0 (pmTile b.entry) pin (pmHome b.entry) area page
        putCluster { cl with pageMap := putBy (·.1) (f, e) cl.pageMap }
          { s with mem := { s.mem with
              l1 := restoreBytes base b.bytes s.mem.l1
              empty := b.empty.foldl (fun es k => insertKey (base + k) es) s.mem.empty
              poison := b.poison.foldl (fun es k => insertKey (base + k) es) s.mem.poison
              backing := dropFirst b s.mem.backing } }

end Sys2Proof.Machine
end

