-- ==== Sys2Proof/Machine/EngMem.lean ====
section
/-!
DEFINITION. What the engines share: checks of operands (R28, R173), reads and writes of LOCAL, remote and
GLOBAL bytes (R183, R295-R297), faults and completions (R172, R173, R300, R301).
-/

namespace Sys2Proof.Machine

open Sys2Proof

/-! ### Results -/

/-- Why an engine's step waits. -/
inductive Stall where
  /-- a page of LOCAL has no frame -/
  | page (cluster area page : Nat)
  /-- a read of a page that is not coherent has no answer yet (R380) -/
  | pcie (key n : Nat)
  /-- a bank, a line or a home is not free -/
  | idle
  deriving DecidableEq, Repr

/-- A failure of an engine's access: its cause, and the line where a POISON was met. -/
structure Fail where
  cause : Cause
  line : Option LineRef := none
  deriving DecidableEq, Repr

/-- What a part of an engine's step gives: its result, a failure with a cause, or a wait.  A step that fails or waits
leaves nothing of what it has done so far. -/
inductive Eng (α : Type) where
  | ok (x : α) (s : State)
  | fault (f : Fail)
  | wait (w : Stall)

/-- Sequence. -/
def Eng.bind {α β : Type} (a : Eng α) (k : α → State → Eng β) : Eng β :=
  match a with
  | .ok x s => k x s
  | .fault c => .fault c
  | .wait w => .wait w

/-- Name the line of a POISON. -/
def Eng.met {α : Type} (line : LineRef) (a : Eng α) : Eng α :=
  match a with
  | .fault f => if f.cause = .poison then .fault { f with line := some line } else a
  | _ => a

/-- Turn a plain GLOBAL access into an engine's. -/
def ofAcc {α : Type} (a : Acc α) : Eng α :=
  match a with
  | .ok x t => .ok x t
  | .trap t => .fault { cause := t.cause }
  | .wait _ | .later _ => .wait .idle

/-! ### Where an operand lies -/

/-- The place `n` bytes further on. -/
def Spot.plus (n : Nat) : Spot → Spot
  | .l1 c a o r => .l1 c a (o + n) r
  | .mem va p => .mem ((va + n) % 2 ^ 57) p

/-- The place of a pointer through an entry of a context's table. -/
def spotOf (c : Ctx) (e : HandleEntry) (p : Word64) : Spot :=
  if e.space = 0 then .l1 (if e.remote then e.rcl else clusterOf c.id) c.bind.area (e.base + ov p) e.remote
  else .mem (vaOf e p) e.policy

/-- Is it LOCAL of the own cluster?  LOCAL of it or GLOBAL? -/
def ownLocal (e : HandleEntry) : Bool := e.space == 0 && !e.remote
def ownOrGlobal (e : HandleEntry) : Bool := (e.space == 0 && !e.remote) || e.space == 1
/-- May it be a copy's destination (R183)? -/
def copyDest (e : HandleEntry) : Bool := e.space == 0 || e.space == 1

/-- The checks of R28 for an engine operand; `ok` says which spaces are legal, `aligned` holds when every
multiple that the command asks for is kept. -/
def engCheck (s : State) (c : Ctx) (p : Word64) (size : Nat) (need : Need)
    (ok : HandleEntry → Bool) (aligned : Bool) : Except Cause HandleEntry :=
  let e := entryIn c.handles (hv p)
  let leased := (launchAt s c.bind.launch).leased
  if e.valid = false then .error .bounds
  else if e.length < ov p + size then .error .bounds
  else if need.ok e = false ∨ pageBars s (clusterOf c.id) c.bind.asid e p size need = true then .error .perm
  else if ok e = false then .error .space
  else if aligned = false then .error .align
  else if e.lease = true ∧ leasedIn leased (hv p) (ov p) size = false then .error .notres
  else .ok e

/-- The same for the context of a command. -/
def engOperand (s : State) (cmd : Cmd) (p : Word64) (size : Nat) (need : Need) (ok : HandleEntry → Bool)
    (aligned : Bool) : Except Cause Spot :=
  let c := ctxOf s cmd.ctx
  match engCheck s c p size need ok aligned with
  | .error t => .error t
  | .ok e => .ok (spotOf c e p)

/-- Is it a command of the copy engine? -/
def CmdKind.isCopy : CmdKind → Bool
  | .cpy | .cpy2d | .cpyg | .cpys | .cpyf | .cpych => true
  | _ => false

/-- Who a command accesses for. -/
def whoOf (s : State) (cmd : Cmd) : Who :=
  let c := ctxOf s cmd.ctx
  { ctx := c.id, asid := c.bind.asid, launch := c.bind.launch, unit := if cmd.kind.isCopy then 2 else 1, pages := cmd.pages }

/-! ### Reads -/

/-- What a unit has read ahead, and has used. -/
def gotOf (s : State) (w : Who) (key n : Nat) : Option EngWord :=
  (coreAt s (coreOf w.ctx)).got.find? (fun g => g.unit == w.unit && g.key == key && g.n == n)
def dropGot (core : Nat) (g : EngWord) (s : State) : State :=
  let k := coreAt s core
  putCore { k with got := dropFirst g k.got } s

/-- Everything that a unit has read ahead is gone. -/
def clearGot (core unit : Nat) (s : State) : State :=
  let k := coreAt s core
  putCore { k with got := k.got.filter (fun g => g.unit != unit) } s

/-- A word or an answer that has been read ahead; `k` where it has not. -/
def useGot (w : Who) (key n : Nat) (s : State) (k : Eng Nat) : Eng Nat :=
  match gotOf s w key n with
  | some g => if g.bad then .fault { cause := .poison } else .ok g.value (dropGot (coreOf w.ctx) g s)
  | none => k

/-- A word of L1: as the unit has read it ahead, or as it stands, where its bank is free for the unit (R291). -/
def engWord (w : Who) (key : Nat) (s : State) : Eng Nat :=
  useGot w key 8 s (
    if bankFree s key = false then .wait .idle
    else if l1Poisoned s key 8 then .fault { cause := .poison }
    else .ok (s.mem.l1.readN key 8) (takeBank key (coreOf w.ctx) w.unit s))

/-- Read `n` bytes of L1, word by word; `f` bounds the words.  A page without a frame is refilled first.
DEDUCED, unsafe (log entry 74). -/
def readLocal (w : Who) (cl area : Nat) : Nat → Nat → Nat → State → Eng (List Byte)
  | 0, _, _, s => .ok [] s
  | f + 1, off, n, s =>
    if n = 0 then .ok [] s
    else
      match localKey s cl area off with
      | none => .wait (.page cl area (off / 65536))
      | some k =>
        let m := min n (8 - off % 8)
        ((engWord w (k / 8 * 8) s).met { isLocal := true, cluster := cl, line := off / 128 * 128, tag := area }).bind fun v t =>
        (readLocal w cl area f (off + m) (n - m) t).bind fun bs u => .ok (((toBytes v 8).drop (off % 8)).take m ++ bs) u

/-- A GLOBAL access that hits takes a cycle of the bank of each word that it touches (R257). -/
def takeLine (w : Who) (va n : Nat) (s : State) : Eng Unit :=
  let c := clusterOf w.ctx
  match lineOf (clusterAt s c) w.asid va with
  | none => .ok () s
  | some l =>
    let ks := wordsOf (lineKey s c l + va % 128) n
    if ks.all (bankFree s) then .ok () (ks.foldl (fun s k => takeBank k (coreOf w.ctx) w.unit s) s) else .wait .idle

/-- A read within one line: a page that is not coherent is read over its port (R380, R383). -/
def readPiece (w : Who) (va n policy : Nat) (s : State) : Eng Nat :=
  (ofAcc (resolve w 0 va false s)).bind fun key t =>
    if nonCoherent key then useGot w key n t (.wait (.pcie key n))
    else (takeLine w va n t).bind fun _ u =>
      (ofAcc (globalRead w 0 va n policy u)).met { isLocal := false, cluster := clusterOf w.ctx, line := va / 128 * 128, tag := w.asid }

/-- Read `n` bytes of GLOBAL, line by line; `f` bounds the pieces. -/
def readGlobal (w : Who) (policy : Nat) : Nat → Nat → Nat → State → Eng (List Byte)
  | 0, _, _, s => .ok [] s
  | f + 1, va, n, s =>
    if n = 0 then .ok [] s
    else
      let k := min n (128 - va % 128)
      (readPiece w va k policy s).bind fun v t =>
      (readGlobal w policy f ((va + k) % 2 ^ 57) (n - k) t).bind fun bs t => .ok (toBytes v k ++ bs) t

/-- Read the bytes at a place. -/
def engRead (w : Who) (p : Spot) (n : Nat) (s : State) : Eng (List Byte) :=
  match p with
  | .l1 c a o _ => readLocal w c a (n / 8 + 2) o n s
  | .mem va pol => readGlobal w pol (n / 128 + 2) va n s

/-- Read some places in order. -/
def readAll (w : Who) : List (Spot × Nat) → State → Eng (List (List Byte))
  | [], s => .ok [] s
  | p :: ps, s => (engRead w p.1 p.2 s).bind fun bs t => (readAll w ps t).bind fun r u => .ok (bs :: r) u

/-- The keys of the words of L1 at some places. -/
def spotWords (s : State) (ps : List (Spot × Nat)) : List Nat :=
  (ps.map (fun p => match p.1 with
    | .l1 cl area off _ => ((List.range ((off % 8 + p.2 + 7) / 8)).filterMap (fun i => localKey s cl area (off / 8 * 8 + 8 * i)))
    | .mem _ _ => [])).flatten

/-! ### Writes -/

/-- The word of L1 that a handed-over write goes to: its own, or that of a line which the cluster holds. -/
def outKey (s : State) (x : EngWrite) : Option Nat :=
  match x.spot with
  | .l1 cl area off _ => localKey s cl area off
  | .mem va _ =>
    let c := clusterOf x.ctx
    (lineOf (clusterAt s c) (ctxOf s x.ctx).bind.asid va).map (fun l => lineKey s c l + va % 128)

/-- Must a handed-over write stay: for its page's bias flip, for the host's grant, or for its cluster's re-admission? -/
def outStuck (s : State) (x : EngWrite) : Bool :=
  match x.spot with
  | .l1 _ _ _ _ => (outKey s x).isNone
  | .mem _ _ => (writeWait s (clusterOf x.ctx) x.home).isSome

/-- Perform a handed-over write. -/
def performOut (x : EngWrite) (s : State) : State :=
  let c := ctxOf s x.ctx
  let n := x.bytes.length
  let t := match outKey s x with
    | some k => takeBank k (coreOf x.ctx) x.unit s
    | none => s
  match x.spot with
  | .l1 _ _ _ _ =>
    match outKey s x with
    | some k => l1Write c.bind.launch k n (ofBytes x.bytes) t
    | none => s
  | .mem va pol =>
    cacheWrite { ctx := c.id, asid := c.bind.asid, launch := c.bind.launch, unit := x.unit } va n (ofBytes x.bytes) pol x.home t

/-- May a write be performed at once: it waits for nothing, and its bank is free? -/
def outFree (s : State) (x : EngWrite) : Bool :=
  !outStuck s x && (match outKey s x with
    | some k => bankFree s k
    | none => true)

/-- Has a unit of a core writes that are not performed? -/
def outBusy (s : State) (core unit : Nat) : Bool := (coreAt s core).out.any (fun x => x.unit == unit)

/-- Hand a write over: it is performed at once where it can be, and no earlier one of the unit to its word waits. -/
def putOut (x : EngWrite) (s : State) : State :=
  let k := coreAt s (coreOf x.ctx)
  let sameWord := fun (y : EngWrite) => y.unit == x.unit && (outKey s y).map (· / 8) == (outKey s x).map (· / 8)
  if outFree s x && !k.out.any sameWord then performOut x s else putCore { k with out := k.out ++ [x] } s

/-- Perform those of some handed-over writes that can be. -/
def flushEach (core : Nat) : List EngWrite → State → State
  | [], s => s
  | x :: xs, s =>
    let k := coreAt s core
    flushEach core xs (if outFree s x then performOut x (putCore { k with out := dropFirst x k.out } s) else s)

/-- The writes of a unit of a core that wait are tried again. -/
def flushOut (core unit : Nat) (s : State) : State := flushEach core ((coreAt s core).out.filter (fun x => x.unit == unit)) s

/-- Write bytes to L1, word by word; `f` bounds the pieces.  A page of the own cluster without a frame is
refilled first; one of another cluster is a fault (R297). -/
def writeLocal (w : Who) (cl area : Nat) (remote : Bool) : Nat → Nat → List Byte → State → Eng Unit
  | 0, _, _, s => .ok () s
  | f + 1, off, bs, s =>
    if bs = [] then .ok () s
    else
      match localKey s cl area off with
      | none => if remote then .fault { cause := .notres } else .wait (.page cl area (off / 65536))
      | some _ =>
        let k := min bs.length (8 - off % 8)
        writeLocal w cl area remote f (off + k) (bs.drop k)
          (putOut { unit := w.unit, ctx := w.ctx, spot := .l1 cl area off remote, bytes := bs.take k } s)

/-- A write within one word of a line. -/
def writePiece (w : Who) (va policy : Nat) (bs : List Byte) (s : State) : Eng Unit :=
  let n := bs.length
  (ofAcc (resolve w 0 va true s)).bind fun key t =>
    if nonCoherent key then
      let t := logGlobal w va key t
      let c := ctxOf t w.ctx
      let t := putCtx { c with ports := addOnce (portKey key) c.ports } t
      .ok () (homeWriteN key n (ofBytes bs)
        { t with host := { t.host with posted := (key / 2 ^ 59, key % 2 ^ 59, n, ofBytes bs) :: t.host.posted } })
    else .ok () (putOut { unit := w.unit, ctx := w.ctx, spot := .mem va policy, home := key, bytes := bs } t)

/-- Write bytes to GLOBAL, word by word. -/
def writeGlobal (w : Who) (policy : Nat) : Nat → Nat → List Byte → State → Eng Unit
  | 0, _, _, s => .ok () s
  | f + 1, va, bs, s =>
    if bs = [] then .ok () s
    else
      let k := min bs.length (8 - va % 8)
      (writePiece w va policy (bs.take k) s).bind fun _ t => writeGlobal w policy f ((va + k) % 2 ^ 57) (bs.drop k) t

/-- The agent of a die's copy-engine port (R263). -/
def copyPort (id : Nat) : Nat := 17 + dieOf id

/-- Write bytes at a place.  A remote write passes the copy-engine port of the die: while that agent is dead the
write is dropped and fails (R297). -/
def engWrite (w : Who) (p : Spot) (bs : List Byte) (s : State) : Eng Unit :=
  match p with
  | .l1 c a o r =>
    if r && s.homes.dead.contains (copyPort w.ctx) then
      .fault { cause := .poison, line := some { isLocal := true, cluster := c, line := o / 128 * 128, tag := a } }
    else writeLocal w c a r (bs.length / 8 + 2) o bs s
  | .mem va pol => writeGlobal w pol (bs.length / 8 + 2) va bs s

/-- The translations of a GLOBAL range that is to be written, page by page; a page that is not mapped, or not for writing,
is the failure. -/
def pagesOk (w : Who) (n : Nat) (p : Spot) (s : State) : Eng (List TlbEntry) :=
  match p with
  | .l1 _ _ _ _ => .ok [] s
  | .mem va _ =>
    (List.range ((va % 4096 + n + 4095) / 4096)).foldl (fun r i => r.bind fun es t =>
      let a := va / 4096 * 4096 + 4096 * i
      match translate (clusterOf w.ctx) w.asid a t with
      | (none, _) => .fault { cause := .notres }
      | (some e, u) => if pageAllows u e (homeKey u e a) false true then .ok (addOnce e es) u else .fault { cause := .perm }) (.ok [] s)

/-- What an engine does about a wait before its step is taken again: it has the page refilled, or asks for the answer of a
PCIe read once. -/
def remedy (w : Who) (x : Stall) (s : State) : State :=
  match x with
  | .page cl area page => refillPage cl area page true s
  | .pcie key n =>
    let r : HomeReq := {
      ctx := w.ctx, ptr := 0, asid := w.asid, va := 0, size := n, op := .engine w.unit, acq := false, rel := false, pa := key }
    if s.host.pcie.any (fun q => q.2 == r) then s
    else { s with host := { s.host with pcie := s.host.pcie ++ [(s.fresh, r)] }, fresh := s.fresh + 1 }
  | .idle => s

/-! ### Faults and completions -/

/-- Store a fault with the context of a command: a second one sets `more` of the first.  A KWAIT parked on the
command's knot is woken. -/
def storeFault (cmd : Cmd) (x : Fail) (opnd : Nat) (s : State) : State :=
  let c := ctxOf s cmd.ctx
  let f : EngFault := {
    efr0 := nat64 (cmd.word.toNat * 2 ^ 32 + x.cause.code * 2 ^ 16 + opnd * 2 ^ 8)
    efr1 := cmd.gd, efr2 := cmd.ga, efr3 := cmd.gb, pc := cmd.pc, knot := cmd.knot, line := x.line }
  let f := match c.a.efault with
    | some g => { g with efr0 := g.efr0 ||| 1 }
    | none => f
  let s := putCtx { c with a := { c.a with efault := some f } } s
  match cmd.knot with
  | none => s
  | some off =>
    match localKey s (clusterOf c.id) c.bind.area off with
    | some key => notifyWord key s
    | none => s

/-- Destination size of an MSCA format. -/
def dfmtSize (f : Nat) : Nat :=
  match f with
  | 0 | 3 => 4
  | 4 => 1
  | _ => 2

/-- The count of a command in bytes (R172). -/
def cmdCount (cmd : Cmd) : Nat :=
  let w := cmd.word.toNat
  let sh := cmd.gb.toNat
  let d3 := cmd.desc.getD 3 0
  let d0 := cmd.desc.getD 0 0
  match cmd.kind with
  | .mmaI8 | .mmaI16 | .mmaCq15 | .mmaDp8 => 32 * rowsOf (shapeM w) + 512 * shapeN w
  | .mzero => 0
  | .mdrain => 192 * rowsOf (shapeM sh) * shapeN sh
  | .msca => 16 * rowsOf (mscaM d3) * mscaN d3 * dfmtSize (mscaFmt d3)
  | .cpy | .cpyf | .cpych => cmd.gd.toNat
  | .cpy2d => fieldOf d0 32 32 * fieldOf d0 0 32
  | .cpyg | .cpys => cmd.sum

/-- Remove a finished command: its flags are recorded with its context, and its count is on its way to the
knot. -/
def presentCount (cmd : Cmd) (s : State) : State :=
  let c := ctxOf s cmd.ctx
  let s := if cmd.flags = 0 then s
    else putCtx { c with a := { c.a with eflags := c.a.eflags ++ [{ knot := cmd.knot, flags := cmd.flags }] } } s
  match cmd.knot with
  | none => s
  | some off =>
    sendFlight (.count (coreOf c.id) (if cmd.kind.isCopy then 2 else 1) c.bind.area c.bind.launch off (cmdCount cmd)) s

/-- Has the issuing context accesses before the command that are not performed: a release on its way or a buffered store
that has to stay (R170, R174), or the drain of a hand-off (R219)?
DEDUCED, safe (log entry 22). -/
def startBlocked (s : State) (cmd : Cmd) : Bool :=
  handoffWait s cmd.ctx || s.homes.reqs.any (fun r => r.ctx == cmd.ctx && onlyWrites r.op) ||
  ownStuck s cmd.ctx (fun _ => true)

/-- Do the engines of a core run?  Not while the die relocks (R399), nor once a brown-out has stopped them (R407). -/
def engineRuns (s : State) (core : Nat) : Bool := (dieAt s (core / 4096)).relock.isNone && !brownStopped s

/-- Replace the first command of a queue that satisfies `f`. -/
def setCmd (f : Cmd → Bool) (x : Cmd) : List Cmd → List Cmd
  | [] => []
  | y :: ys => if f y then x :: ys else y :: setCmd f x ys

/-- The completion of the oldest finished command of a core's matrix unit or copy engine is presented, once its writes are
all performed (R300); one that has lost a write has failed (R297). -/
def execEngineCompletion (core : Nat) (copy : Bool) (s : State) : Out :=
  if engineRuns s core = false then .next s
  else
    let unit := if copy then 2 else 1
    let s := flushOut core unit s
    let k := coreAt s core
    match (if copy then k.cq else k.mq).find? (·.finished) with
    | none => .next s
    | some cmd =>
      if outBusy s core unit then .next s
      else
        let k := if copy then { k with cq := dropFirst cmd k.cq } else { k with mq := dropFirst cmd k.mq }
        .next (presentCount cmd (putCore k (if cmd.dropped then storeFault cmd { cause := .poison } 0 s else s)))

end Sys2Proof.Machine
end

