-- ==== Sys2Proof/Machine/MatrixDev.lean ====
section
/-!
DEFINITION. The matrix unit at work: operand fetch (R290), turn order (R288), the turns of MMA, MZERO,
MDRAIN and MSCA (R49-R53, R175-R182, R293), and abandonment (R173).
-/

namespace Sys2Proof.Machine

open Sys2Proof

/-! ### Slots -/

/-- An accumulator slot of a tile, and its elements. -/
def slotAt (t : Tile) (k : Nat) : Slot := getBy Slot.id k { id := k } t.slots
def Slot.el (x : Slot) (i j : Nat) : BitVec 96 := x.els.getD (16 * i + j) 0

/-- Store a slot. -/
def putSlot (x : Slot) (t : Tile) : Tile := { t with slots := putBy Slot.id x t.slots }

/-- Store some slots. -/
def putSlots : List Slot → Tile → Tile
  | [], t => t
  | x :: xs, t => putSlots xs (putSlot x t)

/-- First slot of the partition of a command's context. -/
def cmdBase (s : State) (cmd : Cmd) : Nat := fieldOf (ctxOf s cmd.ctx).a.sr.mpart 0 6

/-- mcode, n and relative slot of a command's shape. -/
def cmdShape (cmd : Cmd) : Nat × Nat × Nat :=
  let w := match cmd.kind with
    | .mdrain => cmd.gb.toNat
    | .msca =>
      let d := cmd.desc.getD 3 0
      mscaM d * 2 ^ 14 + mscaN d * 2 ^ 8 + mscaSlot d * 4
    | _ => cmd.word.toNat
  (rowsOf (shapeM w), shapeN w, shapeSlot w)

/-- The slots of a column group, row block by row block. -/
def groupSlots (s : State) (cmd : Cmd) (slice : Nat) : List Nat :=
  let sh := cmdShape cmd
  (List.range (sh.1 / 8)).map (fun i => cmdBase s cmd + sh.2.2 + i * sh.2.1 + slice)

/-- All slots of a shape. -/
def shapeSlots (s : State) (cmd : Cmd) : List Nat :=
  let sh := cmdShape cmd
  (List.range (sh.1 / 8 * sh.2.1)).map (fun i => cmdBase s cmd + sh.2.2 + i)

/-! ### Products and elements (R49, R51, R123, R176) -/

/-- Element `k` of `n` bytes each. -/
def elemOf (bs : List Byte) (n k : Nat) : Nat := ofBytes ((bs.drop (n * k)).take n)

/-- P of a DP8 weight and an I8 activation, in units of 2^-6 (R49). -/
def dp8Prod (w : Nat) (a : Int) : Int :=
  let term := fun (sign k : Nat) => if k = 7 then (0 : Int) else (if sign = 1 then -1 else 1) * a * ((2 ^ (6 - k) : Nat) : Int)
  term (w / 128 % 2) (w / 16 % 8) + term (w / 8 % 2) (w % 8)

/-- Bytes of an A element and of a B element. -/
def aSize : CmdKind → Nat
  | .mmaI16 => 2
  | .mmaCq15 => 4
  | _ => 1
def bSize (k : CmdKind) : Nat := aSize k

/-- K of a format. -/
def depthOf (k : CmdKind) : Nat := 32 / aSize k

/-- Prod of two elements: real and imaginary parts. -/
def prodOf (k : CmdKind) (x y : Nat) : Int × Int :=
  match k with
  | .mmaI16 => (sext x 16 * sext y 16, 0)
  | .mmaDp8 => (dp8Prod x (sext y 8), 0)
  | .mmaCq15 =>
    let ar := sext x 16
    let ai := sext (x / 2 ^ 16) 16
    let br := sext y 16
    let bi := sext (y / 2 ^ 16) 16
    (ar * br - ai * bi, ar * bi + ai * br)
  | _ => (sext x 8 * sext y 8, 0)

/-- Keep(i, k) of R177. -/
def keeps (bitmap kk i k : Nat) : Bool := bitmap.testBit (i / 8 * (kk / 8) + k / 8)

/-- The exact sum of the products of row `i` of A and column `j` of a B slice, over `k` below a bound. -/
def dotOf (kind : CmdKind) (bitmap i j : Nat) (row : List Byte) (slice : List (List Byte)) : Nat → Int × Int
  | 0 => (0, 0)
  | k + 1 =>
    let r := dotOf kind bitmap i j row slice k
    if keeps bitmap (depthOf kind) i k then
      let p := prodOf kind (elemOf row (aSize kind) k) (elemOf (slice.getD k []) (bSize kind) j)
      (r.1 + p.1, r.2 + p.2)
    else r

/-- Add a sum to an element: the new element and whether it wrapped (R52). -/
def accumulate (complex : Bool) (el : BitVec 96) (d : Int × Int) : BitVec 96 × Bool :=
  if complex then
    let re := sext (el.toNat % 2 ^ 48) 48 + d.1
    let im := sext (el.toNat / 2 ^ 48) 48 + d.2
    let r := wrapN re 48
    let i := wrapN im 48
    (BitVec.ofNat 96 (i * 2 ^ 48 + r), sext r 48 != re || sext i 48 != im)
  else
    let x := sext el.toNat 96 + d.1
    (BitVec.ofNat 96 (wrapN x 96), sext (wrapN x 96) 96 != x)

/-- One slot of a slice of an MMA: row block `ib` (R176). -/
def mmaSlot (cmd : Cmd) (op : OpArea) (slice : List (List Byte)) (ib : Nat) (x : Slot) : Slot :=
  let z := cmd.word.getLsbD 0
  let complex := cmd.kind == .mmaCq15
  let es := (List.range 128).map (fun e =>
    let i := 8 * ib + e / 16
    let j := e % 16
    accumulate complex (if z then 0 else x.els.getD e 0)
      (dotOf cmd.kind op.bitmap i j ((op.rows.getD []).getD i []) slice (depthOf cmd.kind)))
  { x with
    mode := if complex then .complex else .integer
    wrap := (if z then false else x.wrap) || es.any (·.2)
    els := es.map (·.1) }

/-- Number the elements of a list. -/
def enumerate {α : Type} (n : Nat) : List α → List (Nat × α)
  | [] => []
  | x :: xs => (n, x) :: enumerate (n + 1) xs

/-- A slice of an MMA: each slot is copied to the shadow file and written. -/
def mmaSlice (s : State) (cmd : Cmd) (op : OpArea) (slice : List (List Byte)) (t : Tile) : Tile :=
  (enumerate 0 (groupSlots s cmd cmd.next)).foldl (fun t ik =>
    let x := slotAt t ik.2
    putSlot (mmaSlot cmd op slice ik.1 x) { t with shadow := (cmd.ctx, x) :: t.shadow }) t

/-! ### Abandonment and the end of a command (R173, R293) -/

/-- The current matrix command of a core: the oldest that has not ended. -/
def mHead (k : Core) : Option Cmd := k.mq.find? (fun c => !c.finished)

/-- Replace it. -/
def putHead (core : Nat) (x : Cmd) (s : State) : State :=
  let k := coreAt s core
  putCore { k with mq := setCmd (fun c => !c.finished) x k.mq } s

/-- The shadow copies of a context's command are gone. -/
def dropShadow (ctx : Nat) (s : State) : State :=
  let t := tileAt s (tileOf ctx)
  putTile { t with shadow := t.shadow.filter (fun x => x.1 != ctx) } s

/-- The unit lets go of the operands, shadow copies and result buffer of the command it runs for a core. -/
def releaseUnit (core ctx : Nat) (s : State) : State :=
  let s := dropShadow ctx s
  let t := tileAt s (core / 8)
  let s := putTile { t with holder := if t.holder = some core then none else t.holder } s
  clearGot core 1 (putCore { coreAt s core with opArea := {} } s)

/-- A failed command: the slots it wrote are restored, and it ends with its fault stored. -/
def abandon (core : Nat) (cmd : Cmd) (f : Fail) (opnd : Nat) (s : State) : State :=
  let t := tileAt s (core / 8)
  let s := putTile (putSlots ((t.shadow.filter (fun x => x.1 == cmd.ctx)).map (·.2)) t) s
  let s := releaseUnit core cmd.ctx s
  storeFault cmd f opnd (putHead core { cmd with started := true, finished := true, flags := 0, buf := [] } s)

/-- A command ends. -/
def endCmd (core : Nat) (cmd : Cmd) (s : State) : State := putHead core { cmd with finished := true, buf := [] } (releaseUnit core cmd.ctx s)

/-! ### Start checks (R173, R175, R180-R182) -/

/-- Strides, scales and destination of an MSCA. -/
def mscaDst (cmd : Cmd) : Word64 := cmd.desc.getD 0 0
def mscaRsc (cmd : Cmd) : Word64 := cmd.desc.getD 1 0
def mscaCsc (cmd : Cmd) : Word64 := cmd.desc.getD 2 0
def mscaRow (cmd : Cmd) : Nat :=
  let d := cmd.desc.getD 3 0
  if mscaStride d = 0 then 16 * mscaN d * dfmtSize (mscaFmt d) else mscaStride d

/-- A check of one operand, with its number for EFR0. -/
abbrev Checked := Except (Cause × Nat) Unit

/-- Name the operand of a failed check. -/
def namedOpnd {α : Type} (n : Nat) (e : Except Cause α) : Checked :=
  match e with
  | .ok _ => .ok ()
  | .error c => .error (c, n)

/-- Both checks. -/
def Checked.and (a b : Checked) : Checked :=
  match a with
  | .ok _ => b
  | .error x => .error x

/-- Do the slots suit a destination format: complex for CQ15, integer for every other, clear for both? -/
def modesOk (s : State) (core : Nat) (cmd : Cmd) : Bool :=
  let want : SlotMode := if mscaFmt (cmd.desc.getD 3 0) = 3 then .complex else .integer
  (shapeSlots s cmd).all (fun k =>
    let m := (slotAt (tileAt s (core / 8)) k).mode
    m == .clear || m == want)

/-- The engine's checks when a matrix command starts.
DEDUCED, unsafe (log entry 21). -/
def matrixChecks (s : State) (core : Nat) (cmd : Cmd) : Checked :=
  let sh := cmdShape cmd
  match cmd.kind with
  | .mzero => .ok ()
  | .mdrain => namedOpnd 0 (engOperand s cmd cmd.ga (192 * sh.1 * sh.2.1) .engDst ownOrGlobal (ov cmd.ga % 4 == 0))
  | .msca =>
    let d := cmd.desc.getD 3 0
    let n := dfmtSize (mscaFmt d)
    (namedOpnd 0 (engOperand s cmd (mscaDst cmd) ((sh.1 - 1) * mscaRow cmd + 16 * sh.2.1 * n) .engDst ownOrGlobal
      (ov (mscaDst cmd) % n == 0))).and <|
    (if mscaRsc cmd = 0 then .ok ()
      else namedOpnd 4 (engOperand s cmd (mscaRsc cmd) (4 * sh.1) .engSrc ownOrGlobal (ov (mscaRsc cmd) % 4 == 0))).and <|
    (if mscaCsc cmd = 0 then .ok ()
      else namedOpnd 4 (engOperand s cmd (mscaCsc cmd) (64 * sh.2.1) .engSrc ownOrGlobal (ov (mscaCsc cmd) % 4 == 0))).and <|
    (if modesOk s core cmd then .ok () else .error (.accslot, 5))
  | _ =>
    let kk := depthOf cmd.kind
    (namedOpnd 1 (engOperand s cmd cmd.ga ((sh.1 - 1) * cmd.mstra + 32) .engR ownLocal
      (ov cmd.ga % 8 == 0 && cmd.mstra % 8 == 0))).and <|
    (namedOpnd 1 (engOperand s cmd cmd.gb ((kk - 1) * cmd.mstrb + 16 * sh.2.1 * bSize cmd.kind) .engR ownLocal
      (ov cmd.gb % 8 == 0 && cmd.mstrb % 8 == 0))).and <|
    (if cmd.word.getLsbD 1 then namedOpnd 3 (engOperand s cmd cmd.mbm 8 .engR ownLocal (ov cmd.mbm % 8 == 0)) else .ok ())

/-- The place of an operand whose check has passed. -/
def spotAt (s : State) (cmd : Cmd) (p : Word64) : Spot :=
  let c := ctxOf s cmd.ctx
  spotOf c (entryIn c.handles (hv p)) p

/-- The translations of a GLOBAL destination are looked at when the command starts. -/
def destPages (s : State) (cmd : Cmd) : Eng (List TlbEntry) :=
  let sh := cmdShape cmd
  match cmd.kind with
  | .mdrain => pagesOk (whoOf s cmd) (192 * sh.1 * sh.2.1) (spotAt s cmd cmd.ga) s
  | .msca =>
    pagesOk (whoOf s cmd) ((sh.1 - 1) * mscaRow cmd + 16 * sh.2.1 * dfmtSize (mscaFmt (cmd.desc.getD 3 0)))
      (spotAt s cmd (mscaDst cmd)) s
  | _ => .ok [] s

/-- May a command start: its start rule is met, and the writes of the core's earlier commands are performed? -/
def mayStart (s : State) (core : Nat) (cmd : Cmd) : Bool := cmd.checked || (!startBlocked s cmd && !outBusy s core 1)

/-- An operand area with nothing in it: both B areas are free. -/
def freshArea (s : State) : OpArea := { asked := [s.steps, s.steps] }

/-- Start a command: none while an earlier access of its context is not performed; its buffered stores are
performed, and its operands are checked. -/
def startMatrix (core : Nat) (cmd : Cmd) (s : State) (k : Cmd → State → State) : State :=
  if cmd.checked then k cmd s
  else if mayStart s core cmd = false then s
  else
    let s := drainAllOwn cmd.ctx s
    match matrixChecks s core cmd with
    | .error e => abandon core cmd { cause := e.1 } e.2 s
    | .ok _ =>
      match destPages s cmd with
      | .wait _ => s
      | .fault c => abandon core cmd c 0 s
      | .ok es t =>
        let x := { cmd with checked := true, pages := es }
        k x (putHead core x (putCore { coreAt t core with opArea := freshArea t } t))

/-! ### Operand fetch (R290) -/

/-- Some rows at a stride. -/
def rowsAt (p : Spot) (stride n r : Nat) : List (Spot × Nat) := (List.range r).map (fun i => (p.plus (stride * i), n))

/-- What is fetched once a command: A, or the row scales of an MSCA; and the bitmap of a sparse MMA. -/
def rowSpots (s : State) (cmd : Cmd) : List (Spot × Nat) :=
  let sh := cmdShape cmd
  match cmd.kind with
  | .msca => if mscaRsc cmd = 0 then [] else [(spotAt s cmd (mscaRsc cmd), 4 * sh.1)]
  | _ => rowsAt (spotAt s cmd cmd.ga) cmd.mstra 32 sh.1
def bitmapSpots (s : State) (cmd : Cmd) : List (Spot × Nat) :=
  if cmd.kind != .msca && cmd.word.getLsbD 1 then [(spotAt s cmd cmd.mbm, 8)] else []

/-- What is fetched for a turn: the B slice, or the column scales; and the prior values of an MSCA with acc = 1, row by
row (R293). -/
def sliceSpots (s : State) (cmd : Cmd) (j : Nat) : List (Spot × Nat) :=
  match cmd.kind with
  | .msca => if mscaCsc cmd = 0 then [] else [((spotAt s cmd (mscaCsc cmd)).plus (64 * j), 64)]
  | _ =>
    let n := 16 * bSize cmd.kind
    rowsAt ((spotAt s cmd cmd.gb).plus (n * j)) cmd.mstrb n (depthOf cmd.kind)
def priorSpots (s : State) (cmd : Cmd) (j : Nat) : List (Spot × Nat) :=
  let d3 := cmd.desc.getD 3 0
  if cmd.kind = .msca ∧ mscaAcc d3 = true then
    let n := 16 * dfmtSize (mscaFmt d3)
    rowsAt ((spotAt s cmd (mscaDst cmd)).plus (n * j)) (mscaRow cmd) n (cmdShape cmd).1
  else []

/-- Operand number of A or the scales, by kind. -/
def sourceOpnd (cmd : Cmd) : Nat := if cmd.kind = .msca then 4 else 1

/-- The turn whose operands a command asks for next: the first that has none, while a B area is free. -/
def nextFetch (s : State) (core : Nat) (cmd : Cmd) : Option Nat :=
  let op := (coreAt s core).opArea
  let j := cmd.next + op.slices.length
  if decide (op.slices.length < 2) && decide (j < (cmdShape cmd).2.1) && !cmd.phase2 then some j else none

/-- Two groups of places read one after the other: the second's failure names another operand. -/
def fetchBoth (core : Nat) (cmd : Cmd) (a b : List (Spot × Nat)) (opnd : Nat) (s : State)
    (k : List (List Byte) → List (List Byte) → State → State) : State :=
  let w := whoOf s cmd
  match readAll w a s with
  | .wait x => remedy w x s
  | .fault c => abandon core cmd c (sourceOpnd cmd) s
  | .ok x t =>
    match readAll w b t with
    | .wait x => remedy w x s
    | .fault c => abandon core cmd c opnd s
    | .ok y u => k x y u

/-- The oldest fetch that the command's area asks for. -/
def fetchMore (core : Nat) (cmd : Cmd) (s : State) : State :=
  let op := (coreAt s core).opArea
  let keep := fun (x : OpArea) (t : State) => putCore { coreAt t core with opArea := x } t
  if op.rows.isNone then
    fetchBoth core cmd (rowSpots s cmd) (bitmapSpots s cmd) 3 s fun rows bits t =>
      keep { op with rows := some rows, bitmap := if bits = [] then 2 ^ 16 - 1 else ofBytes bits.flatten } t
  else
    match nextFetch s core cmd with
    | none => s
    | some j =>
      fetchBoth core cmd (sliceSpots s cmd j) (priorSpots s cmd j) 0 s fun sl pr t =>
        keep { op with slices := op.slices ++ [(if sl = [] then [[]] else sl) ++ pr], asked := op.asked.tail } t

/-- Does a command need operands in its area? -/
def needsArea (cmd : Cmd) : Bool :=
  match cmd.kind with
  | .mzero | .mdrain => false
  | .msca => !cmd.phase2
  | _ => true

/-- Has a core a fetch outstanding: the rows of its command, or a slice that a free area waits for? -/
def fetching (s : State) (core : Nat) : Bool :=
  match mHead (coreAt s core) with
  | none => false
  | some cmd =>
    needsArea cmd && mayStart s core cmd &&
    (!cmd.checked || (coreAt s core).opArea.rows.isNone || (nextFetch s core cmd).isSome)

/-- The step at which the oldest fetch of a core began to wait; a command that has not started asks now. -/
def fetchAge (s : State) (core : Nat) : Nat :=
  let k := coreAt s core
  if (mHead k).any (·.checked) then k.opArea.asked.headD s.steps else s.steps

/-- The words of L1 that the oldest fetch of a core reads. -/
def matrixWants (s : State) (core : Nat) : List Nat :=
  match mHead (coreAt s core) with
  | none => []
  | some cmd =>
    if cmd.checked && fetching s core then
      (if (coreAt s core).opArea.rows.isNone then spotWords s (rowSpots s cmd ++ bitmapSpots s cmd)
      else match nextFetch s core cmd with
        | none => []
        | some j => spotWords s (sliceSpots s cmd j ++ priorSpots s cmd j))
    else []

/-- A fetch of a core's command, if none of its tile is older.
DESIGN CHOICE, safe (log entry 8). -/
def execOperandFetch (core : Nat) (s : State) : Out :=
  match mHead (coreAt s core) with
  | none => .next s
  | some cmd =>
    let older := fun (j : Nat) => fetching s (core / 8 * 8 + j) &&
      decide (fetchAge s (core / 8 * 8 + j) < fetchAge s core)
    if engineRuns s core && fetching s core && !(List.range 8).any older then .next (startMatrix core cmd s (fetchMore core))
    else .next s

/-! ### MSCA (R182) -/

/-- The value of an accumulator field as an exact integer. -/
def fieldVal (complex im : Bool) (el : BitVec 96) : Int :=
  if complex then sext (if im then el.toNat / 2 ^ 48 else el.toNat) 48 else sext el.toNat 96

/-- An integer times a power of two as a value. -/
def exactVal (v : Int) (e : Int) : FVal := .fin (decide (v < 0)) v.natAbs e

/-- The exact sum of two values, and whether it is invalid. -/
def exactSum (x y : FVal) : FVal × Bool :=
  match x, y with
  | .nan a, .nan b => (.nan false, a || b)
  | .nan a, _ => (.nan false, a)
  | _, .nan b => (.nan false, b)
  | .inf a, .inf b => if a = b then (.inf a, false) else (.nan false, true)
  | .inf a, _ => (.inf a, false)
  | _, .inf b => (.inf b, false)
  | .fin a m e, .fin b n f =>
    let e0 := min e f
    (exactVal (sumAt e0 [⟨a, m, e⟩, ⟨b, n, f⟩]) e0, false)

/-- One component of an MSCA result: `a` exact, the scales, and the prior value, if any. -/
def mscaComp (fmt : Nat) (shift : Int) (mode : Nat) (a : Int) (rs cs : FVal) (prior : Option FVal) : Nat × Nat :=
  let p1 := fprod (exactVal a (-shift)) rs
  let p2 := fprod p1.1 cs
  let bad := p1.2 || p2.2 || rs.isSNaN || cs.isSNaN
  let terms := p2.1 :: prior.toList
  match fmt with
  | 0 => fsum 23 mode bad terms
  | 1 => fsum 7 mode bad terms
  | _ =>
    let sm := match prior with
      | none => (p2.1, false)
      | some y => exactSum p2.1 y
    let r := match fmt with
      | 2 | 3 => toFixed sm.1 15 16 false true mode
      | 4 => toFixed sm.1 0 8 false true mode
      | _ => toFixed sm.1 0 16 false true mode
    (wrapN r.1 (if fmt = 4 then 8 else 16), r.2)

/-- The prior value of a component in a format. -/
def priorVal (fmt x : Nat) : FVal :=
  match fmt with
  | 0 => f32 x
  | 1 => bf16 x
  | 2 | 3 => exactVal (sext x 16) (-15)
  | 4 => exactVal (sext x 8) 0
  | _ => exactVal (sext x 16) 0

/-- An element of an MSCA: its bytes and flags. -/
def mscaElem (d3 : Word64) (mode : Nat) (el : BitVec 96) (rs cs : FVal) (prior : Option Nat) : List Byte × Nat :=
  let fmt := mscaFmt d3
  let comp := fun (im : Bool) (pr : Option Nat) =>
    mscaComp fmt (mscaShift d3) mode (fieldVal (fmt == 3) im el) rs cs (pr.map (priorVal fmt))
  if fmt = 3 then
    let re := comp false prior
    let im := comp true (prior.map (· / 2 ^ 16))
    (toBytes re.1 2 ++ toBytes im.1 2, re.2 ||| im.2)
  else
    let r := comp false prior
    (toBytes r.1 (dfmtSize fmt), r.2)

/-- The scale with an index: 1 when there are none. -/
def scaleAt (bs : List (List Byte)) (i : Nat) : FVal :=
  match bs with
  | [] => .fin false 1 0
  | b :: _ => f32 (elemOf b 4 i)

/-- Row `i` of a slice, 16 elements: the results and flags. -/
def mscaLine (d3 : Word64) (mode : Nat) (els : List (BitVec 96)) (rs : FVal) (cols : List (List Byte))
    (prior : Option (List Byte)) : List Byte × Nat :=
  let n := dfmtSize (mscaFmt d3)
  (enumerate 0 els).foldl (fun r je =>
    let x := mscaElem d3 mode je.2 rs (scaleAt cols je.1) (prior.map (fun bs => elemOf bs n je.1))
    (r.1 ++ x.1, r.2 ||| x.2)) ([], 0)

/-- The 16 elements of row `i` in a slice. -/
def rowEls (s : State) (core : Nat) (cmd : Cmd) (slice i : Nat) : List (BitVec 96) :=
  let sh := cmdShape cmd
  let x := slotAt (tileAt s (core / 8)) (cmdBase s cmd + sh.2.2 + i / 8 * sh.2.1 + slice)
  (List.range 16).map (fun j => x.el (i % 8) j)

/-- Phase 1 of a slice, its first rows: every result goes to the result buffer. -/
def mscaSlice (s : State) (core : Nat) (cmd : Cmd) (op : OpArea) (slice : List (List Byte)) : Nat → List Byte × Nat
  | 0 => ([], 0)
  | i + 1 =>
    let acc := mscaSlice s core cmd op slice i
    let d3 := cmd.desc.getD 3 0
    let cols := (slice.take 1).filter (· != [])
    let r := mscaLine d3 cmd.frm (rowEls s core cmd cmd.next i) (scaleAt (op.rows.getD []) i) cols
      (if mscaAcc d3 then slice[i + 1]? else none)
    (acc.1 ++ r.1, acc.2 ||| r.2)

/-- Write a slice of `rows` rows of `n` bytes, at a stride. -/
def writeRows (w : Who) (p : Spot) (stride n : Nat) (bs : List Byte) : Nat → State → Eng Unit
  | 0, s => .ok () s
  | r + 1, s =>
    (writeRows w p stride n bs r s).bind fun _ t => engWrite w (p.plus (stride * r)) ((bs.drop (n * r)).take n) t

/-! ### Turns (R288) -/

/-- The wrap bits of the shape's slots are recorded and cleared when the command has read and written all. -/
def takeWraps (core : Nat) (cmd : Cmd) (s : State) : Cmd × State :=
  let t := tileAt s (core / 8)
  let ks := shapeSlots s cmd
  let w := ks.any (fun k => (slotAt t k).wrap)
  ({ cmd with flags := cmd.flags ||| flagIf w fMOV },
    putTile { t with slots := t.slots.map (fun x => if ks.contains x.id then { x with wrap := false } else x) } s)

/-- After a turn: the next one, or the next phase, or the end. -/
def afterTurn (core : Nat) (cmd : Cmd) (s : State) : State :=
  let n := (cmdShape cmd).2.1
  if cmd.next + 1 < n then putHead core { cmd with next := cmd.next + 1 } s
  else
    match cmd.kind with
    | .mdrain | .msca =>
      if cmd.phase2 then
        let r := takeWraps core cmd s
        endCmd core r.1 r.2
      else putHead core { cmd with next := 0, phase2 := true } s
    | _ => endCmd core cmd s

/-- The image of a slice of MDRAIN: rows of 192 bytes (R53). -/
def drainSlice (s : State) (core : Nat) (cmd : Cmd) (m : Nat) : List Byte :=
  ((List.range m).map (fun i => ((rowEls s core cmd cmd.next i).map (fun e => toBytes e.toNat 12)).flatten)).flatten

/-- A core's area after a turn: its slice is used up. -/
def nextSlice (core : Nat) (s : State) : State :=
  let k := coreAt s core
  putCore { k with opArea := { k.opArea with slices := k.opArea.slices.tail, asked := k.opArea.asked ++ [s.steps] } } s

/-- The turn of a command whose start rule is met and whose operands are there: none begins while a page of its
destination has no frame. -/
def turnOf (core : Nat) (cmd : Cmd) (s : State) : Eng Unit :=
  let cmd := { cmd with started := true }
  let k := coreAt s core
  let t := tileAt s (core / 8)
  let sh := cmdShape cmd
  match cmd.kind with
  | .mzero =>
    let first := cmdBase s cmd + cmd.ga.toNat
    .ok () (endCmd core cmd (putTile { t with slots := t.slots.filter (fun x =>
      !(decide (first ≤ x.id) && decide (x.id < first + cmd.gb.toNat))) } s))
  | .mdrain =>
    let u := putTile { t with holder := some core } s
    if cmd.phase2 then
      match writeRows (whoOf s cmd) ((spotAt s cmd cmd.ga).plus (192 * cmd.next)) (192 * sh.2.1) 192
          (drainSlice s core cmd sh.1) sh.1 u with
      | .ok _ v => .ok () (afterTurn core cmd v)
      | .wait x => .wait x
      | .fault c => .ok () (abandon core cmd c 0 s)
    else .ok () (afterTurn core cmd u)
  | .msca =>
    let u := putTile { t with holder := some core } s
    let n := dfmtSize (mscaFmt (cmd.desc.getD 3 0))
    if cmd.phase2 then
      match writeRows (whoOf s cmd) ((spotAt s cmd (mscaDst cmd)).plus (16 * n * cmd.next)) (mscaRow cmd) (16 * n)
          (cmd.buf.getD cmd.next []) sh.1 u with
      | .ok _ v => .ok () (afterTurn core cmd v)
      | .wait x => .wait x
      | .fault c => .ok () (abandon core cmd c 0 s)
    else
      let r := mscaSlice s core cmd k.opArea (k.opArea.slices.headD []) sh.1
      .ok () (afterTurn core { cmd with buf := cmd.buf ++ [r.1], flags := cmd.flags ||| r.2 } (nextSlice core u))
  | _ => .ok () (afterTurn core cmd (nextSlice core (putTile (mmaSlice s cmd k.opArea (k.opArea.slices.headD []) t) s)))

/-- Ready(j) of R288. -/
def matrixReady (s : State) (core : Nat) : Bool :=
  match mHead (coreAt s core) with
  | none => false
  | some cmd =>
    let h := (tileAt s (core / 8)).holder
    let k := coreAt s core
    !tornDown s (ctxOf s cmd.ctx).bind.launch &&
    match cmd.kind with
    | .mzero => mayStart s core cmd
    | .mdrain => mayStart s core cmd && (h.isNone || h == some core)
    | .msca => cmd.checked && (h.isNone || h == some core) && (cmd.phase2 || k.opArea.slices != [])
    | _ => cmd.checked && k.opArea.slices != []

/-- The core whose turn comes: the favoured one while its run is below its weight, else the first ready core after
it; with the new P and run. -/
def turnChoice (s : State) (tile : Nat) : Option (Nat × Nat) :=
  let t := tileAt s tile
  let rdy := fun (j : Nat) => matrixReady s (tile * 8 + j)
  if t.run < (coreAt s (tile * 8 + t.p)).weight ∧ rdy t.p = true then some (t.p, t.run + 1)
  else ((List.range 8).map (fun i => (t.p + 1 + i) % 8)).find? rdy |>.map (fun j => (j, 1))

/-- The unit has run a turn of core `j`. -/
def noteTurn (tile j run : Nat) (s : State) : State := putTile { tileAt s tile with p := j, run := run } s

/-- The writes of a tile's matrix unit that wait are tried again. -/
def flushTile (tile : Nat) (s : State) : State := (List.range 8).foldl (fun s j => flushOut (tile * 8 + j) 1 s) s

/-- One turn of a tile's matrix unit; a turn that does not begin is none that the core receives.
DESIGN CHOICE, safe (log entry 8). -/
def execMatrixTurn (tile : Nat) (s : State) : Out :=
  if engineRuns s (tile * 8) = false then .next s
  else
    let s := flushTile tile s
    match turnChoice s tile with
    | none => .next s
    | some (j, run) =>
      let core := tile * 8 + j
      match mHead (coreAt s core) with
      | none => .next s
      | some cmd =>
        .next (startMatrix core cmd s (fun c u => match turnOf core c u with
          | .ok _ v => noteTurn tile j run v
          | .wait x => remedy (whoOf u c) x u
          | .fault _ => u))

end Sys2Proof.Machine
end

