-- ==== Sys2Proof/Machine/CopyDev.lean ====
section
/-!
DEFINITION. The copy engines at work (R183-R187, R295-R299) and the HBM calendar (R281-R284).
-/

namespace Sys2Proof.Machine

open Sys2Proof

/-! ### The command at work -/

/-- The oldest copy command of a core, if it has not ended. -/
def cHead (k : Core) : Option Cmd :=
  match k.cq with
  | [] => none
  | c :: _ => if c.finished then none else some c

/-- Replace it. -/
def putCopy (core : Nat) (x : Cmd) (s : State) : State :=
  let k := coreAt s core
  putCore { k with cq := x :: k.cq.drop 1 } s

/-- Calendar accesses of a core are gone. -/
def dropCal (core : Nat) (s : State) : State :=
  { s with homes := { s.homes with calReqs := s.homes.calReqs.filter (fun r => r.core != core) } }

/-- The engine abandons the command. -/
def abandonCopy (core : Nat) (cmd : Cmd) (f : Fail) (opnd : Nat) (s : State) : State :=
  storeFault cmd f opnd
    (putCopy core { cmd with started := true, finished := true, posted := false, dropped := false } (clearGot core 2 (dropCal core s)))

/-! ### Shapes -/

/-- Rows of CPY2D. -/
def rows2d (cmd : Cmd) : Nat := fieldOf (cmd.desc.getD 0 0) 32 32
def rbytes2d (cmd : Cmd) : Nat := fieldOf (cmd.desc.getD 0 0) 0 32
def sstride2d (cmd : Cmd) : Nat := fieldOf (cmd.desc.getD 1 0) 32 32
def dstride2d (cmd : Cmd) : Nat := fieldOf (cmd.desc.getD 1 0) 0 32

/-- The size of an operand of CPY2D with a stride. -/
def span2d (cmd : Cmd) (stride : Nat) : Nat :=
  if rows2d cmd = 0 ∨ rbytes2d cmd = 0 then 0 else (rows2d cmd - 1) * stride + rbytes2d cmd

/-- Bytes a command moves, but for lists. -/
def totalOf (cmd : Cmd) : Nat := if cmd.kind = .cpy2d then rows2d cmd * rbytes2d cmd else cmd.gd.toNat

/-- Slots of a CPYCH latched when its wait ends: head, slots, slot bytes, depth, base pointer. -/
def chHead (cmd : Cmd) : Nat := (cmd.desc.getD 0 0).toNat
def chCount (cmd : Cmd) : Nat := (cmd.desc.getD 1 0).toNat
def chBytes (cmd : Cmd) : Nat := (cmd.desc.getD 2 0).toNat
def chDepth (cmd : Cmd) : Nat := (cmd.desc.getD 3 0).toNat
def chBase (cmd : Cmd) : Word64 := cmd.desc.getD 4 0

/-- Length of a row, and the displacements of row `r` at the source and at the destination: the whole command, a
row of CPY2D, or a slot of CPYCH. -/
def rowLen (cmd : Cmd) : Nat :=
  match cmd.kind with
  | .cpy2d => rbytes2d cmd
  | .cpych => chBytes cmd
  | _ => totalOf cmd
def srcDisp (cmd : Cmd) (r : Nat) : Nat :=
  match cmd.kind with
  | .cpy2d => r * sstride2d cmd
  | .cpych => r * chBytes cmd
  | _ => 0
def dstDisp (cmd : Cmd) (r : Nat) : Nat :=
  match cmd.kind with
  | .cpy2d => r * dstride2d cmd
  | .cpych => (chHead cmd + r) % chDepth cmd * chBytes cmd
  | _ => 0

/-! ### Checks (R173, R183-R187) -/

/-- Is a source legal for a destination's row: own LOCAL, or GLOBAL unless the destination is GLOBAL? -/
def copySrc (dstGlobal : Bool) (e : HandleEntry) : Bool := ownLocal e || (e.space == 1 && !dstGlobal)

/-- Check a destination, then a source, for `n` and `m` bytes.
DEDUCED, unsafe (log entry 20). -/
def copyChecks (s : State) (cmd : Cmd) (d : Word64) (n : Nat) (p : Word64) (m : Nat) : Checked :=
  let e := entryIn (ctxOf s cmd.ctx).handles (hv d)
  (namedOpnd 0 (engOperand s cmd d n .engDst copyDest true)).and
    (namedOpnd 1 (engOperand s cmd p m .engSrc (copySrc (e.space == 1)) true))

/-- The list of CPYG or CPYS. -/
def listPtr (cmd : Cmd) : Word64 := if cmd.kind = .cpyg then cmd.gb else cmd.ga

/-- The sum of the lengths of some entries, whatever they hold. -/
def listSum (s : State) (cl area off : Nat) : Nat → Nat
  | 0 => 0
  | n + 1 =>
    (match localKey s cl area (off + 8) with
      | some k => s.mem.l1.readN k 8
      | none => 0) + listSum s cl area (off + 16) n

/-- Where a QCW lies: its key. -/
def qcwSpot (s : State) (cmd : Cmd) : Except Cause (Nat × Nat × Nat) :=
  let c := ctxOf s cmd.ctx
  match engCheck s c cmd.ga 32 .engW ownLocal (ov cmd.ga % 32 == 0) with
  | .error t => .error t
  | .ok e => if e.r then .ok (clusterOf c.id, c.bind.area, e.base + ov cmd.ga) else .error .perm

/-- What a start check answers: go on with the command, fail, wait, or rest in a state. -/
inductive Start where
  | go (cmd : Cmd) (s : State)
  | bad (cause : Cause) (opnd : Nat) (cmd : Cmd) (s : State)
  | wait (x : Stall)
  | rest (s : State)

/-- A start from checks; a CPYCH holds its queue entry until its wait is over (R298). -/
def Start.of (cmd : Cmd) (s : State) (c : Checked) : Start :=
  match c with
  | .ok _ => .go { cmd with checked := true, started := cmd.kind != .cpych } s
  | .error e => .bad e.1 e.2 cmd s

/-- The start of CPYG and CPYS: count, list, and the operand that is no list. -/
def startList (cmd : Cmd) (s : State) : Start :=
  let n := cmd.gd.toNat
  if n = 0 ∨ 4096 < n then .bad .bounds 2 cmd s
  else
    match engOperand s cmd (listPtr cmd) (16 * n) .engR ownLocal (ov (listPtr cmd) % 8 == 0) with
    | .error c => .bad c 2 cmd s
    | .ok (.mem _ _) => .bad .space 2 cmd s
    | .ok (.l1 cl area off r) =>
      let go := fun (s : State) =>
        let sum := listSum s cl area off n
        let cmd := { cmd with sum := sum }
        if cmd.kind = .cpyg then
          Start.of cmd s (namedOpnd 0 (engOperand s cmd cmd.ga sum .engDst copyDest true))
        else Start.of cmd s (namedOpnd 1 (engOperand s cmd cmd.gb sum .engSrc ownOrGlobal true))
      match engRead (whoOf s cmd) (.l1 cl area off r) (16 * n) s with
      | .wait x => .wait x
      | .fault _ => go s
      | .ok _ t => go t

/-- The check of the slots of a CPYCH that starts at `head`. -/
def slotChecks (s : State) (cmd : Cmd) (base : Word64) (q : Qcw) (k : Nat) : Checked :=
  (List.range k).foldl (fun r i => r.and (
    match effAddr base (q.slotOff q.head i) 1 with
    | .error t => .error (t.cause, 0)
    | .ok p => namedOpnd 0 (engOperand s cmd p (8 * q.size) .engDst ownLocal true))) (.ok ())

/-- The QCW of a CPYCH: its fields, or a wait, or its failure. -/
def qcwOf (s : State) (cmd : Cmd) (k : Nat → Qcw → Word64 → Start) : Start :=
  match qcwSpot s cmd with
  | .error c => .bad c 0 cmd s
  | .ok (cl, area, off) =>
    match localKey s cl area off with
    | none => .wait (.page cl area (off / 65536))
    | some key =>
      if bankFree s key = false then .wait .idle
      else if l1Poisoned s key 32 then .bad .poison 0 cmd s
      else
        let q := qcwAt s.mem.l1 key
        k key q (rebased (switchTo cmd.ctx s) key q.base)

/-- The start of CPYCH. -/
def startChannel (cmd : Cmd) (s : State) : Start :=
  qcwOf s cmd fun _ q base =>
    let len := cmd.gd.toNat
    let b := 8 * q.size
    if q.ok = false ∨ q.eng = false ∨ len = 0 ∨ len % b ≠ 0 ∨ q.depth * b < len then .bad .chan 0 cmd s
    else
      Start.of { cmd with desc := [] } s
        ((slotChecks s cmd base q (len / b)).and (namedOpnd 1 (engOperand s cmd cmd.gb len .engSrc (copySrc false) true)))

/-- The checks when a copy starts. -/
def startChecks (cmd : Cmd) (s : State) : Start :=
  match cmd.kind with
  | .cpyg | .cpys => startList cmd s
  | .cpych => startChannel cmd s
  | .cpyf => .of cmd s (namedOpnd 0 (engOperand s cmd cmd.ga cmd.gd.toNat .engDst copyDest true))
  | .cpy2d => .of cmd s (copyChecks s cmd cmd.ga (span2d cmd (dstride2d cmd)) cmd.gb (span2d cmd (sstride2d cmd)))
  | _ => .of cmd s (copyChecks s cmd cmd.ga cmd.gd.toNat cmd.gb cmd.gd.toNat)

/-! ### Moving bytes -/

/-- A piece that a chunk moves: place of the source (none for the pattern), place of the destination, length, index
of its first byte. -/
structure Piece where
  src : Option Spot
  dst : Spot
  n : Nat
  index : Nat
  deriving DecidableEq, Repr

/-- The pieces of a row-shaped command from index `i` up to `hi`; `f` bounds their number. -/
def piecesOf (s : State) (cmd : Cmd) : Nat → Nat → Nat → List Piece
  | 0, _, _ => []
  | f + 1, i, hi =>
    if hi ≤ i then []
    else
      let r := i / rowLen cmd
      let o := i % rowLen cmd
      let n := min (rowLen cmd - o) (hi - i)
      let d := if cmd.kind = .cpych then chBase cmd else cmd.ga
      { src := if cmd.kind = .cpyf then none else some ((spotAt s cmd cmd.gb).plus (srcDisp cmd r + o))
        dst := (spotAt s cmd d).plus (dstDisp cmd r + o), n := n, index := i } :: piecesOf s cmd f (i + n) hi

/-- Bytes of the pattern of CPYF. -/
def patternBytes (v : Word64) (i n : Nat) : List Byte :=
  (List.range n).map (fun j => v.extractLsb' (8 * ((i + j) % 8)) 8)

/-- The bytes of a source: the pattern, L1, or GLOBAL through the cache. -/
def sourceBytes (w : Who) (cmd : Cmd) (p : Piece) (s : State) : Eng (List Byte) :=
  match p.src with
  | none => .ok (patternBytes cmd.gb p.index p.n) s
  | some x => engRead w x p.n s

/-- What moving bytes gives: a failure names its operand. -/
inductive Moved where
  | ok (s : State)
  | wait (x : Stall)
  | fault (f : Fail) (opnd : Nat)

/-- Move some bytes to a place: those that a read gives. -/
def moveTo (w : Who) (dst : Spot) (bytes : Eng (List Byte)) : Moved :=
  match bytes with
  | .wait x => .wait x
  | .fault c => .fault c 1
  | .ok bs t =>
    match engWrite w dst bs t with
    | .wait x => .wait x
    | .fault c => .fault c 0
    | .ok _ u => .ok u

/-- Move some pieces. -/
def movePieces (w : Who) (cmd : Cmd) : List Piece → State → Moved
  | [], s => .ok s
  | p :: ps, s =>
    match moveTo w p.dst (sourceBytes w cmd p s) with
    | .ok t => movePieces w cmd ps t
    | x => x

/-- Does a piece come from GLOBAL, and so, in a timed command, through the calendar? -/
def timedPiece (p : Piece) : Bool :=
  match p.src with
  | some (.mem _ _) => true
  | _ => false

/-! ### Lists (R186) -/

/-- Place and length of an entry of a list, when the engine reaches it. -/
def entryAt (s : State) (cmd : Cmd) (i : Nat) : Eng (Word64 × Nat) :=
  (engRead (whoOf s cmd) ((spotAt s cmd (listPtr cmd)).plus (16 * i)) 16 s).bind fun bs t =>
  .ok (nat64 (ofBytes (bs.take 8)), ofBytes (bs.drop 8)) t

/-- The check of an entry: a source of CPYG, a destination of CPYS. -/
def entryCheck (s : State) (cmd : Cmd) (p : Word64) (len : Nat) : Checked :=
  let hs := (ctxOf s cmd.ctx).handles
  if cmd.kind = .cpyg then
    namedOpnd 1 (engOperand s cmd p len .engSrc (copySrc ((entryIn hs (hv cmd.ga)).space == 1)) true)
  else
    (namedOpnd 0 (engOperand s cmd p len .engDst copyDest true)).and
      (if copySrc ((entryIn hs (hv p)).space == 1) (entryIn hs (hv cmd.gb)) then .ok () else .error (.space, 1))

/-- What the walk of a chunk through a list gives: the command's new place, its pieces, and what stops it or keeps it
waiting. -/
structure Walk where
  cmd : Cmd
  pieces : List Piece
  s : State
  stop : Option (Fail × Nat) := none
  wait : Option Stall := none

/-- Walk `budget` bytes of a list; `f` bounds the entries. -/
def walkList : Nat → Nat → Cmd → State → Walk
  | 0, _, cmd, s => { cmd := cmd, pieces := [], s := s }
  | f + 1, budget, cmd, s =>
    if cmd.gd.toNat ≤ cmd.ent ∨ budget = 0 then { cmd := cmd, pieces := [], s := s }
    else
      match entryAt s cmd cmd.ent with
      | .wait x => { cmd := cmd, pieces := [], s := s, wait := some x }
      | .fault c => { cmd := cmd, pieces := [], s := s, stop := some (c, 2) }
      | .ok (p, len) s =>
        match entryCheck s cmd p len with
        | .error e => { cmd := cmd, pieces := [], s := s, stop := some ({ cause := e.1 }, e.2) }
        | .ok _ =>
          let n := min budget (len - cmd.entOff)
          let here := (spotAt s cmd p).plus cmd.entOff
          let there := (spotAt s cmd (if cmd.kind = .cpyg then cmd.ga else cmd.gb)).plus cmd.pos
          let pc : Piece :=
            if cmd.kind = .cpyg then { src := some here, dst := there, n := n, index := cmd.pos }
            else { src := some there, dst := here, n := n, index := cmd.pos }
          let next :=
            if len ≤ cmd.entOff + n then { cmd with ent := cmd.ent + 1, entOff := 0, pos := cmd.pos + n }
            else { cmd with entOff := cmd.entOff + n, pos := cmd.pos + n }
          let r := walkList f (budget - n) next s
          { r with pieces := (if n = 0 then r.pieces else pc :: r.pieces) }

/-- The next chunk: its pieces and the command after it. -/
def nextChunk (s : State) (cmd : Cmd) : Walk :=
  match cmd.kind with
  | .cpyg | .cpys => walkList 8192 4096 { cmd with next := cmd.next + 1 } s
  | _ =>
    let hi := min (totalOf cmd) (cmd.pos + 4096)
    { cmd := { cmd with next := cmd.next + 1, pos := hi }, pieces := piecesOf s cmd 4096 cmd.pos hi, s := s }

/-- Has the command moved everything? -/
def allMoved (cmd : Cmd) : Bool :=
  match cmd.kind with
  | .cpyg | .cpys => decide (cmd.gd.toNat ≤ cmd.ent)
  | _ => decide (totalOf cmd ≤ cmd.pos)

/-! ### Timed reads and the calendar (R281-R284, R296) -/

/-- Cluster and copy port of a core: the port of its sector. -/
def copyPortOf (core : Nat) : Nat × Nat := (core / 1024, core % 1024 / 128)

/-- The owner byte of a calendar slot. -/
def calOwner (s : State) (pch slot : Nat) : BitVec 8 :=
  match s.homes.cal.find? (fun c => c.pch == pch && c.slot == slot) with
  | some c => c.owner
  | none => 0

/-- Is a slot owned by a copy port? -/
def ownedBy (b : BitVec 8) (cluster port : Nat) : Bool :=
  b.getLsbD 7 && (b.extractLsb' 3 4).toNat == cluster && (b.extractLsb' 0 3).toNat == port

/-- Has a port a slot in a pseudo-channel? -/
def hasSlot (s : State) (pch cluster port : Nat) : Bool :=
  s.homes.cal.any (fun c => c.pch == pch && ownedBy c.owner cluster port)

/-- One calendar access of up to 256 bytes within a 4 KiB page. -/
def calAccess (core : Nat) (w : Who) (va n : Nat) (dst : Spot) (s : State) : Eng CalReq :=
  match translate (clusterOf w.ctx) w.asid va s with
  | (none, _) => .fault { cause := .notres }
  | (some e, t) =>
    let key := homeKey s e va
    if pageAllows s e key true false = false then .fault { cause := .perm }
    else
      let cp := copyPortOf core
      .ok { cluster := cp.1, port := cp.2, pch := pchOf t key, at_ := rtm t, core := core, key := key, n := n, dst := dst
            rank := (ctxOf t w.ctx).bind.rank, va := va, asid := w.asid } t

/-- The accesses of a GLOBAL range in order, each with the place that its bytes go to. -/
def calSplit (core : Nat) (w : Who) : Nat → Nat → Nat → Spot → State → Eng (List CalReq)
  | 0, _, _, _, s => .ok [] s
  | f + 1, va, n, dst, s =>
    if n = 0 then .ok [] s
    else
      let k := min (min n 256) (4096 - va % 4096)
      (calAccess core w va k dst s).bind fun r t =>
      (calSplit core w f ((va + k) % 2 ^ 57) (n - k) (dst.plus k) t).bind fun rs u => .ok (r :: rs) u

/-- The accesses of the pieces of a chunk. -/
def calPieces (core : Nat) (w : Who) : List Piece → State → Eng (List CalReq)
  | [], s => .ok [] s
  | p :: ps, s =>
    match p.src with
    | some (.mem va _) =>
      (calSplit core w 4096 va p.n p.dst s).bind fun a t => (calPieces core w ps t).bind fun b u => .ok (a ++ b) u
    | _ => calPieces core w ps s

/-- Is an access served as best effort: its port has no slot in its pseudo-channel, or its line is not in HBM (R283)? -/
def bestEffort (s : State) (r : CalReq) : Bool :=
  !(decide (r.key < 2 ^ 60) && !atHostAgent s r.key && hasSlot s r.pch r.cluster r.port)

/-- Is the copy-engine port of an access's die dead, so that no home accepts its messages (R279)? -/
def portDead (s : State) (r : CalReq) : Bool := s.homes.dead.contains (17 + r.core / 4096)

/-- The home value of an access (R220), and whether it is poisoned. -/
def homeBytes (s : State) (r : CalReq) : List Byte := toBytes (homeReadN s r.key r.n) r.n
def homePoisoned (s : State) (r : CalReq) : Bool :=
  s.homes.poison.any (fun l => decide (l < r.key + r.n) && decide (r.key < l + 128))

/-- Its first poisoned line, as an undo log names it. -/
def poisonedLine (s : State) (r : CalReq) : LineRef :=
  let lo := r.key / 128 * 128
  let i := ((List.range 3).find? (fun i => s.homes.poison.contains (lo + 128 * i))).getD 0
  { isLocal := false, cluster := r.cluster, line := r.va / 128 * 128 + 128 * i, tag := r.asid }

/-- The bytes of an access: those that its slot gave once they have left the home, or, as best effort, those of the home
now, or the answer of a PCIe read (R380). -/
def accessBytes (w : Who) (r : CalReq) (s : State) : Eng (List Byte) :=
  match r.due with
  | some t => if decide (rtm s < t) then .wait .idle 
    else if r.poisoned then .fault { cause := .poison, line := some (poisonedLine s r) } else .ok r.data s
  | none =>
    if bestEffort s r = false || portDead s r then .wait .idle
    else if nonCoherent r.key then (useGot w r.key r.n s (.wait (.pcie r.key r.n))).bind fun v t => .ok (toBytes v r.n) t
    else if (homeReady s r.key false).isSome then .wait .idle
    else if homePoisoned s r then .fault { cause := .poison, line := some (poisonedLine s r) }
    else .ok (homeBytes s r) s

/-- The port of an access, with its pseudo-channel. -/
def calPort (r : CalReq) : Nat := r.pch * 128 + r.cluster * 8 + r.port

/-- Does an access go before another of its port: it came earlier, or in the same tick from a lower rank (R331)? -/
def goesFirst (a b : CalReq) : Bool := decide (a.at_ < b.at_) || (a.at_ == b.at_ && decide (a.rank < b.rank))

/-- The accesses that wait for slots of a pseudo-channel. -/
def calWaiting (s : State) (pch : Nat) : List CalReq :=
  s.homes.calReqs.filter (fun r => r.pch == pch && r.due.isNone && !r.used && !bestEffort s r && !portDead s r &&
    (homeReady s r.key false).isNone)

/-- The access of a port that its next slot takes: the first that came. -/
def firstOfPort (rs : List CalReq) (r : CalReq) : CalReq :=
  (rs.filter (fun x => calPort x == calPort r)).foldl (fun b x => if goesFirst x b then x else b)
    (((rs.find? (fun x => calPort x == calPort r))).getD r)

/-- The first slot of an access (R283): one that its port owns, that starts no earlier than the access came, and that no
earlier access of the port has taken. -/
def calSlot (s : State) (r : CalReq) : Option Nat :=
  let from_ := match s.homes.calUsed.find? (fun u => u.1 == calPort r) with
    | some u => max ((r.at_ + 3) / 4) (u.2 + 1)
    | none => (r.at_ + 3) / 4
  ((List.range 32).map (from_ + ·)).find? (fun n => ownedBy (calOwner s r.pch (n % 32)) r.cluster r.port)

/-- A slot of a pseudo-channel's calendar has started, and the tick in which it did is over, so that every access of that
tick has come (R331): its access reads the home value, and its data leaves 210 ticks after the start. -/
def execCalendarSlot (pch : Nat) (s : State) : Out :=
  let rs := calWaiting s pch
  let taken := rs.findSome? (fun r =>
    let x := firstOfPort rs r
    (calSlot s x).bind (fun n => if 4 * n < rtm s then some (x, n) else none))
  match taken with
  | none => .next s
  | some (x, n) =>
    let y := { x with data := homeBytes s x, poisoned := homePoisoned s x, due := some (4 * n + 210) }
    .next { s with homes := { s.homes with
      calReqs := setAt s.homes.calReqs (s.homes.calReqs.idxOf x) y
      calUsed := putBy (·.1) (calPort x, n) s.homes.calUsed } }

/-! ### Chunks (R295, R296) -/

/-- Does the command read GLOBAL by the calendar in this chunk? -/
def isTimed (cmd : Cmd) (ps : List Piece) : Bool := cmd.timed && ps.any timedPiece

/-- A chunk's pieces have been moved; what a list entry has stopped it with comes after the pieces before it. -/
def endChunk (core : Nat) (x : Cmd) (stop : Option (Fail × Nat)) (s : State) : State :=
  match stop with
  | some e => abandonCopy core x e.1 e.2 s
  | none => putCopy core { x with posted := false, finished := allMoved x && x.kind != .cpych } (clearGot core 2 (dropCal core s))

/-- The first access of a posted chunk whose bytes are there writes them; the chunk ends with its last. -/
def landAccess (core : Nat) (cmd : Cmd) (s : State) : State :=
  let w := whoOf s cmd
  let rs := s.homes.calReqs.filter (fun r => r.core == core && !r.used)
  let there := fun (r : CalReq) => match accessBytes w r s with
    | .wait _ => false
    | _ => true
  match (rs.find? there).or rs.head? with
  | none => endChunk core cmd none s
  | some r =>
    match moveTo w r.dst (accessBytes w r s) with
    | .wait x => remedy w x s
    | .fault c n => abandonCopy core cmd c n s
    | .ok t =>
      { t with homes := { t.homes with
          calReqs := setAt t.homes.calReqs (t.homes.calReqs.idxOf r) { r with used := true } } }

/-- A chunk of a started command.  A timed one posts its accesses to the calendar and moves what does not come by it. -/
def runChunk (core : Nat) (cmd : Cmd) (s : State) : State :=
  if cmd.posted then landAccess core cmd s
  else if outBusy s core 2 then s
  else if allMoved cmd then (if cmd.kind = .cpych then s else putCopy core { cmd with finished := true } s)
  else
    let c := nextChunk s cmd
    let w := whoOf s cmd
    match c.wait with
    | some x => remedy w x s
    | none =>
      let timed := isTimed cmd c.pieces
      match movePieces w cmd (if timed then c.pieces.filter (!timedPiece ·) else c.pieces) c.s with
      | .wait x => remedy w x s
      | .fault e n => abandonCopy core cmd e n s
      | .ok t =>
        if timed = false then endChunk core c.cmd c.stop t
        else
          match calPieces core w c.pieces t with
          | .wait x => remedy w x s
          | .fault e => abandonCopy core cmd e 1 s
          | .ok rs u =>
            putCopy core { c.cmd with posted := true } { u with homes := { u.homes with calReqs := u.homes.calReqs ++ rs } }

/-- A CPYCH waits at the QCW until it has its slots, and latches where they are. -/
def awaitSlots (core : Nat) (cmd : Cmd) (s : State) (k : Cmd → State → State) : State :=
  if cmd.kind ≠ .cpych ∨ cmd.desc ≠ [] then k cmd s
  else
    match qcwOf s cmd fun key q base =>
        let n := cmd.gd.toNat / (8 * q.size)
        if q.ok = false then .bad .chan 0 cmd s
        else if n ≤ q.free then
          .go { cmd with started := true, desc := [nat64 q.head, nat64 n, nat64 (8 * q.size), nat64 q.depth, base] }
            (takeBank key core 2 s)
        else
          .rest (parkOnBank { ctx := cmd.ctx, key := key, op := .cpych core n, ptr := cmd.ga }
            (putCopy core { cmd with parked := true } s)) with
    | .go x t => k x (putCopy core x t)
    | .bad c n _ t => abandonCopy core cmd { cause := c } n t
    | .wait x => remedy (whoOf s cmd) x s
    | .rest t => t

/-- The copy engine of a core starts its command or runs the next chunk of it; a command that has lost a write fails
(R297).
DESIGN CHOICE, safe (log entry 8). -/
def execCopyChunk (core : Nat) (s : State) : Out :=
  let s := if engineRuns s core then flushOut core 2 s else s
  match cHead (coreAt s core) with
  | none => .next s
  | some cmd =>
    if engineRuns s core = false ∨ cmd.parked = true ∨ tornDown s (ctxOf s cmd.ctx).bind.launch = true then .next s
    else if cmd.dropped then .next (abandonCopy core cmd { cause := .poison } 0 s)
    else if cmd.checked then .next (awaitSlots core cmd s (runChunk core))
    else if startBlocked s cmd || outBusy s core 2 then .next s
    else
      let s := drainAllOwn cmd.ctx s
      match startChecks cmd s with
      | .wait x => .next (remedy (whoOf s cmd) x s)
      | .rest t => .next t
      | .bad c n x t => .next (abandonCopy core x { cause := c } n t)
      | .go x t => .next (awaitSlots core x (putCopy core x t) (runChunk core))

/-- A CPYCH that has written its slots advances head by them, as one bank atomic with release; the QCW is checked
again (R187). -/
def execCpychAppend (core : Nat) (s : State) : Out :=
  let s := if engineRuns s core then flushOut core 2 s else s
  match cHead (coreAt s core) with
  | none => .next s
  | some cmd =>
    if engineRuns s core = false ∨ cmd.kind ≠ .cpych ∨ cmd.desc = [] ∨ allMoved cmd = false ∨ cmd.posted = true ∨
        outBusy s core 2 = true then .next s
    else
      match qcwOf s cmd fun key q _ =>
          if q.ok = false then .bad .chan 0 cmd s
          else
            let l := launchAt s (ctxOf s cmd.ctx).bind.launch
            let s := if q.imm then putLaunch { l with nonRollback := true } s else s
            .go { cmd with finished := true } (l1Write l.id key 4 (q.advance q.head (chCount cmd)) (takeBank key core 2 s)) with
      | .wait x => .next (remedy (whoOf s cmd) x s)
      | .rest t => .next t
      | .bad c n _ t => .next (abandonCopy core cmd { cause := c } n t)
      | .go x t => .next (putCopy core x t)

/-- The words of L1 that a copy engine reads next: those of its next chunk's sources and of its list. -/
def copyWants (s : State) (core : Nat) : List Nat :=
  match cHead (coreAt s core) with
  | none => []
  | some cmd =>
    if cmd.checked && !cmd.posted && !cmd.parked && !outBusy s core 2 then
      spotWords s (((nextChunk s cmd).pieces.filterMap (fun p => p.src.map (fun x => (x, p.n)))) ++
        (if cmd.kind = .cpyg ∨ cmd.kind = .cpys then [((spotAt s cmd (listPtr cmd)).plus (16 * cmd.ent), 16)] else []))
    else []

end Sys2Proof.Machine
end

