-- ==== Sys2Proof/Machine/Arbiter.lean ====
section
/-!
DEFINITION. The cycle of a bank (R239, R241, R247-R254, R262, R291, R292): what its ports present, the choice among them,
what is served, and reserved cycles.
-/

namespace Sys2Proof.Machine

open Sys2Proof

/-! ### Requests -/

/-- A request as it is presented at a bank: the step at which it came, its port, its number and its kind.  3: the
instruction of a context, the number the context.  0, 2: a read of the matrix unit, of the copy engine; 1: a buffered
store; 4: a count on its way to a knot; 5: a write of an engine; the number their core x 2^32 and the key of the word.
DESIGN CHOICE, safe (log entry 87). -/
abbrev Presented := Nat × Nat × Nat × Nat

/-- A request and what it is. -/
structure Request where
  r : Presented
  core : Nat
  /-- 0 core, 1 matrix unit, 2 copy engine (R291) -/
  unit : Nat
  acc : Access
  deriving DecidableEq, Repr

def Request.stamp (q : Request) : Nat := q.r.1
def Request.port (q : Request) : Nat := q.r.2.1
def Request.num (q : Request) : Nat := q.r.2.2.1
def Request.kind (q : Request) : Nat := q.r.2.2.2

/-- The word that a context presents as its instruction, and the access. -/
def presents (s : State) (id : Nat) : Option (Word32 × Access) :=
  if (ctxOf s id).run = .running then
    (let t := switchTo id s
     match fetch t with
     | .word w => if hasBlock t t.cur then (wordAccess w t).map (fun x => (w, x)) else none
     | _ => none)
  else none

/-- The buffered store of a core to a word that may be performed: its index. -/
def storeFor (s : State) (core key : Nat) : Option Nat :=
  (List.range (coreAt s core).sbuf.length).find? (fun i => drainable s core i && (match (coreAt s core).sbuf[i]? with
    | some x => (storeKey s x).map (· / 8) == some (key / 8)
    | none => false))

/-- The write that an engine of a core has handed over to a word and that waits for nothing else. -/
def outFor (s : State) (core key : Nat) : Option EngWrite :=
  (coreAt s core).out.find? (fun x => (outKey s x).map (· / 8) == some (key / 8) && !outStuck s x)

/-- The first count of a core on its way to a knot: its index. -/
def countFor (s : State) (core key : Nat) : Option (Nat × Nat) :=
  (enumerate 0 s.disp.flight).findSome? (fun (x : Nat × Flight) => match x.2 with
    | .count k unit area _ off _ =>
      if k == core && localKey s (core / 1024) area off == some key then some (x.1, unit) else none
    | _ => none)

/-- What a presented request is, if it still stands. -/
def requestOf (s : State) (bank : Nat) (r : Presented) : Option Request :=
  let core := r.2.2.1 / 2 ^ 32
  let key := r.2.2.1 % 2 ^ 32
  let one : Access := ⟨[key], .one false⟩
  let got := fun (u : Nat) => (coreAt s core).got.any (fun g => g.unit == u && g.key == key && g.n == 8)
  let q : Option Request := match r.2.2.2 with
    | 0 => if (matrixWants s core).contains key && !got 1 then some ⟨r, core, 1, ⟨[key], .one true⟩⟩ else none
    | 1 => (storeFor s core key).bind (fun i => ((coreAt s core).sbuf[i]?).map (fun x =>
        ⟨r, core, 0, if x.size = 16 then ⟨[key], .pair false⟩ else one⟩))
    | 2 => if (copyWants s core).contains key && !got 2 then some ⟨r, core, 2, ⟨[key], .one true⟩⟩ else none
    | 4 => (countFor s core key).map (fun x => ⟨r, core, x.2, one⟩)
    | 5 => (outFor s core key).map (fun x => ⟨r, core, x.unit, one⟩)
    | _ => (presents s r.2.2.1).map (fun wx => ⟨r, coreOf r.2.2.1, 0, wx.2⟩)
  q.bind (fun q => if q.acc.bank s == bank && portAt bank q.core == q.port then some q else none)

/-- Is the odd bank of a pair free of reserved cycles (R251)?  A request is eligible only then. -/
def eligible (s : State) (q : Request) : Bool :=
  match q.acc.reach with
  | .pair _ => !owedAt s (bankOf s (q.acc.keys.headD 0 / 16 * 16 + 8))
  | _ => true

/-- May a context present its next instruction: it is ready and its core chooses it?  Every other request may come at any
time. -/
def mayPresent (s : State) (r : Nat × Nat × Nat) : Bool :=
  r.2.2 != 3 || (ready s (ctxOf s r.2.1) && chooseIn s (coreAt s (coreOf r.2.1)) == some r.2.1)

/-- A context's instruction is presented: that is its issue (R314). -/
def noteShownWord (id : Nat) (s : State) : State :=
  match presents s id with
  | some wx => noteIssue wx.1 (switchTo id s)
  | none => s

/-- Present some requests at a bank: those that stand and are not there yet. -/
def present (bank : Nat) : List (Nat × Nat × Nat) → State → State
  | [], s => s
  | r :: rs, s =>
    let q : Presented := (s.steps, r)
    let there := (bankAt s bank).pending.any (fun x => x.2 == r)
    if !there && mayPresent s r && (requestOf s bank q).isSome then
      (let t := if r.2.2 = 3 then noteShownWord r.2.1 s else s
       let b := bankAt t bank
       present bank rs (putBank { b with pending := b.pending ++ [q] } t))
    else present bank rs s

/-- Requests that no longer stand have left. -/
def prune (bank : Nat) (s : State) : State :=
  let b := bankAt s bank
  putBank { b with pending := b.pending.filter (fun r => (requestOf s bank r).isSome) } s

/-! ### The choice (R241, R248, R291) -/

/-- The first of some requests with the least rank. -/
def leastBy (rank : Request → Nat) (rs : List Request) : Option Request :=
  rs.foldl (fun b r => match b with
    | none => some r
    | some x => if rank r < rank x then some r else some x) none

/-- Whose turn it is at a port shared by a core and its engines (R291). -/
def portTurn (b : Bank) (port : Nat) : Nat := (getBy (·.1) port (port, 0) b.turns).2

/-- The request of some that stands at the front of a port: at a port of the tile, core, matrix unit and copy engine take
turns; the sector switch gives port 8 the requests in the order in which they came, and those of one step by a rotation
over their sources (R241). -/
def portHead (b : Bank) (bank port : Nat) (qs : List Request) : Option Request :=
  let here := qs.filter (fun q => q.port == port)
  if port < 8 then leastBy (fun q => (q.unit + 3 - portTurn b port) % 3) here
  else
    match here with
    | [] => none
    | q :: _ =>
      let first := here.foldl (fun n x => min n x.stamp) q.stamp
      leastBy (fun x => (sourceAt bank x.core + 16 - b.src) % 16) (here.filter (fun x => x.stamp == first))

/-- The one request that each port presents to the bank. -/
def portHeads (s : State) (bank : Nat) : List Request :=
  let b := bankAt s bank
  let qs := (b.pending.filterMap (requestOf s bank)).filter (eligible s)
  (List.range 9).filterMap (fun p => portHead b bank p qs)

/-- The head that the bank serves: the port with the least (p - P) mod 9. -/
def arbitrate (s : State) (bank : Nat) (heads : List Request) : Option Request :=
  leastBy (fun q => (q.port + 9 - (bankAt s bank).ptr) % 9) heads

/-- Does a request merge with other plain reads of its first word? -/
def Request.merges (q : Request) : Bool :=
  match q.acc.reach with
  | .one p => p
  | .pair p => p
  | .burst load => load

/-- The word of a request. -/
def Request.word (q : Request) : Nat := q.acc.keys.headD 0 / 8 * 8

/-- What is served with a head: every presented plain read of its word, if it is one (R248); a read of a matrix unit that
a switch has received carries those of other units that it received with it (R292). -/
def servedWith (s : State) (bank : Nat) (heads : List Request) (r : Request) : List Request :=
  if r.merges = false then [r]
  else
    let with_ := heads.filter (fun q => q.merges && q.word == r.word)
    let carried := fun (h : Request) => h.port == 8 && h.kind == 0
    let more := ((bankAt s bank).pending.filterMap (requestOf s bank)).filter (fun q =>
      carried q && with_.any (fun h => carried h && h.word == q.word && h.stamp == q.stamp) && !with_.contains q)
    with_ ++ more

/-! ### Serving -/

/-- The instruction of a context, served at its bank. -/
def serveInstr (id : Nat) (s : State) : State :=
  match presents s id with
  | none => s
  | some wx =>
    let t := switchTo id s
    match memberAt (myModule t).rev wx.1 with
    | .error _ => s
    | .ok m =>
      match runLocal m wx.1 t with
      | some (.next u) => afterIssue false wx.1 t u
      | _ => s

/-- An engine reads a word ahead. -/
def latch (core unit key : Nat) (s : State) : State :=
  let k := coreAt s core
  let bad := l1Poisoned s key 8
  putCore { k with got := k.got ++ [{ unit := unit, key := key, n := 8, value := s.mem.l1.readN key 8, bad := bad }] } s

/-- A count is applied to its knot (R190, R252, R300). -/
def applyCount (index : Nat) (s : State) : State :=
  match s.disp.flight[index]? with
  | some (.count core unit area launch off v) =>
    match localKey s (core / 1024) area off with
    | some key => knotUpdate launch key v (takeBank key core unit (dropFlight index s))
    | none => s
  | _ => s

/-- Perform a served request. -/
def serveOne (q : Request) (s : State) : State :=
  let key := q.num % 2 ^ 32
  match q.kind with
  | 0 => latch q.core 1 key s
  | 1 => match storeFor s q.core key with
    | some i => drainEntry q.core i s
    | none => s
  | 2 => latch q.core 2 key s
  | 4 => match countFor s q.core key with
    | some x => applyCount x.1 s
    | none => s
  | 5 => match outFor s q.core key with
    | some x =>
      let k := coreAt s q.core
      performOut x (putCore { k with out := dropFirst x k.out } s)
    | none => s
  | _ => serveInstr q.num s

/-- Perform some served requests. -/
def serveEach : List Request → State → State
  | [], s => s
  | q :: qs, s => serveEach qs (serveOne q s)

/-- The members of the joint burst that take word `i`, with their registers (R262). -/
def takers (s : State) (i : Nat) (qs : List Request) : List (Nat × BitVec 5) :=
  qs.filterMap (fun q => if q.kind == 3 && decide (i < q.acc.keys.length) then
    (presents s q.num).map (fun wx => (q.num, dOf wx.1 + BitVec.ofNat 5 i)) else none)

/-- Each LDB served has its later words to come. -/
def beginBursts (pre : State) : List Request → State → State
  | [], s => s
  | q :: qs, s => beginBursts pre qs (match presents pre q.num with
    | some wx => burstOf wx.1 wx.2 (switchTo q.num pre) s
    | none => s)

/-- Reserve the cycles of the served requests: merged LDBs reserve as one burst, and each word goes to every member whose
count reaches it; a pair reserves its odd half. -/
def reserveServed (pre : State) (now : Nat) (qs : List Request) (s : State) : State :=
  let loads := qs.filter (fun q => q.acc.reach == .burst true)
  let longest := loads.foldl (fun (ks : List Nat) q => if ks.length < q.acc.keys.length then q.acc.keys else ks) []
  let s := reserveWords (fun i => .word (takers pre i loads)) now 1 longest.tail (beginBursts pre loads s)
  (qs.filter (fun q => q.kind == 3)).foldl (fun s q => reserveOdd q.acc now s) s

/-- The unit that was served at a port has its turn last there (R291). -/
def turnPast (bank : Nat) (q : Request) (s : State) : State :=
  let b := bankAt s bank
  putBank { b with turns := putBy (·.1) (q.port, (q.unit + 1) % 3) b.turns } s

/-- Serve a head, and what is served with it; the pointers move past the head. -/
def serve (bank : Nat) (heads : List Request) (r : Request) (s : State) : State :=
  let with_ := servedWith s bank heads r
  let v := nat64 (s.mem.l1.readN r.word 8)
  let b := bankAt s bank
  let t := putBank { b with
    pending := b.pending.filter (fun x => !with_.any (fun q => q.r == x))
    served := if r.merges then with_.map (fun q => (q.port, v)) else [] } s
  let u := reserveServed s (bankCyc s bank) with_ (serveEach with_ t)
  servedAt bank r.port (sourceAt bank r.core) (with_.foldl (fun s q => turnPast bank q s) u)

/-! ### Reserved cycles (R248, R250, R262) -/

/-- A word of its burst has come to a context: it goes on when none is left. -/
def burstWord (key : Nat) (c : Ctx) : Ctx :=
  { c with burst := c.burst.bind (fun b => let due := dropFirst key b.due; if due = [] then none else some { b with due := due }) }

/-- A continuation word is delivered to the members that wait for it; a poisoned one fails their LDBs, as if none of their
words had come (R353). -/
def deliver1 (key : Nat) : List (Nat × BitVec 5) → State → State
  | [], s => s
  | t :: ts, s =>
    let c := ctxOf s t.1
    deliver1 key ts (match c.burst with
      | none => s
      | some b =>
        if b.due.contains key = false then s
        else if l1Poisoned s key 8 then
          raiseAt b.pc .poison b.ptr (switchTo t.1 (putCtx { c with a := { c.a with g := b.g } } s))
        else
          let x := burstWord key c
          putCtx { x with a := { x.a with g := setReg x.a.g t.2 (nat64 (s.mem.l1.readN key 8)) } } s)

/-- Serve the reserved cycle that is due first; `err` is the check of its word. -/
def serveReserved (bank err : Nat) (s : State) : State :=
  let b := bankAt s bank
  match b.reserved.find? (fun r => decide (r.due ≤ bankCyc s bank)) with
  | none => s
  | some r =>
    let s := checkWord err r.key (putBank { b with reserved := dropFirst r b.reserved } s)
    match r.hold with
    | .busy => s
    | .word ts => deliver1 r.key ts s
    | .store ctx v =>
      let c := ctxOf s ctx
      l1Write c.bind.launch r.key 8 v.toNat (putCtx (burstWord r.key c) s)

/-- One cycle of a bank: a reserved cycle serves what reserved it, or a retry, and leaves P; else the bank serves one of
the requests presented.  `err` is the check of the word accessed (R247). -/
def bankCycle (bank err : Nat) (s : State) : State :=
  let b := bankAt s bank
  if heldNow s bank then serveReserved bank err s
  else if b.retry ≠ [] ∨ b.once ≠ [] then retryPass bank err s
  else
    let heads := portHeads s bank
    match arbitrate s bank heads with
    | none => s
    | some r => serve bank heads r (checkWord err r.word s)

/-- A cycle of a bank in which some requests are presented; those that are not served stay.  A bank has none while its die
relocks (R399). -/
def execBankAccess (bank : Nat) (new : List (Nat × Nat × Nat)) (err : Nat) (s : State) : Out :=
  if stopped s (bank / 16384) then .next s else .next (bankCycle bank err (present bank new (prune bank s)))

/-- A store leaves a core's buffer: at once where its bank is free, and else it is presented there. -/
def execStoreBufferDrain (core index : Nat) (s : State) : Out :=
  match (coreAt s core).sbuf[index]? with
  | none => .next s
  | some x =>
    if drainable s core index = false then .next s
    else
      match storeKey s x with
      | none => .next (drainEntry core index s)
      | some k =>
        let acc : Access := ⟨[k], if x.size = 16 then .pair false else .one false⟩
        if acc.blocked s = none then .next (drainEntry core index s)
        else
          let bank := bankOf s k
          execBankAccess bank [(portAt bank core, core * 2 ^ 32 + k / 8 * 8, 1)] 0 s

/-- A count reaches the knot's bank and is one knot update: at once where the bank is free, and else it is presented
there.  A page without a frame is refilled first, so that the count is never lost. -/
def execKnotCountUpdate (index : Nat) (s : State) : Out :=
  match s.disp.flight[index]? with
  | some (.count core _ area _ off _) =>
    match localKey s (core / 1024) area off with
    | none => .next (refillPage (core / 1024) area (off / 65536) false s)
    | some key =>
      if bankFree s key && !stopped s (core / 4096) then .next (applyCount index s)
      else
        let bank := bankOf s key
        execBankAccess bank [(portAt bank core, core * 2 ^ 32 + key, 4)] 0 s
  | _ => .next s

end Sys2Proof.Machine
end

