-- ==== Sys2Proof/Machine/Crypto.lean ====
section
/-!
DEFINITION. The standards that R8 names for signatures: SHA-384 (FIPS 180-4) and the verification of an ECDSA
signature over P-384 (FIPS 186-4).  PRESUMED, unsafe (log entry 104): the constants and formulas are those of the
standards, which the spec names and does not print.
-/

namespace Sys2Proof.Machine

open Sys2Proof

/-! ### SHA-384 -/

/-- The largest number below `r + 2 ^ n` whose `e`-th power is at most `x`, if `r` is one such. -/
def rootFrom (e x : Nat) : Nat → Nat → Nat
  | 0, r => r
  | n + 1, r => rootFrom e x n (if (r + 2 ^ n) ^ e ≤ x then r + 2 ^ n else r)

/-- The first 64 bits of the fraction of the `e`-th root of a number below 512. -/
def rootBits (e p : Nat) : Word64 := BitVec.ofNat 64 (rootFrom e (p * 2 ^ (64 * e)) 70 0)

/-- The 80 primes up to 409. -/
def smallPrimes : List Nat :=
  (List.range 410).filter (fun p => decide (2 ≤ p) && (List.range 19).all (fun d => decide (d + 2 ≥ p) || p % (d + 2) != 0))

/-- What the rounds add: from the cube roots of the primes.  What the digest starts from: the square roots of the ninth to the
sixteenth. -/
def shaK : List Word64 := smallPrimes.map (rootBits 3)
def shaInit : List Word64 := ((smallPrimes.drop 8).take 8).map (rootBits 2)

/-- The word of big-endian bytes. -/
def bigWord (bs : List Byte) : Word64 := bs.foldl (fun w b => w <<< 8 ||| b.zeroExtend 64) 0

/-- The padded message: a one bit, zeros, and the length in bits as 16 bytes. -/
def shaPad (m : List Byte) : List Byte :=
  m ++ 0x80 :: List.replicate ((239 - m.length % 128) % 128) 0 ++
    ((List.range 16).map (fun i => BitVec.ofNat 8 (8 * m.length / 256 ^ (15 - i))))

/-- A word rotated right by each of some distances, added without carry. -/
def turns (rs : List Nat) (x : Word64) : Word64 := (rs.map x.rotateRight).foldl (· ^^^ ·) 0

/-- Lengthen a message schedule, kept newest first, by `n` words. -/
def shaSchedule : Nat → List Word64 → List Word64
  | 0, w => w
  | n + 1, w =>
    let near := w.getD 1 0
    let far := w.getD 14 0
    shaSchedule n (((turns [19, 61] near ^^^ near >>> 6) + (turns [1, 8] far ^^^ far >>> 7) + w.getD 6 0 + w.getD 15 0) :: w)

/-- One round on the working variables a to h, with its constant and schedule word. -/
def shaRound (v : List Word64) (kw : Word64 × Word64) : List Word64 :=
  match v with
  | [a, b, c, d, e, f, g, h] =>
    let pick := (e &&& f) ||| (~~~e &&& g)
    let most := (a &&& (b ||| c)) ||| (b &&& c)
    let add := kw.1 + kw.2 + h + turns [14, 18, 41] e + pick
    [add + turns [28, 34, 39] a + most, a, b, c, add + d, e, f, g]
  | _ => v

/-- A block of 128 bytes. -/
def shaBlock (h : List Word64) (block : List Byte) : List Word64 :=
  let first := (List.range 16).map (fun i => bigWord ((block.drop (8 * i)).take 8))
  let w := (shaSchedule 64 first.reverse).reverse
  (h.zip ((shaK.zip w).foldl shaRound h)).map (fun p => p.1 + p.2)

/-- The digest of a byte string (R83, R396), as the number that its 48 bytes, most significant first, write. -/
def sha384 (m : List Byte) : Nat :=
  let p := shaPad m
  let h := (List.range (p.length / 128)).foldl (fun h i => shaBlock h ((p.drop (128 * i)).take 128)) shaInit
  (h.take 6).foldl (fun n w => n * 2 ^ 64 + w.toNat) 0

/-! ### P-384 -/

/-- The prime of the field, the coefficient b, the order of the base point, and the base point. -/
def curveP : Nat := 2 ^ 384 - 2 ^ 128 - 2 ^ 96 + 2 ^ 32 - 1
def curveB : Nat :=
  0xb3312fa7e23ee7e4988e056be3f82d19181d9c6efe8141120314088f5013875ac656398d8a2ed19d2a85c8edd3ec2aef
def curveN : Nat :=
  0xffffffffffffffffffffffffffffffffffffffffffffffffc7634d81f4372ddf581a0db248b0a77aecec196accc52973
def curveG : Nat × Nat :=
  (0xaa87ca22be8b05378eb1c71ef320ad746e1d3b628ba79b9859f741e082542a385502f25dbf55296c3a545e3872760ab7,
   0x3617de4a96262c6f5d9e98bf9292dc29f8f41dbd289a147ce9da3113b5f0b8c00a60b1ce1d7e819d7a431d7c90ea0e5f)

/-- x to the power of the `n` bits of `e`, modulo m. -/
def powMod (m x e : Nat) : Nat → Nat
  | 0 => 1 % m
  | n + 1 =>
    let r := powMod m x (e / 2) n
    if e % 2 = 1 then r * r % m * x % m else r * r % m

/-- The inverse modulo a prime of 384 bits. -/
def invMod (m x : Nat) : Nat := powMod m x (m - 2) 384

/-- The third point of a chord or tangent of slope `k`, mirrored. -/
def curveChord (k : Nat) (a b : Nat × Nat) : Nat × Nat :=
  let x := (k * k + 2 * curveP - a.1 - b.1) % curveP
  (x, (k * (a.1 + curveP - x) + curveP - a.2) % curveP)

/-- The sum of two points; none is the point at infinity. -/
def curveAdd : Option (Nat × Nat) → Option (Nat × Nat) → Option (Nat × Nat)
  | none, b => b
  | a, none => a
  | some a, some b =>
    if a.1 ≠ b.1 then some (curveChord ((b.2 + curveP - a.2) * invMod curveP ((b.1 + curveP - a.1) % curveP) % curveP) a b)
    else if a.2 ≠ b.2 ∨ a.2 = 0 then none
    else some (curveChord ((3 * a.1 * a.1 + curveP - 3) * invMod curveP (2 * a.2 % curveP) % curveP) a b)

/-- A multiple of a point by the `n` bits of `k`. -/
def curveMul (k : Nat) (a : Option (Nat × Nat)) : Nat → Option (Nat × Nat)
  | 0 => none
  | n + 1 =>
    let h := curveMul (k / 2) a n
    let d := curveAdd h h
    if k % 2 = 1 then curveAdd d a else d

/-- Is a point on the curve y^2 = x^3 - 3x + b? -/
def onCurve (a : Nat × Nat) : Bool :=
  decide (a.1 < curveP) && decide (a.2 < curveP) &&
  (a.2 * a.2) % curveP == (a.1 * a.1 * a.1 + 3 * (curveP - a.1) + curveB) % curveP

/-- Does a signature of a digest verify (R83, R406)?  Key and signature are two numbers of 48 bytes, the first in the
higher half: the point's x and y, and r and s. -/
def ecdsaOk (key digest sig : Nat) : Bool :=
  let q := (key / 2 ^ 384, key % 2 ^ 384)
  let r := sig / 2 ^ 384
  let t := sig % 2 ^ 384
  let w := invMod curveN t
  onCurve q && r != 0 && decide (r < curveN) && t != 0 && decide (t < curveN) &&
  (match curveAdd (curveMul (digest * w % curveN) (some curveG) 384) (curveMul (r * w % curveN) (some q) 384) with
    | none => false
    | some x => x.1 % curveN == r)

end Sys2Proof.Machine
end

