-- ==== Sys2Proof/Machine/Graph.lean ====
section
/-!
DEFINITION. Graph analysis at module load (R309): form, balance, the sink-first schedule, depths and the
step, and what a launch needs of L1 (R255, R256).
-/

namespace Sys2Proof.Machine

open Sys2Proof

/-- An end that is EXT. -/
def extEnd : Nat := 0xFFFF

/-- The instance count of an end; EXT takes the other end's. -/
def endCount (as : List Actor) (a other : Nat) : Nat :=
  let n := fun (x : Nat) => match as[x]? with
    | some y => y.count
    | none => 1
  if a = extEnd then n other else n a

/-- Producer's and consumer's counts of an edge, and the number of its channels. -/
def edgeCounts (as : List Actor) (e : Chan) : Nat × Nat := (endCount as e.prod e.cons, endCount as e.cons e.prod)
def edgeWidth (as : List Actor) (e : Chan) : Nat := max (edgeCounts as e).1 (edgeCounts as e).2

/-- Does the edge join two actors of the module? -/
def isInner (e : Chan) : Bool := e.prod != extEnd && e.cons != extEnd

/-- Channel handles that an edge binds on one instance of an actor. -/
def bindsOf (as : List Actor) (a : Nat) (e : Chan) : Nat :=
  let per := if endCount as a a = 1 then edgeWidth as e else 1
  (if e.cons = a then per else 0) + (if e.prod = a then per else 0)

/-- The step actor without `.step`: the highest-index actor with no output to another actor. -/
def defaultStep (as : List Actor) (es : List Chan) : Option Nat :=
  ((List.range as.length).filter (fun a => !es.any (fun e => e.prod == a && e.cons != a && e.cons != extEnd))).getLast?

/-! ### Balance -/

/-- A positive fraction in lowest terms. -/
def reduced (n d : Nat) : Nat × Nat := (n / Nat.gcd n d, d / Nat.gcd n d)

/-- One pass over the edges: an end without a value takes it from the other end. -/
def relax (es : List Chan) (vs : List (Nat × Nat × Nat)) : List (Nat × Nat × Nat) :=
  es.foldl (fun vs e =>
    if isInner e = false then vs
    else
      match vs.find? (fun v => v.1 == e.prod), vs.find? (fun v => v.1 == e.cons) with
      | some p, none => vs ++ [(e.cons, reduced (p.2.1 * e.prate) (p.2.2 * e.crate))]
      | none, some c => vs ++ [(e.prod, reduced (c.2.1 * e.crate) (c.2.2 * e.prate))]
      | _, _ => vs) vs

/-- Repeat. -/
def relaxN (es : List Chan) : Nat → List (Nat × Nat × Nat) → List (Nat × Nat × Nat)
  | 0, vs => vs
  | n + 1, vs => relaxN es n (relax es vs)

/-- The least positive solution of the connected part of an actor. -/
def solvePart (as : List Actor) (es : List Chan) (a : Nat) : List (Nat × Nat) :=
  let vs := relaxN es as.length [(a, 1, 1)]
  let den := vs.foldl (fun l v => Nat.lcm l v.2.2) 1
  let ns := vs.map (fun v => (v.1, v.2.1 * (den / v.2.2)))
  let g := ns.foldl (fun g v => Nat.gcd g v.2) 0
  ns.map (fun v => (v.1, v.2 / g))

/-- The repetition vector, actor by actor. -/
def solveAll (as : List Actor) (es : List Chan) : List (Nat × Nat) :=
  (List.range as.length).foldl (fun q a =>
    if q.any (fun v => v.1 == a) then q else q ++ solvePart as es a) []

/-- q of an actor. -/
def repOf (q : List (Nat × Nat)) (a : Nat) : Nat := (getBy (·.1) a (a, 1) q).2

/-- Do the balance equations hold? -/
def balanced (es : List Chan) (q : List (Nat × Nat)) : Bool :=
  es.all (fun e => !isInner e || e.prate * repOf q e.prod == e.crate * repOf q e.cons)

/-! ### The sink-first schedule -/

/-- Firings left by actor, tokens and largest tokens by edge. -/
structure Sched where
  left : List Nat
  tok : List Nat
  top : List Nat

/-- May an actor fire: each non-EXT input holds its tokens? -/
def mayFire (es : List Chan) (x : Sched) (a : Nat) : Bool :=
  x.left.getD a 0 != 0 &&
  (es.zip x.tok).all (fun et => !(et.1.cons == a && et.1.prod != extEnd) || decide (et.1.crate ≤ et.2))

/-- Fire an actor. -/
def fireActor (es : List Chan) (a : Nat) (x : Sched) : Sched :=
  let tok := (es.zip x.tok).map (fun et =>
    let t := if et.1.cons = a ∧ et.1.prod ≠ extEnd then et.2 - et.1.crate else et.2
    if et.1.prod = a ∧ et.1.cons ≠ extEnd then t + et.1.prate else t)
  { left := setAt x.left a (x.left.getD a 0 - 1), tok := tok, top := (x.top.zip tok).map (fun p => max p.1 p.2) }

/-- Fire the highest-index actor that may, again and again. -/
def runSched (es : List Chan) (n : Nat) : Nat → Sched → Sched
  | 0, x => x
  | f + 1, x =>
    match ((List.range n).filter (mayFire es x)).getLast? with
    | none => x
    | some a => runSched es n f (fireActor es a x)

/-- The schedule of one period. -/
def period (as : List Actor) (es : List Chan) (q : List (Nat × Nat)) : Sched :=
  let r := (List.range as.length).map (repOf q)
  let t := es.map (·.tokens)
  runSched es as.length r.sum { left := r, tok := t, top := t }

/-- The depth of an edge's channels. -/
def depthOfEdge (q : List (Nat × Nat)) (e : Chan) (top : Nat) : Nat :=
  if e.prod = extEnd then 2 * e.crate * repOf q e.cons
  else if e.cons = extEnd then 2 * e.prate * repOf q e.prod
  else max 1 top

/-! ### L1 (R255) -/

/-- A(x), and pages of 64 KiB. -/
def alignUp (x : Nat) : Nat := (x + 127) / 128 * 128
def pagesFor (x : Nat) : Nat := (x + 65535) / 65536

/-- The part of a core block that does not depend on its contexts' stacks. -/
def coreShare (ring : Nat) : Nat := alignUp (32 + 80 * ring) + alignUp (32 + 5120)

/-- Chan(e). -/
def chanBytes (e : Chan) : Nat := alignUp (32 + e.depth * e.size * 8)

/-- S: the LOCAL objects of the handles. -/
def sharedBytes (hs : List HandleEntry) : Nat := ((hs.filter (fun h => h.space == 0)).map (fun h => alignUp h.length)).sum

/-- The connected set of an actor: the actors that edges join to it. -/
def connectedTo (as : List Actor) (es : List Chan) (a : Nat) : List Nat :=
  (relaxN es as.length [(a, 1, 1)]).map (·.1)

/-- The sets of actors that must share a cluster (R310): those of one cgroup, or, where every cgroup is 0 and the
instances exceed 4,096, the connected sets. -/
def clusterSets (as : List Actor) (es : List Chan) : List (List Nat) :=
  let all := List.range as.length
  let cg := fun (a : Nat) => (as[a]?).map (·.cgroup)
  if as.any (fun a => a.cgroup != 0) ∨ (as.map (·.count)).sum ≤ 4096 then
    (List.range 16).filterMap (fun g =>
      let xs := all.filter (fun a => cg a == some g)
      if xs = [] then none else some xs)
  else
    (all.filter (fun a => (connectedTo as es a).length ≠ 1)).map (connectedTo as es)

/-- What the channel groups hold for one instance of an actor: the channels that it consumes, and those that it produces
for EXT. -/
def chanShare (as : List Actor) (es : List Chan) (a : Nat) : Nat :=
  let per := fun (e : Chan) => if endCount as a a = 1 then edgeWidth as e else 1
  (es.map (fun e => if e.cons = a ∨ (e.cons = extEnd ∧ e.prod = a) then per e * chanBytes e else 0)).sum

/-- What a set needs of a cluster on every placement: contexts, accumulator slots, pages of its fullest tile, and shared
pages, on every tile or, where one sector may hold the set, on one (R255, R256, R293).
DEDUCED, unsafe (log entry 12). -/
def setFits (m : Module) (frames : Nat) (set : List Nat) : Bool :=
  let xs := set.filterMap (fun a => (m.actors[a]?).map (fun x => (a, x)))
  let n := (xs.map (fun x => x.2.count)).sum
  let chans := chanShare m.actors m.chans
  let knot := fun (a : Nat) => if m.graph.map (·.1) = some a then 128 else 0
  let block := fun (a : Actor) => alignUp a.stack + coreShare a.ring
  let share := xs.foldl (fun k x => min k (coreShare x.2.ring)) (coreShare 1020)
  let cores := (xs.map (fun x => alignUp x.2.stack * x.2.count)).sum + (n + 3) / 4 * share
  let queues := (xs.map (fun x => chans x.1 * x.2.count + knot x.1)).sum
  let total := pagesFor cores + pagesFor queues
  let tile := (xs.map (fun x => pagesFor (block x.2) + pagesFor (chans x.1 + knot x.1))).foldl max ((total + 127) / 128)
  let shared := pagesFor (sharedBytes m.handles)
  decide (n ≤ 4096) && decide ((xs.map (fun x => x.2.accslots * x.2.count)).sum ≤ 8192) &&
  decide ((xs.map (fun x => if 32 < x.2.accslots then x.2.count else 0)).sum ≤ 128) &&
  (decide (128 * tile + shared + frames ≤ 4096) ||
    (decide (n ≤ 512) && decide (128 * max tile (shared + 1) + frames ≤ 4096)))

/-- Can a module be placed in so many clusters, empty but for so many cache frames in each? -/
def moduleFits (m : Module) (clusters frames : Nat) : Bool :=
  let sets := clusterSets m.actors m.chans
  let rest := ((List.range m.actors.length).filter (fun a => !sets.any (·.contains a))).filterMap (fun a => m.actors[a]?)
  sets.all (setFits m frames) && decide ((m.actors.map (·.count)).sum ≤ 4096 * clusters) &&
  (m.actors.all (fun a => a.cgroup == 0) || decide (sets.length ≤ clusters)) &&
  rest.all (fun a => decide (pagesFor (alignUp a.stack + coreShare a.ring) * 128 + frames ≤ 4096))

/-! ### Analysis (R309) -/

/-- The status of the form checks: `step` is the declared step. -/
def graphForm (as : List Actor) (es : List Chan) (step : Option (Nat × Nat)) (q : List (Nat × Nat)) : Bool :=
  es.all (fun e => !isInner e ||
    (let c := edgeCounts as e
     (c.1 == c.2 || c.1 == 1 || c.2 == 1) && (as[e.prod]?).map (·.cgroup) == (as[e.cons]?).map (·.cgroup))) &&
  (List.range as.length).all (fun a => decide ((es.map (bindsOf as a)).sum ≤ 16)) &&
  es.all (fun e => e.prod != extEnd || decide (3 ≤ e.size)) &&
  (match step with
    | some (a, f) => f != 0 && (!balanced es q || f % repOf q a == 0)
    | none => (defaultStep as es).isSome)

/-- Analyse a module with a graph for a part of so many clusters: the lowest status, and the module with its depths, step
and repetition counts. -/
def analyse (m : Module) (clusters : Nat) (step : Option (Nat × Nat)) : Nat × Module :=
  let q := solveAll m.actors m.chans
  if graphForm m.actors m.chans step q = false then (5, m)
  else if balanced m.chans q = false ∨ q.any (fun v => decide (2 ^ 32 ≤ v.2)) = true then (6, m)
  else
    let p := period m.actors m.chans q
    if p.left.any (· != 0) then (7, m)
    else
      let es : List Chan := (m.chans.zip p.top).map (fun et => { et.1 with depth := depthOfEdge q et.1 et.2 })
      let st := match step with
        | some x => x
        | none =>
          let a := (defaultStep m.actors m.chans).getD 0
          (a, repOf q a)
      let m := { m with chans := es, graph := some st, q := (List.range m.actors.length).map (repOf q) }
      if es.any (fun e => decide (65535 < e.depth)) || !moduleFits m clusters 0 then (8, m) else (0, m)

end Sys2Proof.Machine
end

