-- ==== Sys2Proof/Machine/LoadDev.lean ====
section
/-!
DEFINITION. Modules and translations: the container (R77-R84), loading and unloading (R309, R349, R374),
and translation blocks (R315, R337-R345, R349-R351).
-/

namespace Sys2Proof.Machine

open Sys2Proof

/-! ### Reading a container -/

/-- An unsigned little-endian field of a file. -/
def fieldAt (f : List Byte) (off n : Nat) : Nat := ofBytes ((f.drop off).take n)

/-- Are all bytes of a range zero? -/
def zeroAt (f : List Byte) (off n : Nat) : Bool := ((f.drop off).take n).all (· == 0)

/-- A zero-padded ASCII name. -/
def nameOk : List Byte → Bool
  | [] => true
  | b :: bs => if b = 0 then bs.all (· == 0) else decide (b.toNat < 128) && nameOk bs

/-- A section-table entry (R78). -/
structure Sect where
  type : Nat
  hix : Nat
  align : Nat
  off : Nat
  size : Nat
  deriving DecidableEq, Repr

/-- Entry `i` of the section table. -/
def sectAt (f : List Byte) (i : Nat) : Sect :=
  let o := 64 + 24 * i
  { type := fieldAt f o 2, hix := fieldAt f (o + 2) 2, align := fieldAt f (o + 4) 4, off := fieldAt f (o + 8) 8
    size := fieldAt f (o + 16) 8 }

/-- The section table. -/
def sectsOf (f : List Byte) : List Sect := (List.range (fieldAt f 12 4)).map (sectAt f)

/-- The bytes of a section, and of the first section of a type. -/
def bodyOf (f : List Byte) (s : Sect) : List Byte := (f.drop s.off).take s.size
def bodyOfType (f : List Byte) (t : Nat) : List Byte :=
  match (sectsOf f).find? (fun s => s.type == t) with
  | some s => bodyOf f s
  | none => []

/-- Cut a body into records of `n` bytes. -/
def records (n : Nat) (bs : List Byte) : List (List Byte) := (List.range (bs.length / n)).map (fun i => (bs.drop (n * i)).take n)

/-- An actor record (R80), and its limits. -/
def actorOf (r : List Byte) : Actor :=
  { entry := fieldAt r 0 4, count := fieldAt r 4 4, stack := fieldAt r 8 4, splim := fieldAt r 12 2, cls := fieldAt r 14 1
    steal := fieldAt r 15 1, ring := fieldAt r 16 2, mweight := fieldAt r 18 1, accslots := fieldAt r 19 1
    cgroup := fieldAt r 20 1 }
/-- An actor record's limits (R80): its entry may be any PC, whose bits [1:0] the bind clears.
DEDUCED, unsafe (log entry 100). -/
def actorOk (r : List Byte) : Bool :=
  let a := actorOf r
  a.count != 0 && decide (a.count ≤ 65536) && a.stack % 16 == 0 && decide (a.cls ≤ 7) && decide (a.steal ≤ 2) &&
  decide (a.ring ≤ 1020) && a.mweight != 0 && decide (a.mweight ≤ 15) && decide (a.accslots ≤ 64) &&
  decide (a.cgroup ≤ 15) && zeroAt r 21 11

/-- A channel record (R81), and its limits. -/
def chanOf (r : List Byte) : Chan :=
  let fl := fieldAt r 12 1
  { prod := fieldAt r 0 2, cons := fieldAt r 2 2, pport := fieldAt r 4 1, cport := fieldAt r 5 1, fmt := fieldAt r 6 1
    size := fieldAt r 7 1, prate := fieldAt r 8 2, crate := fieldAt r 10 2, crel := fl.testBit 0, imm := fl.testBit 1
    eng := fl.testBit 2, tokens := fieldAt r 16 4 }
/-- A channel record's limits (R81): one of its ends is an actor's.
DESIGN CHOICE, unsafe (log entry 101). -/
def chanOk (rev actors : Nat) (r : List Byte) : Bool :=
  let c := chanOf r
  let known := fun (a : Nat) => a == extEnd || decide (a < actors)
  known c.prod && known c.cons && !(c.prod == extEnd && c.cons == extEnd) && decide (c.fmt ≤ 14) && c.size != 0 &&
  (c.prod == extEnd || c.prate != 0) && (c.cons == extEnd || c.crate != 0) && decide (fieldAt r 12 1 < 8) &&
  zeroAt r 13 3 && zeroAt r 20 4 && nameOk (r.drop 24) && (!c.eng || decide (3 ≤ rev))

/-- A handle record (R82) as the entry the leaf builds, without its base, and its limits. -/
def handleOf (r : List Byte) : HandleEntry :=
  let p := fieldAt r 10 1
  { length := fieldAt r 0 8, space := fieldAt r 8 1, policy := fieldAt r 9 1, r := p.testBit 0, w := p.testBit 1
    x := p.testBit 2, e := p.testBit 3, lease := (fieldAt r 11 1).testBit 0, valid := true }
def handleOk (r : List Byte) : Bool :=
  decide (fieldAt r 0 8 < 2 ^ 54) && decide (fieldAt r 8 1 ≤ 2) && decide (fieldAt r 9 1 ≤ 2) &&
  decide (fieldAt r 10 1 < 16) && decide (fieldAt r 11 1 < 2) && zeroAt r 12 4 && nameOk ((r.drop 16).take 8) && zeroAt r 24 8

/-- A residency or checkpoint range, and its limits against the handles. -/
def rangeOf (r : List Byte) : Nat × Nat × Nat := (fieldAt r 0 4, fieldAt r 8 8, fieldAt r 16 8)
/-- Limits of a residency or checkpoint range (R79): a range that reaches past its object fails the load with LAYOUT.
DESIGN CHOICE, unsafe (log entry 98). -/
def rangeOk (hs : List HandleEntry) (leased : Bool) (r : List Byte) : Bool :=
  let x := rangeOf r
  zeroAt r 4 4 && decide (4 ≤ x.1) &&
  (match hs[x.1 - 4]? with
    | some h => decide (x.2.1 + x.2.2 ≤ h.length) && (!leased || h.lease)
    | none => false)

/-- The header's limits (R77). -/
def headerOk (f : List Byte) : Bool :=
  let n := fieldAt f 12 4
  n != 0 && decide (n ≤ 64) && fieldAt f 16 8 == f.length && decide (fieldAt f 6 2 < 2) && decide (fieldAt f 24 1 < 128) &&
  decide (fieldAt f 25 1 < 8) && zeroAt f 26 2 && nameOk ((f.drop 32).take 8) && zeroAt f 40 24

/-- Types that occur at most once, and all types (R79). -/
def singleTypes : List Nat := [1, 2, 3, 4, 5, 7, 8, 9, 15]

/-- One section's limits (R78). -/
def sectOk (f : List Byte) (handles : Nat) (s : Sect) : Bool :=
  (singleTypes.contains s.type || s.type == 6) && decide (2 ≤ s.align) && decide (s.align ≤ 16) && s.off % 2 ^ s.align == 0 &&
  decide (s.off + s.size ≤ f.length) &&
  (if s.type = 6 then decide (4 ≤ s.hix) && decide (s.hix < 4 + handles) else s.hix == 0)

/-- Sections in increasing order, none overlapping what comes before.
DEDUCED, unsafe (log entry 97). -/
def sectsOrdered : Nat → List Sect → Bool
  | _, [] => true
  | lo, s :: ss => decide (lo ≤ s.off) && sectsOrdered (s.off + s.size) ss

/-- The layout of a container (R77-R82).
DESIGN CHOICE, unsafe (log entry 98). -/
def layoutOk (f : List Byte) : Bool :=
  let ss := sectsOf f
  let rev := fieldAt f 4 2
  let has := fun (t : Nat) => (ss.filter (fun s => s.type == t)).length
  let actors := bodyOfType f 2
  let hs := (records 32 (bodyOfType f 4)).map handleOf
  headerOk f && ss.all (sectOk f hs.length) && sectsOrdered (64 + 24 * ss.length) ss &&
  singleTypes.all (fun t => decide (has t ≤ 1)) && has 1 == 1 && has 2 == 1 &&
  (fieldAt f 6 2 == 1) == ((ss.getLast?).map (·.type) == some 15) && (has 15 == 0 || (ss.getLast?).map (·.type) == some 15) &&
  (bodyOfType f 1).length % 4 == 0 && decide ((bodyOfType f 1).length ≤ 2 ^ 32) &&
  actors.length % 32 == 0 && (records 32 actors).all actorOk &&
  (bodyOfType f 3).length % 32 == 0 && (records 32 (bodyOfType f 3)).all (chanOk rev (actors.length / 32)) &&
  (bodyOfType f 4).length % 32 == 0 && decide (hs.length ≤ 1020) && (records 32 (bodyOfType f 4)).all handleOk &&
  (bodyOfType f 5).length % 24 == 0 && (records 24 (bodyOfType f 5)).all (rangeOk hs true) &&
  (ss.filter (fun s => s.type == 6)).all (fun s => match hs[s.hix - 4]? with
    | some h => decide (s.size ≤ h.length)
    | none => false) &&
  (bodyOfType f 7).length % 24 == 0 && (records 24 (bodyOfType f 7)).all (rangeOk hs false) &&
  (bodyOfType f 8).length % 8 == 0 && decide ((bodyOfType f 8).length ≤ 512) &&
  (records 8 (bodyOfType f 8)).all (fun r => fieldAt r 0 4 != 0 && decide (fieldAt r 0 4 ≤ 4096) && zeroAt r 4 4) &&
  (has 9 == 0 || ((bodyOfType f 9).length == 16 && decide (fieldAt (bodyOfType f 9) 0 2 < actors.length / 32) &&
    zeroAt (bodyOfType f 9) 2 2 && zeroAt (bodyOfType f 9) 8 8)) &&
  (has 15 == 0 || ((bodyOfType f 15).length == 104 && decide (fieldAt (bodyOfType f 15) 0 4 ≤ 15) &&
    zeroAt (bodyOfType f 15) 4 4))

/-- The value of big-endian bytes. -/
def bigEndian (bs : List Byte) : Nat := ofBytes bs.reverse

/-- Does the signature verify (R83)? -/
def signatureOk (s : State) (f : List Byte) : Bool :=
  match (sectsOf f).find? (fun x => x.type == 15) with
  | none => false
  | some x =>
    let b := bodyOf f x
    x.off + x.size == f.length &&
    (match s.disp.keys.find? (fun k => k.1 == fieldAt b 0 4) with
      | none => false
      | some k => ecdsaOk k.2 (sha384 (f.take x.off)) (bigEndian (b.drop 8)))

/-- The load status of a container (R84). -/
def containerStatus (s : State) (f : List Byte) : Nat :=
  if fieldAt f 0 4 ≠ 0x4E594C4C ∨ fieldAt f 8 4 ≠ 64 then 1
  else if fieldAt f 4 2 = 0 ∨ 3 < fieldAt f 4 2 then 2
  else if layoutOk f = false then 3
  else if s.disp.checkSigs = true ∧ signatureOk s f = false then 4
  else 0

/-- The bases of the declared handles: firmware supplies those of GLOBAL and IO objects, multiples
of 128 (R224). -/
def withBases : List HandleEntry → List Nat → List HandleEntry
  | [], _ => []
  | h :: hs, bs => { h with base := if h.space = 0 then 0 else bs.headD 0 / 128 * 128 } :: withBases hs bs.tail

/-- The module in a container: `bases` are the virtual address of its code, then the bases of handles 4
upward. -/
def moduleOf (id asid codeAt : Nat) (bases : List Nat) (f : List Byte) : Module :=
  let hs := withBases ((records 32 (bodyOfType f 4)).map handleOf) bases.tail
  { id := id, asid := asid, rev := fieldAt f 4 2, afen := fieldAt f 24 1, tmr := fieldAt f 25 1, tvec := fieldAt f 28 4
    codeAt := codeAt, codeVa := bases.headD 0, codeSize := (bodyOfType f 1).length
    actors := (records 32 (bodyOfType f 2)).map actorOf
    chans := (records 32 (bodyOfType f 3)).map chanOf
    handles := hs
    resident := (records 24 (bodyOfType f 5)).map rangeOf
    ckpt := (records 24 (bodyOfType f 7)).map rangeOf
    barriers := (records 8 (bodyOfType f 8)).map (fun r => fieldAt r 0 4)
    data := ((sectsOf f).filter (fun s => s.type == 6)).map (fun s => (s.hix, bodyOf f s)) }

/-- The declared step: the GRAPH section.  A module with channels and no GRAPH section has a graph without `.step`
(log entry 13: DEDUCED, unsafe). -/
def declaredStep (f : List Byte) : Option (Nat × Nat) :=
  if bodyOfType f 9 = [] then none else some (fieldAt (bodyOfType f 9) 0 2, fieldAt (bodyOfType f 9) 4 4)
def hasGraph (f : List Byte) : Bool := bodyOfType f 9 != [] || bodyOfType f 3 != []

/-- Write bytes at the homes of a virtual range, page by page; `n` bounds the bytes. -/
def writeVirtual (asid : Nat) : Nat → Nat → List Byte → State → State
  | _, _, [], s => s
  | 0, _, _, s => s
  | n + 1, va, b :: bs, s =>
    let s := match walk s asid va with
      | some e => homeWriteN (homeKey s e va) 1 b.toNat s
      | none => s
    writeVirtual asid n (va + 1) bs s

/-- The initial contents of the GLOBAL objects (R374).
DESIGN CHOICE, unsafe (log entry 99). -/
def initGlobals (m : Module) : List (Nat × List Byte) → State → State
  | [], s => s
  | d :: ds, s =>
    match m.handles[d.1 - 4]? with
    | some h => initGlobals m ds (if h.space = 1 then writeVirtual m.asid h.length h.base
        (d.2 ++ List.replicate (h.length - d.2.length) 0) s else s)
    | none => initGlobals m ds s

/-- The GLOBAL objects without a DATA section are zero. -/
def undeclared (m : Module) : List (Nat × List Byte) :=
  ((List.range m.handles.length).map (· + 4)).filterMap (fun h => if m.data.any (fun d => d.1 == h) then none else some (h, []))

/-- Is a launch of the module dispatched? -/
def inUse (s : State) (id : Nat) : Bool := s.disp.launches.any (fun l => l.module == id && l.phase != 4)

/-- Firmware unloads a module; while a launch of it is dispatched the request waits (R349). -/
def execModuleUnload (id : Nat) (s : State) : Out :=
  if inUse s id then .next s
  else
    .next { s with
      disp := { s.disp with
        modules := s.disp.modules.filter (fun m => m.id != id), toLower := s.disp.toLower.filter (fun x => x.2 != id) }
      clusters := s.clusters.map (fun c => { c with
        lowered := c.lowered.filter (· != id), blocks := c.blocks.filter (fun b => b.module != id) }) }

/-! ### Lowering (R337, R338) -/

/-- Have the dies one native revision? -/
def sameRevision (s : State) : Bool := (List.range 4).all (fun d => (dieAt s d).nativeRev == (dieAt s 0).nativeRev)

/-- Is some launch of a module placed in a cluster? -/
def placedIn (s : State) (cluster id : Nat) : Bool :=
  (allCtx s ++ s.disp.savedCtx).any (fun c => c.run != .unbound && c.bind.module == id && clusterOf c.id == cluster)

/-- A cluster's lowering engine lowers a module: every block at a discovered entry is resident (R337, R338).  Where the dies
differ in revision, a module is lowered only where some launch of it is placed (R351). -/
def execModuleLowering (cluster id : Nat) (s : State) : Out :=
  match loaded s id with
  | none => .next s
  | some m =>
    if (sameRevision s || placedIn s cluster id) && !stopped s (cluster / 4) then
      .next (lowerAll cluster m (entriesOf s m)
        { s with disp := { s.disp with toLower := s.disp.toLower.filter (· != (cluster, id)) } })
    else .next s

/-! ### Misses (R342, R345) -/

/-- A running context without a block parks and asks its lowering engine. -/
def execTranslationMiss (ctx : Nat) (s : State) : Out :=
  let c := ctxOf s ctx
  if c.run = .running ∧ hasBlock s c = false then .next (missBlock (switchTo ctx s)) else .next s

/-- Wake the contexts that wait on a key. -/
def wakeMiss : List Nat → State → State
  | [], s => s
  | id :: ids, s =>
    let c := ctxOf s id
    wakeMiss ids (if c.run = .parked .translation then putCtx { c with run := .running } s else s)

/-- Load-time lowering comes first; then the engine turns to the oldest missed block, and then that block is lowered: every
context that waits on its key becomes ready.  While no line can be freed for it, it waits. -/
def execTranslationLowered (cluster : Nat) (s : State) : Out :=
  let cl := clusterAt s cluster
  match cl.misses with
  | [] => .next s
  | x :: _ =>
    if s.disp.toLower.any (fun y => y.1 == cluster) || stopped s (cluster / 4) then .next s
    else if cl.lowering ≠ some (x.1, x.2.1) then .next (putCluster { cl with lowering := some (x.1, x.2.1) } s)
    else
      let t := match loaded s x.1 with
        | some m => lowerBlock cluster m x.2.1 s
        | none => s
      if (blockAt t cluster x.1 x.2.1).isNone ∧ (loaded s x.1).isSome then .next s
      else
        let mine := fun (y : Nat × Nat × Nat) => y.1 == x.1 && y.2.1 == x.2.1
        let k := clusterAt t cluster
        .next (wakeMiss ((k.misses.filter mine).map (·.2.2))
          (putCluster { k with misses := k.misses.filter (fun y => !mine y), lowering := none } t))

/-- The lowering engine stops for a context's collector, at the end of its block, whose output it discards (R345). -/
def discardBlock (ctx : Nat) (s : State) : State :=
  let cl := clusterAt s (clusterOf ctx)
  if cl.misses.any (fun x => x.2.2 == ctx && cl.lowering == some (x.1, x.2.1)) then putCluster { cl with lowering := none } s else s

/-- Note the lowered modules of some clusters. -/
def noteAllLowered : List Nat → State → State
  | [], s => s
  | c :: cs, s => noteAllLowered cs (noteLowered c [] s)

/-- Do the words of a block intersect a range of a module? -/
def blockMeets (id lo hi module entry words : Nat) : Bool :=
  module == id && decide (entry < hi) && decide (lo < entry + 4 * words)

/-- A block that is being lowered when its words are invalidated is discarded, and the contexts that wait for it miss
again. -/
def missAgain (id lo hi : Nat) : List Nat → State → State
  | [], s => s
  | c :: cs, s =>
    let cl := clusterAt s c
    missAgain id lo hi cs (match cl.lowering with
      | none => s
      | some b =>
        if blockMeets id lo hi b.1 b.2 (blockWords s (moduleAt s b.1) 64 b.2) then
          (let mine := fun (y : Nat × Nat × Nat) => y.1 == b.1 && y.2.1 == b.2
           wakeMiss ((cl.misses.filter mine).map (·.2.2))
             (putCluster { cl with lowering := none, misses := cl.misses.filter (fun y => !mine y) } s))
        else s)

/-- Firmware invalidates the translations of a range in some clusters: every block whose words intersect it
goes.  A context inside such a block finishes it (inBlock). -/
def execTranslationInvalidate (clusters : List Nat) (id lo hi : Nat) (s : State) : Out :=
  .next (missAgain id lo hi clusters (noteAllLowered clusters { s with clusters := s.clusters.map (fun c =>
    if clusters.contains c.id then
      { c with blocks := c.blocks.filter (fun b => !blockMeets id lo hi b.module b.entry b.words) }
    else c) }))

/-! ### The fetch port (R315) -/

/-- The cores of a tile take the port in rotation; every pending request for the same module and address is served
by the same broadcast.  A request is a context, an address, and which half of its buffer it fills. -/
def execFetchRequest (tile : Nat) (s : State) : Out :=
  let t := tileAt s tile
  let mine := fun (j : Nat) (r : Nat × Nat × Bool) => coreOf r.1 % 8 == j
  match ((List.range 8).map (fun i => (t.fetchPtr + i) % 8)).find? (fun j => t.fetchReqs.any (mine j) && !stopped s (tile / 512)) with
  | none => .next s
  | some j =>
    match t.fetchReqs.find? (mine j) with
    | none => .next s
    | some r =>
      let same := fun (x : Nat × Nat × Bool) =>
        x.2.1 == r.2.1 && (ctxOf s x.1).bind.module == (ctxOf s r.1).bind.module
      let s := putTile { t with fetchPtr := (j + 1) % 8, fetchReqs := t.fetchReqs.filter (fun x => !same x) } s
      .next ((t.fetchReqs.filter same).foldl (fun s x =>
        let c := ctxOf s x.1
        putCtx (if x.2.2 then { c with half1 := true } else { c with half0 := true }) s) s)

end Sys2Proof.Machine
end

