-- ==== Sys2Proof/Machine/Life.lean ====
section
/-!
DEFINITION. What the leaf does to contexts and launches: stopping a context at a Llyn boundary (R221, R357),
starting a task (R24), rolling a step back (R367), and ending a launch (R329, R355).
-/

namespace Sys2Proof.Machine

open Sys2Proof

/-! ### Contexts of a launch -/

/-- The contexts of a launch that are on their cores, and those that are SAVED. -/
def ctxsOf (s : State) (launch : Nat) : List Ctx :=
  (allCtx s).filter (fun c => c.bind.launch == launch && c.run != .unbound)
def savedOf (s : State) (launch : Nat) : List Ctx := s.disp.savedCtx.filter (fun c => c.bind.launch == launch)

/-- Change every context of a launch, saved ones too. -/
def mapLaunch (launch : Nat) (f : Ctx → Ctx) (s : State) : State :=
  let g := fun (c : Ctx) => if c.bind.launch = launch ∧ c.run ≠ .unbound then f c else c
  { s with
    cur := g s.cur, others := s.others.map g
    disp := { s.disp with savedCtx := s.disp.savedCtx.map g } }

/-- Apply a function of the state for each context number. -/
def forEach (f : Nat → State → State) : List Nat → State → State
  | [], s => s
  | i :: is, s => forEach f is (f i s)

/-- The clusters of a launch. -/
def clustersOf (s : State) (launch : Nat) : List Nat :=
  ((ctxsOf s launch ++ savedOf s launch).map (fun c => clusterOf c.id)).eraseDups

/-! ### Stopping (R221, R357) -/

/-- Is a PCIe request one of an engine? -/
def HomeOp.ofEngine : HomeOp → Bool
  | .engine _ => true
  | _ => false

/-- May the context stop now (R87, R357): its results are written, its buffered stores can be performed, and no access of it is
at a bank, at a home, at a port or on its way?  One that is parked at its home is in a wait. -/
def canStopCore (s : State) (id : Nat) : Bool :=
  decide ((ctxOf s id).busyUntil ≤ cyc s id) && !inFlight s (ctxOf s id) && !ownStuck s id (fun _ => true) &&
  !s.homes.reqs.any (fun r => r.ctx == id && !r.watching) &&
  !s.host.pcie.any (fun r => r.2.ctx == id && !r.2.op.ofEngine) &&
  !s.disp.flight.any (fun f => match f with
    | .arrival _ _ x w => x == id && w
    | _ => false)

/-- Has an engine writes of a context under way? -/
def writesOut (s : State) (unit id : Nat) : Bool :=
  (coreAt s (coreOf id)).out.any (fun x => x.unit == unit && x.ctx == id)

/-- May its matrix unit stop: the writes of its turn are performed (R294)? -/
def canStopMatrix (s : State) (id : Nat) : Bool := !writesOut s 1 id

/-- May its copy engine stop: the chunk of its command is not half done, and its writes are performed (R299)? -/
def canStopCopy (s : State) (id : Nat) : Bool :=
  !writesOut s 2 id &&
  (match cHead (coreAt s (coreOf id)) with
    | some c => !(c.ctx == id && c.posted)
    | none => true)

/-- May the context and its engines stop? -/
def canStop (s : State) (id : Nat) : Bool := canStopCore s id && canStopMatrix s id && canStopCopy s id

/-- The context leaves every wait list, and its unperformed requests are withdrawn: the instruction runs again
whole. -/
def leaveWaits (id : Nat) (s : State) : State :=
  let s := leaveBanks id s
  assignWatches { s with
    homes := { s.homes with reqs := s.homes.reqs.filter (fun r => r.ctx != id) }
    host := { s.host with pcie := s.host.pcie.filter (fun r => r.2.ctx != id) }
    clusters := s.clusters.map (fun c => { c with misses := c.misses.filter (fun m => m.2.2 != id) }) }

/-- The context stops at a Llyn boundary: its buffered stores are performed, a service is completed (R203), and a
wait ends with the instruction to run again. -/
def stopCtx (id : Nat) (s : State) : State :=
  let s := drainAllOwn id s
  let s := match (ctxOf s id).run with
    | .parked (.svc code _) => finishSvc code (switchTo id s)
    | _ => s
  let c := ctxOf s id
  match c.run with
  | .parked _ => setGroup id (leaveWaits id s) true
  | .running => setGroup id s true
  | _ => s
where
  /-- Go back to the first word of a group in progress. -/
  setGroup (id : Nat) (s : State) (run : Bool) : State :=
    let c := ctxOf s id
    putCtx { dropHints c with
      run := if run then .running else c.run
      a := { c.a with pc := c.a.pc - nat64 (4 * c.a.immx.length), immx := [] } } s

/-! ### Starting a task (R24) -/

/-- State registers at the start of a task: the launch's defaults, and what is set at bind. -/
def startRegs (m : Module) (splim tmr : Nat) (join : Word64) (r : SRegs) : SRegs :=
  { afen := nat64 m.afen, tmr := nat64 tmr, tvec := nat64 m.tvec, splim := nat64 splim, joinp := join
    mpart := r.mpart, arq := r.arq, step := r.step, stepk := r.stepk }

/-- The stack pointer of a context. -/
def stackTop (c : Ctx) : Word64 := mkPtr 1 c.bind.stack

/-- Registers g0 to g31 of a task: g2 the stack, g3 to g10 given. -/
def taskRegs (c : Ctx) (args : List Word64) : Vector Word64 32 :=
  Vector.ofFn (fun i => if i.val = 2 then stackTop c else if 3 ≤ i.val ∧ i.val ≤ 10 then args.getD (i.val - 3) 0 else 0)

/-- The spawn limit of the context's actor. -/
def splimOf (m : Module) (c : Ctx) : Nat := match m.actors[c.bind.actor]? with
  | some a => a.splim
  | none => 16

/-- A task begins in an idle context from a traveller. -/
def startTask (m : Module) (t : Traveller) (c : Ctx) : Ctx :=
  { dropHints c with
    run := .running, task := c.task + 1, issued := true
    a := { c.a with
      g := taskRegs c ((t.drop 1).take 8), c := Vector.replicate 16 none, pc := nat64 ((travPc t).toNat / 4 * 4), immx := [], handler := false
      sr := startRegs m (splimOf m c) (travTmr t) (travJoin t) c.a.sr
      efault := none, eflags := [] } }

/-- A child of a launch has begun: its parent's count falls by one, if that task still runs (R195, R336). -/
def childBegan (launch : Nat) (p : Option (Nat × Nat)) (s : State) : State :=
  match p with
  | none => s
  | some (id, task) =>
    let f := fun (c : Ctx) =>
      if c.id = id ∧ c.task = task ∧ c.bind.launch = launch ∧ c.run ≠ .unbound then
        { c with a := { c.a with sr := { c.a.sr with spcnt := nat64 (c.a.sr.spcnt.toNat - 1) } } }
      else c
    { s with cur := f s.cur, others := s.others.map f, disp := { s.disp with savedCtx := s.disp.savedCtx.map f } }

/-! ### Engines of a context -/

/-- The commands of a context on its core: matrix, then copy. -/
def cmdsOf (s : State) (id : Nat) : List Cmd :=
  let k := coreAt s (coreOf id)
  (k.mq ++ k.cq).filter (fun c => c.ctx == id)

/-- Is it a matrix command? -/
def isMatrix (c : Cmd) : Bool :=
  match c.kind with
  | .cpy | .cpy2d | .cpyg | .cpys | .cpyf | .cpych => false
  | _ => true

/-- The slots of a context's partition and the shadow copies of its command in progress. -/
def partSlots (s : State) (c : Ctx) : List Slot :=
  let b := fieldOf c.a.sr.mpart 0 6
  let n := fieldOf c.a.sr.mpart 8 8
  (tileAt s (tileOf c.id)).slots.filter (fun x => decide (b ≤ x.id) && decide (x.id < b + n))
def partShadow (s : State) (c : Ctx) : List Slot :=
  ((tileAt s (tileOf c.id)).shadow.filter (fun x => x.1 == c.id)).map (·.2)

/-- What the engines of a context have asked for over PCIe is asked for no more. -/
def forgetPcie (id : Nat) (s : State) : State :=
  { s with host := { s.host with pcie := s.host.pcie.filter (fun r => !(r.2.ctx == id && r.2.op.ofEngine)) } }

/-- A core without the commands of a context: its engines let go of them, and of their writes under way. -/
def dropCmds (id : Nat) (s : State) : State :=
  let core := coreOf id
  let k := coreAt s core
  let s := match mHead k with
    | some h => if h.ctx = id then releaseUnit core id s else s
    | none => s
  let s := dropShadow id s
  let s := match cHead k with
    | some h => if h.ctx = id then clearGot core 2 (dropCal core s) else s
    | none => s
  let s := forgetPcie id (clearBanks (fun p => p.ctx == id && p.op.isCpych) s)
  let k := coreAt s core
  putCore { k with
    mq := k.mq.filter (fun c => c.ctx != id), cq := k.cq.filter (fun c => c.ctx != id)
    out := k.out.filter (fun x => x.ctx != id) } s

/-- Completions of a context that have not been presented are presented. -/
def presentAll (id : Nat) (s : State) : State :=
  let k := coreAt s (coreOf id)
  let out := (k.mq ++ k.cq).filter (fun c => c.ctx == id && c.finished)
  out.foldl (fun s c => presentCount c s) (putCore { k with
    mq := k.mq.filter (fun c => !(c.ctx == id && c.finished)), cq := k.cq.filter (fun c => !(c.ctx == id && c.finished)) } s)

/-- Put commands ahead of what is queued, behind what has ended and what the engine is running; one that had begun stays
begun, and what it had parked for is waited for again (R413).  What the matrix unit had fetched for a command that they go
ahead of is fetched again. -/
def restoreCmds (id : Nat) (cs : List Cmd) (s : State) : State :=
  let k := coreAt s (coreOf id)
  let ready := fun (c : Cmd) => { c with parked := false, posted := false, started := true }
  let m := (cs.filter isMatrix).map ready
  let y := (cs.filter (fun c => !isMatrix c)).map ready
  let behind := fun (q new : List Cmd) =>
    let ended := q.takeWhile (·.finished)
    match q.dropWhile (·.finished) with
    | [] => ended ++ new
    | h :: t => if h.started then ended ++ h :: new ++ t else ended ++ new ++ h :: t
  let runs := (mHead k).any (·.started)
  let s := if runs || m == [] then s else clearGot (coreOf id) 1 s
  let k := coreAt s (coreOf id)
  putCore { k with
    mq := behind k.mq m, cq := behind k.cq y
    opArea := if runs || m == [] then k.opArea else freshArea s } s

/-- The commands of a context leave an engine, kept with the context: its matrix unit or its copy engine has
stopped (R413). -/
def saveEngine (copy : Bool) (id : Nat) (s : State) : State :=
  let s := presentAll id s
  let c := ctxOf s id
  let mine := (cmdsOf s id).filter (fun x => isMatrix x != copy)
  let sh := if copy then [] else partShadow s c
  let s := putCtx { c with savedCmds := c.savedCmds ++ mine, savedShadow := c.savedShadow ++ sh } s
  let k := coreAt s (coreOf id)
  let s := match mHead k with
    | some h => if h.ctx = id ∧ copy = false then releaseUnit (coreOf id) id s else s
    | none => s
  let s := if copy then s else dropShadow id s
  let s := if copy then clearBanks (fun p => p.ctx == id && p.op.isCpych) s else s
  let k := coreAt s (coreOf id)
  putCore { k with mq := k.mq.filter (fun x => !mine.contains x), cq := k.cq.filter (fun x => !mine.contains x) } s

/-- The commands kept with a context go back to its engines. -/
def resumeEngines (id : Nat) (s : State) : State :=
  let c := ctxOf s id
  let s := restoreCmds id c.savedCmds (putCtx { c with savedCmds := [], savedShadow := [] } s)
  let t := tileAt s (tileOf id)
  putTile { t with shadow := t.shadow ++ c.savedShadow.map (fun x => (id, x)) } s

/-- Put slots of a partition and shadow copies back. -/
def restoreSlots (c : Ctx) (slots shadow : List Slot) (s : State) : State :=
  let b := fieldOf c.a.sr.mpart 0 6
  let n := fieldOf c.a.sr.mpart 8 8
  let t := tileAt s (tileOf c.id)
  let t := { t with slots := t.slots.filter (fun x => !(decide (b ≤ x.id) && decide (x.id < b + n))) }
  putTile { putSlots slots t with shadow := t.shadow ++ shadow.map (fun x => (c.id, x)) } s

/-! ### Deques, arrivals and flights of a launch -/

/-- Is a flight one of a launch's? -/
def flightOf (s : State) (launch : Nat) (f : Flight) : Bool :=
  match f with
  | .trav _ a => a.launch == launch
  | .wake _ l _ _ _ => l == launch
  | .arrival _ _ x _ => (ctxOf s x).bind.launch == launch || (savedOf s launch).any (fun c => c.id == x)
  | .count _ _ _ l _ _ => l == launch

/-- Clear the deques, arrival tiers and flights of a launch.
DEDUCED, unsafe (log entry 40). -/
def clearWork (launch : Nat) (s : State) : State :=
  let keep := fun (a : Arrival) => a.launch != launch
  let keepD := fun (d : DequeEntry) => d.launch != launch
  { s with
    cores := s.cores.map (fun k => { k with
      deque := k.deque.filter keepD, dequeRing := k.dequeRing.filter keepD
      arr := k.arr.filter keep, arrRing := k.arrRing.filter keep, arrOver := k.arrOver.filter keep })
    disp := { s.disp with flight := s.disp.flight.filter (fun f => !flightOf s launch f) } }

/-! ### Rollback (R367) -/

/-- An entry of a log meets an uncorrectable error of an HBM pseudo-channel. -/
def spoilLog (launch index source : Nat) (s : State) : Out :=
  let l := launchAt s launch
  match l.undo[index]? with
  | none => .next s
  | some u =>
    if 0x10100 ≤ source ∧ source < 0x10300 then .next (putLaunch { l with undo := setAt l.undo index { u with bad := some source } } s)
    else .next s

/-- Apply a LOCAL entry: bytes and full/empty bits of a line, in its frame or in the backing store. -/
def undoLocal (u : Undo) (s : State) : State :=
  match localKey s u.cluster u.tag u.line with
  | none =>
    let at_ := u.line % 65536
    let other := fun (k : Nat) => !(decide (at_ ≤ k) && decide (k < at_ + 128))
    mapBacked u.cluster u.tag u.line (fun b =>
      { b with
        bytes := b.bytes.writeN at_ 128 u.old.toNat
        empty := (List.range 16).foldl (fun es i => if u.fe.testBit i then es else insertKey (at_ + 8 * i) es) (b.empty.filter other)
        poison := b.poison.filter other }) s
  | some key =>
    let fe := (List.range 16).foldl (fun s i => setFull (key + 8 * i) (u.fe.testBit i) s) s
    { fe with mem := { fe.mem with
        l1 := fe.mem.l1.writeN key 128 u.old.toNat
        poison := fe.mem.poison.filter (fun k => !(decide (key ≤ k) && decide (k < key + 128))) } }

/-- Every cluster's copy of a GLOBAL line is discarded. -/
def discardLine (asid va : Nat) (s : State) : State :=
  forEach clearPresence (s.clusters.map (·.id))
    { s with clusters := s.clusters.map (fun c => { c with lines := c.lines.filter (fun l => !(l.asid == asid && l.va == va)) }) }

/-- Apply a GLOBAL entry at its home with a full mask; what an entry has lost is poison. -/
def undoGlobal (u : Undo) (s : State) : State :=
  let s := discardLine u.tag u.line s
  match walk s u.tag u.line with
  | some e =>
    if u.bad.isSome then poisonHome (homeKey s e u.line) s
    else homeMerge (homeKey s e u.line) (BitVec.allOnes 128) u.old s
  | none => s

/-- The error that an entry has met is counted, at a place of the log that the spec does not give (R372). -/
def undoError (u : Undo) (s : State) : State :=
  match u.bad with
  | none => s
  | some src => countError src true (freeVal s).toNat (useFree s)

/-- Apply the entries of a log, newest first. -/
def applyLog : List Undo → State → State
  | [], s => s
  | u :: us, s => applyLog us (undoError u (if u.isLocal then undoLocal u s else undoGlobal u s))

/-- A record that a device-side LAUNCH of the step submitted is completed with DROPPED (R366). -/
def dropHeld (launch : Nat) (s : State) : State :=
  let mine := fun (e : QEntry) => e.heldBy == some launch
  let out := (s.disp.queues.map (fun q => (q.store.filter mine ++ q.heldRec.filter mine).map (fun e => (q.id, e)))).flatten
  let s := { s with disp := { s.disp with queues := s.disp.queues.map (fun q =>
    { q with store := q.store.filter (fun e => !mine e), heldRec := q.heldRec.filter (fun e => !mine e) }) } }
  out.foldl (fun s qe => complete qe.1 qe.2.words (cwWord statusDropped 0 0 0) s) s

/-- A context goes back to its restart record; one that its stage has not released stays so.  The drains that it owes stay
owed: a hand-off may have come in a committed step (R219, R221). -/
def restartCtx (c : Ctx) : Ctx :=
  match c.restart with
  | none => c
  | some a => { dropHints c with
      burst := none
      a := a, run := if c.run = .stopped ∧ c.issued = false ∧ c.fcause = 0 then .stopped else c.restartRun
      fcause := 0, cmd := 0, coop := none, acks := []
      pre := if c.pre = .held then .running else c.pre
      savedCmds := c.restartCmds, savedSlots := c.restartSlots, savedShadow := c.restartShadow
      task := c.task + 1 }

/-- A context that is on its core is stopped and restarted there, its engines with it. -/
def restartHere (id : Nat) (s : State) : State :=
  let s := dropCmds id (leaveWaits id s)
  let core := coreAt s (coreOf id)
  let s := putCore { core with sbuf := core.sbuf.filter (fun x => x.ctx != id) } s
  let c := restartCtx (ctxOf s id)
  let s := putCtx { c with savedCmds := [], savedSlots := [], savedShadow := [] } s
  restoreCmds id c.savedCmds (restoreSlots c c.savedSlots c.savedShadow s)

/-- Roll a launch's uncommitted step back. -/
def rollback (launch : Nat) (s : State) : State :=
  let here := (ctxsOf s launch).map (·.id)
  let log := (launchAt s launch).undo
  let s := dropHeld launch (clearWork launch s)
  let s := forEach (fun id s => dropCmds id (leaveWaits id s)) here s
  let s := { s with cores := s.cores.map (fun k => { k with sbuf := k.sbuf.filter (fun x => !here.contains x.ctx) }) }
  let s := applyLog log s
  let s := { s with clusters := s.clusters.map (fun c => { c with bars := c.bars.map (fun b =>
      if b.launch = launch then { b with arrived := b.cutArrived, phase := b.cutPhase } else b) }) }
  let s := forEach restartHere here s
  let s := { s with
    disp := { s.disp with savedCtx := s.disp.savedCtx.map (fun c =>
      if c.bind.launch = launch then { restartCtx c with pre := .saved } else c) }
    host := { s.host with
      holds := s.host.holds.filter (fun h => h.1 != launch)
      tags := s.host.tags.filter (fun t => !(t.kind == 1 && t.seq == launch)) }
    inbox := s.inbox.filter (fun m => !here.contains m.ctx) }
  let l := launchAt s launch
  putLaunch { l with undo := [], nonRollback := false, held := [], stepDone := false } s

/-! ### Ending a launch (R329, R355) -/

/-- A context whose launch has ended keeps its number and its floor.
DESIGN CHOICE, unsafe (log entry 94). -/
def unbindCtx (c : Ctx) : Ctx := { id := c.id, floor := c.floor, task := c.task + 1 }

/-- Free what a launch holds: contexts, frames, barrier units, calendar slots, tags. -/
def releaseLaunch (launch : Nat) (s : State) : State :=
  let l := launchAt s launch
  let here := (ctxsOf s launch).map (·.id)
  let cls := clustersOf s launch
  let s := forEach (fun id s => dropCmds id (leaveWaits id s)) here (clearWork launch s)
  let s := { s with
    clusters := s.clusters.map (fun c => if cls.contains c.id then
      { c with
        pageMap := c.pageMap.filter (fun f => !(pmUse f.2 == 0 && pmArea f.2 == l.area))
        bars := c.bars.filter (fun b => b.launch != launch) } else c)
    mem := { s.mem with backing := s.mem.backing.filter (fun b => !(cls.contains b.cluster && b.area == l.area)) }
    homes := { s.homes with cal := s.homes.cal.filter (fun c => c.launch != launch) }
    host := { s.host with
      tags := s.host.tags.filter (fun t => !(t.kind == 1 && t.seq == launch) && !(t.kind != 1 && t.source == 0 && t.who == launch))
      holds := s.host.holds.filter (fun h => h.1 != launch) }
    inbox := s.inbox.filter (fun m => !here.contains m.ctx)
    disp := { s.disp with savedCtx := s.disp.savedCtx.filter (fun c => c.bind.launch != launch) } }
  let s := forEach (fun id s => putCtx (unbindCtx (ctxOf s id)) s) here s
  forEach (fun t s => alignSweep t l.module s) (here.map tileOf).eraseDups s

/-- Weights of a core's arbiter share: the largest mweight bound there (R288). -/
def setWeight (core : Nat) (s : State) : State :=
  let ws := ((allCtx s).filter (fun c => coreOf c.id == core && c.run != .unbound)).filterMap (fun c =>
    (moduleAt s c.bind.module).actors[c.bind.actor]?.map (·.mweight))
  putCore { coreAt s core with weight := ws.foldl max 1 } s

/-- The dirty sets of a launch's clusters go to their homes. -/
def drainAsid (asid : Nat) : List Nat → State → State
  | [], s => s
  | c :: cs, s => drainAsid asid cs (writebackAll c (dirtyLines s c asid) s)

/-- End a launch with a completion status, after its writes have reached their homes (R304). -/
def endLaunch (launch status cause rank : Nat) (s : State) : State :=
  let l := launchAt s launch
  let cores := ((ctxsOf s launch).map (fun c => coreOf c.id)).eraseDups
  let s := putLaunch { l with phase := 4, ranks := [], undo := [], held := [], leased := [], carved := [], place := [], parts := [], kept := [] }
    (releaseLaunch launch (drainAsid l.asid (clustersOf s launch) s))
  complete l.queue l.words (cwWord status cause rank l.done) (forEach setWeight cores s)

/-- Has an entry of a launch's log met an uncorrectable error? -/
def logLost (l : Launch) : Bool := l.undo.any (·.bad.isSome)

/-- Roll a launch back; one whose log has lost an entry ends (R368). -/
def rollbackOrEnd (launch : Nat) (s : State) : State :=
  let t := rollback launch s
  if logLost (launchAt s launch) then endLaunch launch statusFault Cause.poison.code 0 t else t

/-- A rollback that a launch's step does not survive once it is non-rollbackable (R365), with the cause and the rank of the
event. -/
def rollOrEnd (launch cause rank : Nat) (s : State) : State :=
  if (launchAt s launch).nonRollback then endLaunch launch statusFault cause rank (rollback launch s) else rollbackOrEnd launch s

/-- R355 step 4: roll back, unbind, FAULT. -/
def faultLaunch (launch cause rank : Nat) (s : State) : State := endLaunch launch statusFault cause rank (rollback launch s)

end Sys2Proof.Machine
end

