-- ==== Sys2Proof/Machine/Place.lean ====
section
/-!
DEFINITION. Placement and binding of a launch (R11, R16, R24, R26, R27, R192, R242-R246, R255, R256, R293,
R307, R310-R312, R332, R333).
-/

namespace Sys2Proof.Machine

open Sys2Proof

/-! ### Ranks (R11) -/

/-- Actor and instance of each rank. -/
def instances (as : List Actor) : List (Nat × Nat) :=
  ((enumerate 0 as).map (fun ia => (List.range ia.2.count).map (fun i => (ia.1, i)))).flatten

/-- The rank of an instance. -/
def rankIn (as : List Actor) (a i : Nat) : Nat := ((as.take a).map (·.count)).sum + i

/-- A rank with its actor, instance and context. -/
structure Placed where
  rank : Nat
  actor : Nat
  inst : Nat
  ctx : Nat
  deriving DecidableEq, Repr

/-- A placement of a module. -/
def placed (m : Module) (place : List Nat) : List Placed :=
  (enumerate 0 ((instances m.actors).zip place)).map (fun x => { rank := x.1, actor := x.2.1.1, inst := x.2.1.2, ctx := x.2.2 })

/-- The actor of a module with an index. -/
def actorAt (m : Module) (a : Nat) : Actor := m.actors.getD a
  { entry := 0, count := 1, stack := 0, splim := 16, cls := 0, steal := 0, ring := 0, mweight := 1, accslots := 0, cgroup := 0 }

/-! ### Channels (R16, R309, R332) -/

/-- One channel of an edge: the edge's index, the channel's index in it, and the instance at each end. -/
structure ChanInst where
  edge : Nat
  index : Nat
  chan : Chan
  prodInst : Nat
  consInst : Nat
  deriving DecidableEq, Repr

/-- The channels of a module, edges in order and instances in order. -/
def chanInsts (m : Module) : List ChanInst :=
  ((enumerate 0 m.chans).map (fun ie =>
    (List.range (edgeWidth m.actors ie.2)).map (fun i =>
      let c := edgeCounts m.actors ie.2
      { edge := ie.1, index := i, chan := ie.2, prodInst := if c.1 = 1 then 0 else i
        consInst := if c.2 = 1 then 0 else i : ChanInst }))).flatten

/-- The context at the consumer's end, or the producer's when the consumer is EXT: the one through whose handle 1
the leaf writes the QCW (R333), and on whose tile the channel lies (R242). -/
def chanOwner (ps : List Placed) (c : ChanInst) : Option Placed :=
  ps.find? (fun p => if c.chan.cons = extEnd then p.actor == c.chan.prod && p.inst == c.prodInst
    else p.actor == c.chan.cons && p.inst == c.consInst)

/-- The channels of an instance in binding order: inputs by port, then outputs by port. -/
def bindOrder (cs : List ChanInst) (a i : Nat) : List ChanInst :=
  let ins := fun (p : Nat) => cs.filter (fun c => c.chan.cons == a && c.consInst == i && c.chan.cport == p)
  let outs := fun (p : Nat) => cs.filter (fun c => c.chan.prod == a && c.prodInst == i && c.chan.pport == p)
  ((List.range 256).map ins).flatten ++ ((List.range 256).map outs).flatten

/-! ### The LOCAL area of a cluster (R242-R245) -/

/-- What the layout of an area has so far. -/
structure Area where
  /-- the next free offset -/
  next : Nat := 0
  /-- pages: number, and home tile or none for INTERLEAVED -/
  pages : List (Nat × Option Nat) := []
  /-- stacks by context; rings by core: QCW offset and slots -/
  stackOffs : List (Nat × Nat) := []
  rings : List (Nat × Nat × Nat) := []
  /-- QCWs: channel and offset -/
  chans : List (ChanInst × Nat) := []
  knot : Option Nat := none
  /-- end of the channel storage -/
  chanEnd : Nat := 0
  /-- shared objects: handle and offset -/
  shared : List (Nat × Nat) := []
  deriving DecidableEq, Repr

/-- Place an item of `n` bytes at the next multiple of 128: its offset and the area after it. -/
def Area.item (n : Nat) (a : Area) : Nat × Area := (alignUp a.next, { a with next := alignUp a.next + n })

/-- Close a group that began on a page boundary: its pages have a home, and the next group begins on a page
boundary. -/
def Area.close (start : Nat) (home : Option Nat) (a : Area) : Area :=
  let n := pagesFor (a.next - start)
  { a with
    next := start + n * 65536, pages := a.pages ++ (List.range n).map (fun i => (start / 65536 + i, home)) }

/-- The core block of a core (R243): stacks in context order, arrival ring, deque. -/
def layCore (m : Module) (core : Nat) (ps : List Placed) (a : Area) : Area :=
  let mine := (List.range 4).filterMap (fun k => ps.find? (fun p => p.ctx == core * 4 + k))
  let a := mine.foldl (fun a p =>
    let r := a.item (actorAt m p.actor).stack
    { r.2 with stackOffs := r.2.stackOffs ++ [(p.ctx, r.1)] }) a
  let ring := (mine.map (fun p => (actorAt m p.actor).ring)).foldl max 0
  let r := a.item (32 + 80 * ring)
  let a := { r.2 with rings := r.2.rings ++ [(core, r.1, ring)] }
  (a.item (32 + 5120)).2

/-- Distinct numbers of a list that lie in a range, ascending. -/
def ascending (lo n : Nat) (xs : List Nat) : List Nat := ((List.range n).map (· + lo)).filter xs.contains

/-- The core blocks of a cluster: tiles ascending, cores ascending. -/
def layCores (m : Module) (cluster : Nat) (ps : List Placed) (a : Area) : Area :=
  (ascending (cluster * 128) 128 (ps.map (fun p => tileOf p.ctx))).foldl (fun a t =>
    let start := a.next
    let a := (ascending (t * 8) 8 (ps.map (fun p => coreOf p.ctx))).foldl (fun a k => layCore m k ps a) a
    a.close start (some (t % 128))) a

/-- The channel storage of a cluster: groups by tile, the step knot ahead of its group's channels (R312). -/
def layChans (m : Module) (cluster : Nat) (ps : List Placed) (a : Area) : Area :=
  let own := (chanInsts m).filterMap (fun c => (chanOwner ps c).map (fun p => (c, tileOf p.ctx)))
  let knotTile := m.graph.bind (fun g => (ps.find? (fun p => p.actor == g.1 && p.inst == 0)).map (fun p => tileOf p.ctx))
  let a := { a with chanEnd := a.next }
  (ascending (cluster * 128) 128 (own.map (·.2) ++ knotTile.toList)).foldl (fun a t =>
    let start := a.next
    let a := if knotTile = some t then
        let r := a.item 128
        { r.2 with knot := some r.1 }
      else a
    let a := (own.filter (fun c => c.2 == t)).foldl (fun a c =>
      let r := a.item (32 + c.1.chan.depth * c.1.chan.size * 8)
      { r.2 with chans := r.2.chans ++ [(c.1, r.1)] }) a
    ({ a with chanEnd := a.next }).close start (some (t % 128))) a

/-- The tile of the cluster that holds the most contexts of the launch, the lowest among equals. -/
def fullestTile (cluster : Nat) (ps : List Placed) : Nat :=
  let count := fun (t : Nat) => (ps.filter (fun p => tileOf p.ctx == t)).length
  ((ascending (cluster * 128) 128 (ps.map (fun p => tileOf p.ctx))).foldl
    (fun b t => if count b < count t then t else b) ((ps.map (fun p => tileOf p.ctx)).foldl min (cluster * 128 + 127))) % 128

/-- Do the contexts all lie in one sector? -/
def oneSector (ps : List Placed) : Bool := decide (((ps.map (fun p => tileOf p.ctx / 16)).eraseDups).length ≤ 1)

/-- The shared part, in a mode (R245). -/
def layShared (m : Module) (home : Option Nat) (a : Area) : Area :=
  let start := a.next
  let a := ((enumerate 4 m.handles).filter (fun h => h.2.space == 0)).foldl (fun a h =>
    let r := a.item h.2.length
    { r.2 with shared := r.2.shared ++ [(h.1, r.1)] }) a
  a.close start home

/-- The area of a cluster with the shared part in a mode. -/
def layArea (m : Module) (cluster : Nat) (ps : List Placed) (home : Option Nat) : Area :=
  layShared m home (layChans m cluster ps (layCores m cluster ps {}))

/-! ### Room (R256, R258) -/

/-- R256 with an area counted. -/
def areaFits (s : State) (queue cluster : Nat) (a : Area) : Bool := fits s queue cluster (a.pages.map (·.2)) 0

/-- The area that R245 and R258 choose.
DESIGN CHOICE, safe (log entry 36). -/
def chooseArea (m : Module) (s : State) (queue cluster : Nat) (ps : List Placed) : Area :=
  let a := layArea m cluster ps (some (fullestTile cluster ps))
  if oneSector ps && areaFits s queue cluster a then a else layArea m cluster ps none

/-- The contexts of a placement in a cluster. -/
def inCluster (cluster : Nat) (ps : List Placed) : List Placed := ps.filter (fun p => clusterOf p.ctx == cluster)

/-- The clusters of a placement. -/
def placeClusters (place : List Nat) : List Nat := (place.map clusterOf).eraseDups

/-- The partition of a context: base and slots. -/
def partOf (c : Ctx) : Nat × Nat := (fieldOf c.a.sr.mpart 0 6, fieldOf c.a.sr.mpart 8 8)

/-- The partitions of the contexts bound on a tile. -/
def boundParts (s : State) (tile : Nat) : List (Nat × Nat) :=
  ((allCtx s).filter (fun c => tileOf c.id == tile && c.run != .unbound)).map partOf

/-- Accumulator slots of a tile that are not free for the head of a queue (64: for none): ranges of the partitions bound
there, of those kept for another head (R306), and of those that a launch will take that waits for its ranges. -/
def partitions (s : State) (queue tile : Nat) : List (Nat × Nat) :=
  boundParts s tile ++
  (s.disp.savedCtx.filter (fun c => tileOf c.id == tile && keptFor s queue c)).map partOf ++
  ((s.disp.launches.filter (·.phase == 1)).map (fun l => (l.parts.filter (fun p => tileOf p.1 == tile)).map (·.2))).flatten

/-- The lowest base of `n` free slots of a tile beside some partitions (R293).
DESIGN CHOICE, unsafe (log entry 111). -/
def freeBase (used : List (Nat × Nat)) (n : Nat) : Option Nat :=
  (List.range 65).find? (fun b => decide (b + n ≤ 64) &&
    used.all (fun u => u.2 == 0 || n == 0 || decide (b + n ≤ u.1) || decide (u.1 + u.2 ≤ b)))

/-- Partitions for a placement, rank by rank: context, base and slots; none where a tile has no room. -/
def bases (s : State) (m : Module) (queue : Nat) : List Placed → List (Nat × Nat × Nat) → Option (List (Nat × Nat × Nat))
  | [], _ => some []
  | p :: ps, new =>
    let n := (actorAt m p.actor).accslots
    let beside := (new.filter (fun x => tileOf x.1 == tileOf p.ctx)).map (·.2)
    match freeBase (partitions s queue (tileOf p.ctx) ++ beside) n with
    | none => none
    | some b =>
      let x := (p.ctx, if n = 0 then 0 else b, n)
      (bases s m queue ps (x :: new)).map (fun r => x :: r)

/-- May a context be bound for the head of a queue: its cluster is in service, and it is bound to nothing, not kept for
another head, and not about to be bound by a launch that waits for its ranges? -/
def ctxFree (s : State) (queue id : Nat) : Bool :=
  (inService s).contains (clusterOf id) && decide (id < 65536) && (ctxOf s id).run == .unbound &&
  s.disp.reserved.all (fun r => r.1 != id || r.2 == queue) &&
  s.disp.launches.all (fun l => l.phase != 1 || !l.place.contains id)

/-- Barrier units of a cluster that launches will take that wait for their ranges. -/
def keptUnits (s : State) (cluster : Nat) : Nat :=
  ((s.disp.launches.filter (fun l => l.phase == 1 && l.place.any (fun id => clusterOf id == cluster))).map (fun l =>
    (moduleAt s l.module).barriers.length)).sum

/-- Is the module placed a cgroup to a cluster, and not spread (R310)? -/
def oneGroup (m : Module) : Bool := m.actors.any (fun a => a.cgroup != 0) || decide ((m.actors.map (·.count)).sum ≤ 4096)

/-- The sets of actors whose instances are balanced together: the cluster sets, and every other actor by itself. -/
def balanceSets (m : Module) : List (List Nat) :=
  let sets := clusterSets m.actors m.chans
  sets ++ ((List.range m.actors.length).filter (fun a => !sets.any (·.contains a))).map (fun a => [a])

/-- The cluster rules of R310: sets stay together, and cgroups apart. -/
def groupsOk (m : Module) (ps : List Placed) : Bool :=
  let cls := fun (set : List Nat) => ((ps.filter (fun p => set.contains p.actor)).map (fun p => clusterOf p.ctx)).eraseDups
  let sets := clusterSets m.actors m.chans
  sets.all (fun x => decide ((cls x).length ≤ 1)) &&
  (m.actors.all (fun a => a.cgroup == 0) || decide ((sets.map cls).flatten.eraseDups.length = sets.length))

/-! ### Balance of a strand (R324) -/

/-- The activity classes of the instances on a tile, those of launches that wait for their ranges counted. -/
def classSum (s : State) (tile : Nat) : Nat :=
  (((allCtx s).filter (fun c => tileOf c.id == tile && c.run != .unbound)).map (fun c =>
    (actorAt (moduleAt s c.bind.module) c.bind.actor).cls)).sum +
  ((s.disp.launches.filter (·.phase == 1)).map (fun l =>
    (((placed (moduleAt s l.module) l.place).filter (fun p => tileOf p.ctx == tile)).map (fun p =>
      (actorAt (moduleAt s l.module) p.actor).cls)).sum)).sum

/-- Do four sums differ by at most 1? -/
def evenSums (xs : List Nat) : Bool := decide (xs.foldl max 0 ≤ xs.foldl min (xs.headD 0) + 1)

/-- Is a strand balanced with some instances added? -/
def strandEven (s : State) (m : Module) (ps : List Placed) (strand : Nat) : Bool :=
  evenSums ((List.range 4).map (fun i =>
    classSum s (4 * strand + i) +
      ((ps.filter (fun p => tileOf p.ctx == 4 * strand + i)).map (fun p => (actorAt m p.actor).cls)).sum))

/-- Add a class to the least of four sums. -/
def addLeast (k : Nat) (xs : List Nat) : List Nat :=
  let least := xs.foldl min (xs.headD 0)
  setAt xs (xs.idxOf least) (least + k)

/-- Insert in a rising list of four sums. -/
def insertSum (x : Nat) : List Nat → List Nat
  | [] => [x]
  | y :: ys => if x ≤ y then x :: y :: ys else y :: insertSum x ys

/-- The sums, rising, that four tiles can have with one instance of class `k` more. -/
def withClass (k : Nat) (sums : List (List Nat)) : List (List Nat) :=
  ((sums.map (fun xs => (List.range 4).map (fun i => insertSum (xs.getD i 0 + k) (xs.eraseIdx i)))).flatten).eraseDups

/-- Can instances of some classes be placed on the four tiles of a strand with even sums?  The heaviest first on the least
sum often shows it; else every way is looked at. -/
def canBalance (classes : List Nat) : Bool :=
  evenSums (classes.foldl (fun xs k => addLeast k xs) [0, 0, 0, 0]) ||
  (classes.foldl (fun sums k => withClass k sums) [[0, 0, 0, 0]]).any evenSums

/-- Can a set of actors be placed in an empty cluster with every strand balanced?  Strands with even sums stay even when
they are put together, the highest sum of one on the lowest of the other, so one strand decides.
DEDUCED, safe (log entry 38). -/
def balances (m : Module) (set : List Nat) : Bool :=
  let xs := set.map (actorAt m)
  canBalance (((List.range 7).map (fun i => List.replicate (((xs.filter (·.cls == 7 - i)).map (·.count)).sum) (7 - i))).flatten)

/-! ### The placements that are allowed (R310) -/

/-- What must lie in one cluster: the cluster sets, and every other instance by itself. -/
def pieces (m : Module) : List (List (Nat × Nat)) :=
  let sets := clusterSets m.actors m.chans
  let all := instances m.actors
  sets.map (fun set => all.filter (fun x => set.contains x.1)) ++
  (all.filter (fun x => !sets.any (fun set => set.contains x.1))).map (fun x => [x])

/-- Every placement of `n` ranks more at some contexts, after `place`: the first that is right. -/
def tryAll (ok : List Nat → Bool) (ids : List Nat) : Nat → List Nat → Option (List Nat)
  | 0, place => if ok place then some place else none
  | n + 1, place => ids.findSome? (fun id => if place.contains id then none else tryAll ok ids n (place ++ [id]))

/-- A module that one cluster cannot hold fills the lowest clusters first: nothing that lies in a cluster would find its
contexts in a lower one.
DEDUCED, safe (log entry 38). -/
def fillsLowest (s : State) (m : Module) (queue : Nat) (ps : List Placed) : Bool :=
  let free := fun (c : Nat) => ((List.range 4096).filter (fun i => ctxFree s queue (c * 4096 + i))).length - (inCluster c ps).length
  let at_ := fun (x : Nat × Nat) => (ps.find? (fun p => p.actor == x.1 && p.inst == x.2)).map (fun p => clusterOf p.ctx)
  (pieces m).all (fun piece => (piece.head?.bind at_).all (fun c =>
    (inService s).all (fun d => decide (c ≤ d) || decide (free d < piece.length))))

/-- The rules of R310 but for the spreading of a module over clusters. -/
def fitsAt (s : State) (m : Module) (queue : Nat) (place : List Nat) : Bool :=
  let ps := placed m place
  let inSet := fun (set : List Nat) => ps.filter (fun p => set.contains p.actor)
  place.length == (instances m.actors).length && decide (place.eraseDups.length = place.length) && place.all (ctxFree s queue) &&
  groupsOk m ps && (!oneGroup m || m.actors.any (fun a => a.cgroup != 0) || decide ((placeClusters place).length ≤ 1)) &&
  (bases s m queue ps []).isSome &&
  (balanceSets m).all (fun set => !balances m set ||
    ((inSet set).map (fun p => tileOf p.ctx / 4)).eraseDups.all (strandEven s m ps)) &&
  (placeClusters place).all (fun c =>
    let cl := clusterAt s c
    areaFits s queue c (chooseArea m s queue c (inCluster c ps)) &&
    decide (cl.bars.length + keptUnits s c + m.barriers.length ≤ 64))

/-- The contexts that may be bound for the head of a queue. -/
def freeCtxs (s : State) (queue : Nat) : List Nat := (List.range 65536).filter (ctxFree s queue)

/-- Does a placement use as few clusters as can hold the module: no fewer than its instances need, or no placement uses fewer? -/
def fewest (s : State) (m : Module) (queue : Nat) (place : List Nat) : Bool :=
  let k := (placeClusters place).length
  decide (k ≤ (place.length + 4095) / 4096) ||
  (tryAll (fun p => fitsAt s m queue p && decide ((placeClusters p).length < k)) (freeCtxs s queue) place.length []).isNone

/-- Is a placement one that R310 allows now?
DEDUCED, safe (log entry 38). -/
def placementOk (s : State) (m : Module) (queue : Nat) (place : List Nat) : Bool :=
  fitsAt s m queue place && (oneGroup m || (fillsLowest s m queue (placed m place) && fewest s m queue place))

/-! ### A placement that the dispatcher finds -/

/-- What has been placed: rank and context, and the partitions taken. -/
structure Trial where
  got : List (Nat × Nat) := []
  parts : List (Nat × Nat × Nat) := []

/-- Orders in which the contexts of a cluster are tried: by number; over the tiles of a strand; over all tiles. -/
def ctxOrders : List (Nat → Nat) :=
  [fun i => i, fun i => i / 128 * 128 + i % 4 * 32 + i % 128 / 4, fun i => i % 128 * 32 + i / 128]

/-- Place an instance in a cluster, at the first context that is free and has slots for its partition. -/
def findOne (s : State) (m : Module) (queue cluster : Nat) (order : Nat → Nat) (x : Nat × Nat) (f : Trial) : Option Trial :=
  let n := (actorAt m x.1).accslots
  let beside := fun (id : Nat) => (f.parts.filter (fun p => tileOf p.1 == tileOf id)).map (·.2)
  let base := fun (id : Nat) => freeBase (partitions s queue (tileOf id) ++ beside id) n
  match ((List.range 4096).map (fun i => cluster * 4096 + order i)).find? (fun id =>
      ctxFree s queue id && !f.got.any (fun g => g.2 == id) && (base id).isSome) with
  | none => none
  | some id => some { got := f.got ++ [(rankIn m.actors x.1 x.2, id)], parts := (id, (base id).getD 0, n) :: f.parts }

/-- Place the instances of a piece in a cluster. -/
def findPiece (s : State) (m : Module) (queue cluster : Nat) (order : Nat → Nat) : List (Nat × Nat) → Trial → Option Trial
  | [], f => some f
  | x :: xs, f => (findOne s m queue cluster order x f).bind (findPiece s m queue cluster order xs)

/-- Place pieces, each in the first cluster that takes it; with `apart`, each in a cluster of its own. -/
def findAll (s : State) (m : Module) (queue : Nat) (order : Nat → Nat) (apart : Bool) : List (List (Nat × Nat)) → Trial → Option Trial
  | [], f => some f
  | p :: ps, f =>
    match ((inService s).filter (fun c => !apart || !f.got.any (fun g => clusterOf g.2 == c))).findSome? (fun c =>
        findPiece s m queue c order p f) with
    | none => none
    | some g => findAll s m queue order apart ps g

/-- A placement that a short search finds. -/
def firstFit (s : State) (m : Module) (queue : Nat) : Option (List Nat) :=
  ctxOrders.findSome? (fun order =>
    (findAll s m queue order (oneGroup m) (pieces m) {}).bind (fun f =>
      let place := (List.range (instances m.actors).length).map (fun r => (getBy (·.1) r (r, 65536) f.got).2)
      if placementOk s m queue place then some place else none))

/-- A placement that R310 allows, for the head of a queue; none where there is none: a short search first, and then every
placement.  Which of several it gives matters to the machine's own turns alone.
DESIGN CHOICE, unsafe (log entry 2). -/
def findPlace (s : State) (m : Module) (queue : Nat) : Option (List Nat) :=
  match firstFit s m queue with
  | some p => some p
  | none =>
    let n := (instances m.actors).length
    let ids := freeCtxs s queue
    if ids.length < n then none else tryAll (placementOk s m queue) ids n []

/-- The machine with empty clusters: in service and with the caches that they have, or all of them and with none. -/
def emptied (asTheyAre : Bool) (s : State) : State :=
  { s with
    cur := {}, others := []
    clusters := s.clusters.map (fun c =>
      { id := c.id, frames := if asTheyAre then c.frames else 0, out := asTheyAre && c.out : Cluster })
    mem := { s.mem with backing := [] }
    disp := { s.disp with launches := [], savedCtx := [], reserved := [] } }

/-! ### Binding -/

/-- Free physical barrier units of a cluster, ascending. -/
def freeUnits (cl : Cluster) : List Nat := (List.range 64).filter (fun u => !cl.bars.any (fun b => b.unit == u))

/-- Barrier units for a launch's barriers (R192). -/
def addUnits (launch : Nat) (m : Module) (c : Nat) (s : State) : State :=
  let cl := clusterAt s c
  let new := (enumerate 0 ((freeUnits cl).zip m.barriers)).map (fun x =>
    { unit := x.2.1, launch := launch, number := x.1, count := x.2.2 : BarUnit })
  putCluster { cl with bars := new.foldl (fun bs b => putBy BarUnit.unit b bs) cl.bars } s

/-- Frames for the pages of an area: zeroed and pinned (R246). -/
def addPages (cluster area : Nat) : List (Nat × Option Nat) → State → State
  | [], s => s
  | p :: ps, s =>
    addPages cluster area ps (placePage cluster (pmEntry 0 p.2.isSome true (p.2.getD 0) area p.1) s)

/-- Write bytes of an area, in its frames or in the backing store. -/
def areaBytes (cluster area : Nat) : Nat → List Byte → State → State
  | _, [], s => s
  | off, b :: bs, s =>
    let s := match localKey s cluster area off with
      | some k => { s with mem := { s.mem with l1 := s.mem.l1.write k b } }
      | none => mapBacked cluster area off (fun x => { x with bytes := x.bytes.write (off % 65536) b }) s
    areaBytes cluster area (off + 1) bs s

/-- Write words of an area. -/
def areaWords (cluster area off : Nat) (ws : List Word64) (s : State) : State :=
  areaBytes cluster area off ((ws.map (fun w => toBytes w.toNat 8)).flatten) s

/-- The words of a QCW (R32). -/
def qcwWords (head : Nat) (base : Word64) (eng imm crel : Bool) (fmt size depth cons prod : Nat) : List Word64 :=
  [ nat64 head, base,
    nat64 (boolBit eng 31 + boolBit imm 30 + boolBit crel 29 + fmt % 16 * 2 ^ 24 + size % 256 * 2 ^ 16 + depth % 65536),
    nat64 (cons % 65536 * 2 ^ 16 + prod % 65536) ]

/-- The stack offset of a context in an area, the base of its handle 1. -/
def stackOff (a : Area) (ctx : Nat) : Nat := (getBy (·.1) ctx (ctx, 0) a.stackOffs).2

/-- Rank at an end of a channel; EXT is 0xFFFF. -/
def endRank (m : Module) (a i : Nat) : Nat := if a = extEnd then extEnd else rankIn m.actors a i

/-- Carve the channels of a cluster: QCWs, and what R333 has to know of them. -/
def carve (m : Module) (cluster area : Nat) (a : Area) (ps : List Placed) : List (ChanInst × Nat) → State → State
  | [], s => s
  | (c, off) :: cs, s =>
    let own := match chanOwner ps c with
      | some p => stackOff a p.ctx
      | none => 0
    let q := qcwWords c.chan.tokens (mkPtr 1 (off + 32 - own)) c.chan.eng c.chan.imm c.chan.crel c.chan.fmt c.chan.size
      c.chan.depth (endRank m c.chan.cons c.consInst) (endRank m c.chan.prod c.prodInst)
    carve m cluster area a ps cs (areaWords cluster area off q s)

/-- The arrival rings' QCWs: size 10, both ranks 0xFFFF, based through handle 1 of the core's lowest context.
DESIGN CHOICE, unsafe (log entry 96). -/
def carveRings (cluster area : Nat) (a : Area) : List (Nat × Nat × Nat) → State → State
  | [], s => s
  | (core, off, slots) :: rs, s =>
    let low := match a.stackOffs.find? (fun x => coreOf x.1 == core) with
      | some x => x.2
      | none => 0
    carveRings cluster area a rs
      (areaWords cluster area off (qcwWords 0 (mkPtr 1 (off + 32 - low)) false false false 0 10 slots extEnd extEnd) s)

/-- Initial contents of the LOCAL objects (R374). -/
def initLocals (m : Module) (cluster area : Nat) : List (Nat × Nat) → State → State
  | [], s => s
  | (h, off) :: hs, s =>
    let s := (m.data.filter (fun d => d.1 == h)).foldl (fun s d => areaBytes cluster area off d.2 s) s
    initLocals m cluster area hs s

/-- The handle table of a context (R27).
DEDUCED, unsafe (log entry 37). -/
def handlesOf (m : Module) (ws : List Word64) (a : Area) (ctx : Nat) : List (Nat × HandleEntry) :=
  let base := stackOff a ctx
  [(1, { base := base, length := a.chanEnd - base, valid := true, e := true, w := true, r := true }),
   (2, { base := m.codeVa, length := m.codeSize, valid := true, x := true, space := 1 })] ++
  (if recPlen ws = 0 then [] else
    [(3, { base := recParam ws, length := recPlen ws * 4096, valid := true, e := true, r := true, space := 1 })]) ++
  (enumerate 4 m.handles).map (fun h =>
    if h.2.space = 0 then (h.1, { h.2 with base := (getBy (·.1) h.1 (h.1, 0) a.shared).2 }) else h)

/-- The slots of a tile that lie in no partition are cleared at a bind (R293). -/
def clearFree (tile : Nat) (s : State) : State :=
  let t := tileAt s tile
  let ps := boundParts s tile
  putTile { t with slots := t.slots.filter (fun x => ps.any (fun p => decide (p.1 ≤ x.id) && decide (x.id < p.1 + p.2))) } s

/-- The channel handles of an actor instance (R16). -/
def chanHandles (cs : List (ChanInst × Nat)) (a i base : Nat) : Vector (Option Word64) 16 :=
  let os := (bindOrder (cs.map (·.1)) a i).map (fun c => match cs.find? (fun x => x.1 == c) with
    | some x => mkPtr 1 (x.2 - base)
    | none => 0)
  Vector.ofFn (fun k => os[k.val]?)

/-- A context bound to a rank, at the start of its actor instance (R24); it waits for its stage.  STEPK is 0 in a cluster without the
launch's step knot, and without a graph (log entry 112: DESIGN CHOICE, unsafe).
DESIGN CHOICE, safe (log entry 77). -/
def boundCtx (l : Launch) (m : Module) (a : Area) (mpBase_ : Nat) (p : Placed) (c : Ctx) : Ctx :=
  let ac := actorAt m p.actor
  let off := stackOff a p.ctx
  let ring := getBy (·.1) (coreOf p.ctx) (0, 0, 0) a.rings
  let b : Bind := {
    rank := p.rank, queue := l.queue, serial := l.seq % 65536, asid := m.asid, launch := l.id, module := m.id
    actor := p.actor, inst := p.inst, area := l.area, stack := ac.stack, ring := ring.2.2, arqOff := ring.2.1
    deqOff := alignUp (ring.2.1 + 32 + 80 * ring.2.2) }
  let c := { unbindCtx c with bind := b, run := .stopped, handles := handlesOf m l.words a p.ctx }
  let sr := startRegs m ac.splim m.tmr 0 {
    mpart := nat64 (mpBase_ + ac.accslots * 2 ^ 8), arq := mkPtr 1 (ring.2.1 - off), step := 0
    stepk := match a.knot with
      | some k => mkPtr 1 (k - off)
      | none => 0 }
  let arch : Arch := {
    g := taskRegs c [mkPtr 3 0, nat64 p.inst, nat64 ac.count], c := chanHandles a.chans p.actor p.inst off
    pc := nat64 (ac.entry / 4 * 4), sr := sr }
  { c with a := arch, restart := some arch, restartRun := .running }

/-- Bind the contexts of a cluster. -/
def bindAll (l : Launch) (m : Module) (a : Area) : List Placed → State → State
  | [], s => s
  | p :: ps, s =>
    let s := clearFree (tileOf p.ctx) s
    let k := coreAt s (coreOf p.ctx)
    let c := { boundCtx l m a (getBy (·.1) p.ctx (p.ctx, 0, 0) l.parts).2.1 p (ctxOf s p.ctx) with
      arrc0 := k.arrc, arsp0 := k.arsp, arov0 := k.arov, dqsp0 := k.dqsp }
    bindAll l m a ps (setWeight (coreOf p.ctx) (putCtx c s))

/-- Where the dies differ in revision, a module is lowered where a launch of it is placed (R351). -/
def askLowering (m : Module) (c : Nat) (s : State) : State :=
  if sameRevision s || (clusterAt s c).lowered.contains m.id then s
  else { s with disp := { s.disp with toLower := addOnce (c, m.id) s.disp.toLower } }

/-- Place a launch in one of its clusters. -/
def placeCluster (l : Launch) (m : Module) (all : List Placed) (c : Nat) (s : State) : State :=
  let ps := inCluster c all
  let a := chooseArea m s l.queue c ps
  let s := addPages c l.area a.pages (addUnits l.id m c s)
  let s := initLocals m c l.area a.shared (carveRings c l.area a a.rings (carve m c l.area a ps a.chans s))
  let s := match a.knot, m.graph with
    | some k, some g => areaWords c l.area k [nat64 (actorAt m g.1).count] s
    | _, _ => s
  let lo := launchAt s l.id
  let own := fun (x : ChanInst) => match chanOwner ps x with
    | some p => stackOff a p.ctx
    | none => 0
  let s := putLaunch { lo with
    carved := lo.carved ++ a.chans.map (fun x => (c, x.2, own x.1))
    stepKnot := match a.knot with
      | some k => some (c, l.area, k)
      | none => lo.stepKnot } s
  askLowering m c (bindAll l m a ps s)

/-- Place a launch on the contexts kept for it: rank table, areas, channels, barriers, partitions, contexts (R307). -/
def placeLaunch (l : Launch) (m : Module) (s : State) : State :=
  let ps := placed m l.place
  let t := { l with phase := 2, ranks := ps.map (fun p => { valid := true, ctx := p.ctx }), place := [], parts := [], kept := [], handoff := [] }
  mapLaunch l.id (owe l.handoff) (forEach (placeCluster l m ps) (placeClusters l.place) (putLaunch t s))

/-! ### Stages (R311) -/

/-- The stage of each actor, by relaxation over the edges. -/
def stagesOf (m : Module) : List Nat :=
  let edges := m.chans.filter (fun e => isInner e && e.prod != e.cons && e.tokens == 0)
  let pass := fun (st : List Nat) =>
    (List.range m.actors.length).map (fun a =>
      ((edges.filter (fun e => e.prod == a)).map (fun e => st.getD e.cons 0 + 1)).foldl max 0)
  (List.range m.actors.length).foldl (fun st _ => pass st) (m.actors.map (fun _ => 0))

/-- Release the instances of a stage. -/
def releaseStage (l : Launch) (m : Module) (k : Nat) (s : State) : State :=
  let st := stagesOf m
  mapLaunch l.id (fun c => if c.run = .stopped ∧ c.issued = false ∧ st.getD c.bind.actor 0 = k then { c with run := .running } else c) s

end Sys2Proof.Machine
end

