-- ==== Sys2Proof/Machine/ModuleDev.lean ====
section
/-!
DEFINITION. Loading a module (R309, R374): the checks of its container and its graph, whether it fits at all, and its code and
objects in memory.
-/

namespace Sys2Proof.Machine

open Sys2Proof

/-- The ranges of a module's GLOBAL objects. -/
def globalSpans (m : Module) : List (Nat × Nat) :=
  (m.handles.filter (fun h => h.space == 1 && h.length != 0)).map (fun h => (h.base, h.length))

/-- Is no range met by a later one of the list? -/
def disjoint : List (Nat × Nat) → Bool
  | [] => true
  | x :: xs => xs.all (fun y => !overlaps x.1 x.2 y.1 y.2) && disjoint xs

/-- Is every page of a virtual range mapped, and may its homes be written now? -/
def spanReady (s : State) (asid : Nat) (r : Nat × Nat) : Bool :=
  (List.range ((r.1 + r.2 - 1) / 4096 + 1 - r.1 / 4096)).all (fun i =>
    let va := (r.1 / 4096 + i) * 4096
    match walk s asid va with
    | none => false
    | some e => !onCode s (homeKey s e va) && (homeReady s (homeKey s e va) true).isNone)

/-- What firmware allocates for a module (R374): an ASID of its own, and for each GLOBAL object memory that is mapped, and that
nothing else of the module lies in. -/
def allocated (s t : State) (m : Module) (count : Nat) : Bool :=
  !s.disp.modules.any (fun x => x.asid == m.asid) && decide (m.handles.length < count) &&
  disjoint ((m.codeVa, m.codeSize) :: globalSpans m) && (globalSpans m).all (spanReady t m.asid)

/-- A module is loaded: container checks, analysis, then its code and its GLOBAL objects are in place.  `root` is the
table of its ASID, `codeAt` the physical address of its code.  A load for which nothing is allocated so does not happen.
Modules are loaded from stage 8 on (R405).
DESIGN CHOICE, safe (log entry 78). -/
def execModuleLoad (id asid root codeAt : Nat) (bases : List Nat) (file : List (BitVec 8)) (s : State) : Out :=
  if (loaded s id).isSome ∨ s.plat.stage < 8 ∨ 10 < s.plat.stage then .next s
  else
    let st := containerStatus s file
    let fail := fun (c : Nat) => { s with disp := { s.disp with loadStatus := c } }
    if st ≠ 0 then .next (fail st)
    else
      let m := moduleOf id asid codeAt bases file
      let clusters := if s.plat.gl4012 then 12 else 16
      let r := if hasGraph file then analyse m clusters (declaredStep file)
        else if moduleFits m clusters 0 then (0, { m with q := m.actors.map (fun _ => 1) }) else (8, m)
      if r.1 ≠ 0 then .next (fail r.1)
      else if (findPlace (emptied false s) r.2 64).isNone then .next (fail 8)
      else
        let t := { s with
          disp := { s.disp with
            modules := putBy Module.id { r.2 with digest := sha384 file } s.disp.modules, loadStatus := 0
            toLower := s.disp.toLower ++ (if sameRevision s then (inService s).map (fun c => (c, id)) else []) }
          host := { s.host with roots := putBy (·.1) (asid, root) s.host.roots }
          mem := { s.mem with hbm := s.mem.hbm.writeBytes codeAt (bodyOfType file 1) } }
        .next (if allocated s t m bases.length then initGlobals r.2 (m.data ++ undeclared m) t else s)

end Sys2Proof.Machine
end

