-- ==== Sys2Proof/Machine/LaunchDev.lean ====
section
/-!
DEFINITION. Device steps of the dispatcher: doorbells, teardown and reset (R302, R329, R330), dependencies (R305),
dispatch (R306, R310), residency (R307, R331, R388), and release by stages (R311).
-/

namespace Sys2Proof.Machine

open Sys2Proof

/-! ### Doorbells (R302) -/

/-- The records that a doorbell of `n` carries: from the host's cursor on. -/
def carried (q : Queue) (n : Nat) : List (List Word64) :=
  (List.range n).map (fun i => (getBy (·.1) ((q.cursor + i) % 32) (0, []) q.window).2)

/-- The status word that the register at 0x808 of a queue's page reads as: busy, serial, dberr, pending. -/
def statusWord (q : Queue) : Word64 :=
  nat64 (boolBit q.busy 63 + q.nextSeq % 65536 * 2 ^ 16 + boolBit q.dberr 6 + q.store.length)

/-- Complete some records of a queue with one word. -/
def completeAll (q : Nat) (word : Word64) : List (List Word64) → State → State
  | [], s => s
  | ws :: rs, s => completeAll q word rs (complete q ws word s)

/-- Accept some host records. -/
def acceptAll (q : Nat) : List (List Word64) → State → State
  | [], s => s
  | ws :: rs, s => acceptAll q rs (acceptRec q { words := ws, seq := 0 } s)

/-- A doorbell takes effect. -/
def doorbell (q n : Nat) (s : State) : State :=
  let qu := queueAt s q
  if n = 0 then s
  else if 33 ≤ n then putQueue { qu with dberr := true } s
  else if 32 < qu.store.length + n then completeAll q (cwWord statusNofit 1 0 0) (carried qu n) s
  else acceptAll q (carried qu n) (putQueue { qu with cursor := (qu.cursor + n) % 32 } s)

/-- A doorbell; while the queue is busy or a brown-out runs it is held. -/
def execDoorbell (queue : Nat) (n : BitVec 6) (s : State) : Out :=
  let qu := queueAt s queue
  if 64 ≤ queue then .next s
  else if qu.busy || holding s then .next (putQueue { qu with heldDb := qu.heldDb ++ [n.toNat] } s)
  else .next (doorbell queue n.toNat s)

/-! ### Teardown and reset (R329, R330) -/

/-- What is kept for the head of a queue is given back; a context that was only asked to yield runs on. -/
def dropReserved (queue : Nat) (s : State) : State :=
  let mine := (s.disp.reserved.filter (fun r => r.2 == queue)).map (·.1)
  let f := fun (c : Ctx) =>
    if mine.contains c.id then { c with
      pre := if c.pre = .requested then .running else c.pre
      deadline := if c.pre = .requested ∨ c.pre = .held then none else c.deadline } else c
  { s with
    cur := f s.cur, others := s.others.map f
    disp := { s.disp with reserved := s.disp.reserved.filter (fun r => r.2 != queue) } }

/-- Does a teardown of a queue free a tag: of a dependency of its records, or of the residency of one of its launches (R389)? -/
def freedTag (s : State) (q : Nat) (t : TagEntry) : Bool :=
  let mine := fun (id : Nat) => (launchAt s id).queue == q && (launchAt s id).phase != 4
  (t.kind == 2 && ((t.source == 1 && t.who == q) || (t.source == 0 && mine t.who))) || (t.kind == 3 && t.source == 0 && mine t.who)

/-- A queue becomes busy: its pending records are dropped. -/
def teardown (q : Nat) (isReset : Bool) (s : State) : State :=
  let qu := queueAt s q
  let s := putQueue { qu with
    busy := true, isReset := qu.isReset || isReset, store := []
    since := if qu.busy then qu.since else s.plat.moment } s
  let s := { s with host := { s.host with tags := s.host.tags.filter (fun t => !freedTag s q t) } }
  completeAll q (cwWord statusDropped 0 0 0) (qu.store.map (·.words)) (dropReserved q s)

/-- A write of QCTL; a brown-out holds it. -/
def qctl (q : Nat) (isReset : Bool) (s : State) : State :=
  let qu := queueAt s q
  if 64 ≤ q then s
  else if holding s then putQueue { qu with heldDb := qu.heldDb ++ [if isReset then 65 else 64] } s
  else teardown q isReset s

def execQctlTeardown (queue : Nat) (s : State) : Out := .next (qctl queue false s)
def execQctlReset (queue : Nat) (s : State) : Out := .next (qctl queue true s)

/-- End some launches with ABORTED, their uncommitted steps discarded. -/
def abortAll : List Nat → State → State
  | [], s => s
  | l :: ls, s => abortAll ls (endLaunch l statusAborted 0 0 (rollback l s))

/-- Held writes of a queue take effect, in order: doorbells, and teardowns of a brown-out's time.
DEDUCED, unsafe (log entry 45). -/
def playHeld (q : Nat) : List Nat → State → State
  | [], s => s
  | n :: ns, s =>
    let s := if n = 64 then teardown q false s
      else if n = 65 then teardown q true s
      else if (queueAt s q).busy then putQueue { queueAt s q with heldDb := (queueAt s q).heldDb ++ [n] } s
      else doorbell q n s
    playHeld q ns s

/-- Held records of device-side LAUNCHes are accepted, as many as the store has room for; the others wait for room.
DEDUCED, unsafe (log entry 45). -/
def acceptHeld (q : Nat) : List QEntry → State → State
  | [], s => s
  | e :: es, s =>
    if (queueAt s q).store.length < 32 then acceptHeld q es (acceptRec q e s)
    else putQueue { queueAt s q with heldRec := e :: es } s

/-- Records that wait for room in the stores of some queues are accepted where there is. -/
def acceptWaiting : List Nat → State → State
  | [], s => s
  | q :: qs, s =>
    let qu := queueAt s q
    acceptWaiting qs (if qu.busy then s else acceptHeld q qu.heldRec (putQueue { qu with heldRec := [] } s))

/-- The teardown is complete: the queue's launches have ended, and what was held takes effect: LAUNCHes, for which the
queue has room, then doorbells, but for those that a brown-out holds on (R407).
DEDUCED, unsafe (log entry 45). -/
def execQueueTeardownComplete (queue : Nat) (s : State) : Out :=
  let qu := queueAt s queue
  if qu.busy = false then .next s
  else
    let ls := (s.disp.launches.filter (fun l => l.queue == queue && l.phase != 4)).map (·.id)
    let s := abortAll ls s
    let qu := queueAt s queue
    let now := if holding s then [] else qu.heldDb
    let q0 := { qu with busy := false, isReset := false, heldDb := if holding s then qu.heldDb else [], heldRec := [] }
    let q0 := if qu.isReset then { q0 with nextSeq := 0, cursor := 0, dberr := false } else q0
    .next (playHeld queue now (acceptHeld queue qu.heldRec (putQueue q0 s)))

/-! ### Dependencies (R305) -/

/-- Remove a record of a queue's store. -/
def dropEntry (q index : Nat) (s : State) : State :=
  let qu := queueAt s q
  putQueue { qu with store := qu.store.eraseIdx index } s

/-- A dependency has failed: the record is completed with ABORTED. -/
def failDep (q index : Nat) (e : QEntry) (s : State) : State :=
  complete q e.words (cwWord statusAborted 0 0 0) (dropEntry q index s)

/-- The dispatcher reads a dependency word: it is satisfied, has failed, or is watched on; a page without a valid
mapping is asked for. -/
def execDependencySatisfied (queue index entry : Nat) (s : State) : Out :=
  match (queueAt s queue).store[index]? with
  | none => .next s
  | some e =>
    if e.deps.getD entry true || e.heldBy.isSome then .next s
    else
      match loaded s (recModule e.words) with
      | none => .next s
      | some m =>
        let va := recDep e.words entry
        match walk s m.asid va with
        | none =>
          let asked := s.host.tags.any (fun t => t.kind == 2 && t.source == 1 && t.who == queue && t.seq == e.seq && t.entry == entry)
          if asked then .next s
          else
            match residencyRequest queue m.asid va 1 false { tag := 0, kind := 2, who := queue, source := 1, seq := e.seq, entry := entry } s with
            | some (_, t) => .next t
            | none => .next s
        | some x =>
          let st := homeReadN s (homeKey s x va) 8 / 2 ^ 56
          if (homeReady s (homeKey s x va) false).isSome then .next s
          else if st = recWant e.words entry then
            let qu := queueAt s queue
            .next (putQueue { qu with store := setAt qu.store index { e with deps := setAt e.deps entry true } } s)
          else if st = 0 then .next s
          else .next (failDep queue index e s)

/-! ### Dispatch (R306, R310) -/

/-- The heads that are eligible: queue and record. -/
def heads (s : State) : List (Nat × QEntry) :=
  s.disp.queues.filterMap (fun q =>
    if q.busy then none
    else match q.store with
      | e :: _ => if e.heldBy.isNone && e.deps.all (· == true) then some (q.id, e) else none
      | [] => none)

/-- Does a head go before another: higher prio, or earlier in the rotation? -/
def goesBefore (s : State) (a b : Nat × QEntry) : Bool :=
  let turn := fun (q : Nat) => (q + 127 - s.disp.lastQ) % 64
  decide (recPrio b.2.words < recPrio a.2.words) ||
  (recPrio b.2.words == recPrio a.2.words && decide (turn a.1 < turn b.1))

/-- Insert a head in order. -/
def insertHead (s : State) (h : Nat × QEntry) : List (Nat × QEntry) → List (Nat × QEntry)
  | [] => [h]
  | x :: xs => if goesBefore s h x then h :: x :: xs else x :: insertHead s h xs

/-- The eligible heads in the order in which the dispatcher takes them. -/
def orderedHeads (s : State) : List (Nat × QEntry) := (heads s).foldl (fun hs h => insertHead s h hs) []

/-- The least configured cache size among the clusters in service. -/
def leastFrames (s : State) : Nat :=
  match (inService s).map (fun c => (clusterAt s c).frames) with
  | [] => 0
  | f :: fs => fs.foldl min f

/-- Can a module be placed in empty clusters with the caches that they have?  What no placement can do without is looked at
first.
DEDUCED, unsafe (log entry 44). -/
def placeable (s : State) (m : Module) : Bool :=
  moduleFits m (inService s).length (leastFrames s) && (findPlace (emptied true s) m 64).isSome

/-- The lowest number that no running launch has. -/
def freshLaunch (s : State) : Nat :=
  match (List.range 65537).find? (fun i => i != 0 && !s.disp.launches.any (fun l => l.id == i && l.phase != 4)) with
  | some i => i
  | none => 0

/-- Dispatch a head at a placement: it leaves its queue, and what the placement takes is kept for it until its ranges are
resident (R307). -/
def dispatchAt (h : Nat × QEntry) (m : Module) (place : List Nat) (s : State) : State :=
  let ps := placed m place
  let id := freshLaunch s
  let l : Launch := {
    id := id, queue := h.1, seq := h.2.seq, words := h.2.words, module := m.id, asid := m.asid
    prio := recPrio h.2.words, phase := 1, since := s.steps, area := id % 65536, place := place, parts := (bases s m h.1 ps []).getD []
    kept := (placeClusters place).map (fun c => (c, (chooseArea m s h.1 c (inCluster c ps)).pages.map (·.2)))
    handoff := h.2.handoff }
  putLaunch l (dropEntry h.1 0 (dropReserved h.1 { s with disp := { s.disp with lastQ := h.1 } }))

/-- The first head that the placement is for: it may be placed so, or it could be placed in no empty clusters.  No head is
passed over that can be placed (R306). -/
def tryHeads (place : List Nat) : List (Nat × QEntry) → State → State
  | [], s => s
  | h :: hs, s =>
    match loaded s (recModule h.2.words) with
    | none => tryHeads place hs s
    | some m =>
      if placeable s m = false then
        complete h.1 h.2.words (cwWord statusNofit 2 0 0) (dropEntry h.1 0 (dropReserved h.1 s))
      else if placementOk s m h.1 place then dispatchAt h m place s
      else if (findPlace s m h.1).isSome then s
      else tryHeads place hs s

/-- The place that the dispatcher finds for the first head that has one. -/
def foundPlace (s : State) : List Nat :=
  ((orderedHeads s).findSome? (fun h => (loaded s (recModule h.2.words)).bind (fun m => findPlace s m h.1))).getD []

/-- The dispatcher takes a head, and the leaves place it at `place`, a context for each rank; what has waited for room in a
queue, for a tag or for its turn at a home goes first.  Nothing is dispatched before stage 9 (R405).
DEDUCED, unsafe (log entry 41). -/
def execDispatch (place : List Nat) (s : State) : Out :=
  if braking s || !launchesRun s then .next s
  else
    let s := acceptWaiting ((s.disp.queues.filter (fun q => q.heldRec != [])).map (·.id)) (retryCws s)
    .next (tryHeads place (orderedHeads s) s)

/-! ### Residency (R307, R331, R388) -/

/-- The residency list that rlist names: handle, offset, length of each entry; or the first page without a valid
mapping, or none where a home cannot be read yet (R377, R379). -/
def readList (s : State) (asid rlist : Nat) : Nat → Except (Option Nat) (List (Nat × Nat × Nat))
  | 0 => .ok []
  | n + 1 =>
    match readList s asid rlist n with
    | .error va => .error va
    | .ok es =>
      let word := fun (i : Nat) =>
        let va := rlist + 24 * n + 8 * i
        match walk s asid va with
        | none => Except.error (some va)
        | some e => if (homeReady s (homeKey s e va) false).isSome then Except.error none
          else Except.ok (homeReadN s (homeKey s e va) 8)
      match word 0, word 1, word 2 with
      | .ok a, .ok b, .ok c => .ok (es ++ [(a % 2 ^ 32, b, c)])
      | .error va, _, _ => .error va
      | _, .error va, _ => .error va
      | _, _, .error va => .error va

/-- The handle entry a range names, the module's ranges use handles from 4. -/
def rangeEntry (m : Module) (h : Nat) : Option HandleEntry := if h < 4 then none else m.handles[h - 4]?

/-- Pages of a range: first virtual page address and their number. -/
def rangePages (m : Module) (r : Nat × Nat × Nat) : Nat × Nat :=
  match rangeEntry m r.1 with
  | none => (0, 0)
  | some e =>
    let lo := e.base + r.2.1
    if r.2.2 = 0 then (lo / 4096 * 4096, 0) else (lo / 4096 * 4096, (lo + r.2.2 - 1) / 4096 + 1 - lo / 4096)

/-- The first run of pages without a valid mapping among `n` pages: first address and length. -/
def unmappedRun (s : State) (asid : Nat) : Nat → Nat → Option (Nat × Nat)
  | _, 0 => none
  | va, n + 1 =>
    if (walk s asid va).isSome then unmappedRun s asid (va + 4096) n
    else
      match unmappedRun s asid (va + 4096) n with
      | some r => if r.1 = va + 4096 then some (va, r.2 + 1) else some (va, 1)
      | none => some (va, 1)

/-- The first unmapped run of some ranges, with whether the range's handle may be written. -/
def firstUnmapped (s : State) (m : Module) : List (Nat × Nat × Nat) → Option (Nat × Nat × Bool)
  | [] => none
  | r :: rs =>
    let p := rangePages m r
    match unmappedRun s m.asid p.1 p.2 with
    | some u => some (u.1, u.2, (rangeEntry m r.1).any (·.w))
    | none => firstUnmapped s m rs

/-- The pseudo-channels that hold a page of some ranges. -/
def pchsOf (s : State) (m : Module) (rs : List (Nat × Nat × Nat)) : List Nat :=
  ((rs.map (fun r =>
    let p := rangePages m r
    (List.range p.2).filterMap (fun i =>
      let va := p.1 + 4096 * i
      (walk s m.asid va).bind (fun e => if pteTgt e.pte = 0 then some (pchOf s (homeKey s e va)) else none)))).flatten).eraseDups

/-- The sector copy ports of a launch, ascending: cluster and sector.
DESIGN CHOICE, unsafe (log entry 113). -/
def portsOf (s : State) (launch : Nat) : List (Nat × Nat) :=
  let ps := (ctxsOf s launch ++ savedOf s launch).map (fun c => copyPortOf (coreOf c.id))
  ((List.range 128).map (fun i => (i / 8, i % 8))).filter ps.contains

/-- Give a port up to 4 slots of a pseudo-channel, the lowest that nobody owns. -/
def giveSlots (launch pch : Nat) (p : Nat × Nat) (s : State) : State :=
  let free := ((List.range 32).filter (fun k => !s.homes.cal.any (fun c => c.pch == pch && c.slot == k))).take 4
  let owner := BitVec.ofNat 8 (128 + p.1 % 16 * 8 + p.2 % 8)
  { s with homes := { s.homes with
      cal := s.homes.cal ++ free.map (fun k => { pch := pch, slot := k, owner := owner, launch := launch }) } }

/-- Give every port of a launch its slots of some pseudo-channels. -/
def giveAll (launch : Nat) (ports : List (Nat × Nat)) : List Nat → State → State
  | [], s => s
  | pch :: ps, s => giveAll launch ports ps (ports.foldl (fun s p => giveSlots launch pch p s) s)

/-- The stage of R307 step 2: ask for the first pages without a mapping and wait, or lease the ranges; then the launch is
placed and gets its calendar slots (step 3, R331).
DEDUCED, safe (log entry 43). -/
def execResidencyStage (id : Nat) (s : State) : Out :=
  let l := launchAt s id
  if l.phase ≠ 1 ∨ tearing s l = true ∨ s.host.tags.any (fun t => t.kind == 2 && t.source == 0 && t.who == id) = true then .next s
  else
    let m := moduleAt s l.module
    let ask := fun (va n : Nat) (w : Bool) =>
      match residencyRequest l.queue m.asid va n w { tag := 0, kind := 2, who := id, source := 0 } s with
      | some (_, t) => Host.Outcome.next t
      | none => .next s
    match readList s m.asid (recRlist l.words) (recNres l.words) with
    | .error (some va) => ask va 1 false
    | .error none => .next s
    | .ok es =>
      let rs := m.resident ++ es
      match firstUnmapped s m rs with
      | some u => ask u.1 u.2.1 u.2.2
      | none =>
        let s := placeLaunch { l with leased := rs } m s
        .next (giveAll id (portsOf s id) (pchsOf s m rs) s)

/-! ### Release (R311) -/

/-- Has every instance of a stage issued its first instruction? -/
def stageIssued (s : State) (l : Launch) (m : Module) (k : Nat) : Bool :=
  (ctxsOf s l.id ++ savedOf s l.id).all (fun c => (stagesOf m).getD c.bind.actor 0 != k || c.issued)

/-- The next stage is released. -/
def execStageRelease (id : Nat) (s : State) : Out :=
  let l := launchAt s id
  let m := moduleAt s l.module
  if brownStopped s || tearing s l then .next s
  else if l.phase = 2 then .next (releaseStage l m 0 (putLaunch { l with phase := 3, stage := 0 } s))
  else if l.phase = 3 ∧ stageIssued s l m l.stage = true ∧ l.stage < (stagesOf m).foldl max 0 then
    .next (releaseStage l m (l.stage + 1) (putLaunch { l with stage := l.stage + 1 } s))
  else .next s

end Sys2Proof.Machine
end

