-- ==== Sys2Proof/Machine/TxSlots.lean ====
section
/-!
DEFINITION. The slots that the packet engine transmits (R394), and those that a launch's last cut leaves to it (R313).
-/

namespace Sys2Proof.Machine

open Sys2Proof

/-- A channel of a launch: its place, the key of its QCW and the fields. -/
structure NetChan where
  cluster : Nat
  area : Nat
  off : Nat
  key : Nat
  f : Qcw
  /-- area offset of slot 0 -/
  slots : Nat
  deriving DecidableEq, Repr

/-- Channel `n` of a launch, in the order of R332. -/
def netChan (s : State) (l : Launch) (n : Nat) : Option NetChan :=
  match l.carved[n]? with
  | none => none
  | some x =>
    (localKey s x.1 l.area x.2.1).map fun key =>
      let f := qcwAt s.mem.l1 key
      { cluster := x.1, area := l.area, off := x.2.1, key := key, f := f, slots := x.2.2 + ov f.base }

/-- The state in which the QCW of a channel lies in a frame, if there is one for it (R360). -/
def reachChan (l : Launch) (n : Nat) (s : State) : State :=
  match l.carved[n]? with
  | none => s
  | some x => refillPage x.1 l.area (x.2.1 / 65536) false s

/-- The counter up to which a channel's slots may be taken: publication, or the last commit. -/
def takenUpTo (l : Launch) (n : Nat) (f : Qcw) : Nat :=
  if f.imm then f.head
  else match l.committed.find? (fun x => x.1 == n) with
    | some x => x.2
    | none => f.tail

/-- Has a transmitting channel a slot that may be taken? -/
def txReady (l : Launch) (n : Nat) (c : NetChan) : Bool :=
  c.f.ok && c.f.cons == extEnd && c.f.filled != 0 && takenUpTo l n c.f != c.f.tail

/-- Area bytes of the slot at tail. -/
def tailSlot (s : State) (c : NetChan) (off n : Nat) : List Byte :=
  areaRead s c.cluster c.area (c.slots + c.f.slotOff c.f.tail 0 + off) n

/-- Words 0 and 1 of the slot at tail. -/
def slotTime (s : State) (c : NetChan) : Nat := ofBytes (tailSlot s c 0 8)
def slotLength (s : State) (c : NetChan) : Nat := ofBytes (tailSlot s c 8 2)
def slotPort (s : State) (c : NetChan) : Nat := ofBytes (tailSlot s c 10 1) % 32

/-- May a slot of this length be sent? -/
def lengthOk (len size : Nat) : Bool := decide (60 ≤ len) && decide (len ≤ 9216) && decide (len ≤ (size - 2) * 8)

/-- The slots of a channel that may be taken, from tail on; `n` bounds them. -/
def takenSlots (s : State) (l : Launch) (chan : Nat) : Nat → NetChan → List TxSlot
  | 0, _ => []
  | n + 1, c =>
    if txReady l chan c then
      let len := slotLength s c
      { launch := l.id, chan := chan, port := slotPort s c, time := slotTime s c, ok := lengthOk len c.f.size
        frame := tailSlot s c 16 len } :: takenSlots s l chan n { c with f := { c.f with tail := c.f.advance c.f.tail 1 } }
    else []

/-- The slots that a launch leaves to the packet engine as it ends with its last cut.
DEDUCED, unsafe (log entry 118). -/
def keepSlots (launch : Nat) (s : State) : State :=
  let l := launchAt s launch
  let s := forEach (fun i s => reachChan l i s) (List.range l.carved.length) s
  let left := ((List.range l.carved.length).map (fun i => match netChan s l i with
    | some c => takenSlots s l i 65536 c
    | none => [])).flatten
  { s with host := { s.host with txLeft := s.host.txLeft ++ left } }

end Sys2Proof.Machine
end

