-- ==== Sys2Proof/Machine/StepDev.lean ====
section
/-!
DEFINITION. Device steps of a running launch: the step cut (R313, R366), tasks (R317, R318, R335, R336), arrivals
(R319, R334), the moving of a rank (R320, R352), and all-asleep detection (R328).
-/

namespace Sys2Proof.Machine

open Sys2Proof

/-! ### The step cut (R313) -/

/-- Does a launch have a traveller anywhere? -/
def hasTraveller (s : State) (launch : Nat) : Bool :=
  s.disp.flight.any (fun f => match f with
    | .trav _ a => a.launch == launch
    | _ => false) ||
  s.cores.any (fun k => (k.arr ++ k.arrRing ++ k.arrOver).any (fun a => a.launch == launch) ||
    (k.deque ++ k.dequeRing).any (fun d => d.launch == launch))

/-- Has the step ended: its knot has flipped, or a launch without a graph has gone idle? -/
def stepEnded (s : State) (l : Launch) : Bool :=
  if (moduleAt s l.module).graph.isSome then l.stepDone
  else (ctxsOf s l.id).all (fun c => c.run == .idle) && savedOf s l.id == [] && !hasTraveller s l.id

/-- Messages of the launch that a cut waits for: they belong to the step that ends. -/
def stepQuiet (s : State) (launch : Nat) : Bool :=
  s.disp.flight.all (fun f => match f with
    | .trav _ _ => true
    | f => !flightOf s launch f)

/-- Has a step ended whose cut is still to come?  A fault or a rollback waits for it (R356). -/
def cutPending (s : State) (l : Launch) : Bool :=
  l.phase == 3 && !tearing s l && !brownStopped s && stepEnded s l && !heldLaunch s l.id

/-- May the cut be made now?
DEDUCED, safe (log entry 46). -/
def mayCut (s : State) (l : Launch) : Bool :=
  cutPending s l && stepQuiet s l.id && (ctxsOf s l.id).all (fun c => canStop s c.id)

/-- The restart point of a context, with STEP already incremented. -/
def restartPoint (cmds : List Cmd) (slots shadow : List Slot) (c : Ctx) : Ctx :=
  let a := { c.a with sr := { c.a.sr with step := c.a.sr.step + 1 } }
  { c with
    a := a, restart := some a, restartRun := if c.run = .idle then .idle else .running
    restartCmds := cmds, restartSlots := slots, restartShadow := shadow }

/-- A context on its core stops, and its restart point is recorded. -/
def cutCtx (id : Nat) (s : State) : State :=
  let s := stopCtx id s
  let c := ctxOf s id
  putCtx (restartPoint (c.savedCmds ++ cmdsOf s id) (partSlots s c) (c.savedShadow ++ partShadow s c) c) s

/-- The heads of the channels that transmit at commit (R366, R394). -/
def commitHeads (s : State) (l : Launch) : List (Nat × Nat) :=
  (enumerate 0 l.carved).filterMap (fun x =>
    (localKey s x.2.1 l.area x.2.2.1).bind (fun key =>
      let q := qcwAt s.mem.l1 key
      if q.cons = extEnd ∧ (q.crel = true ∨ q.imm = false) then some (x.1, q.head) else none))

/-- The records of the step's device-side LAUNCHes become eligible, or fail with BADREC. -/
def commitRecords (launch : Nat) (s : State) : State :=
  let mine := fun (e : QEntry) => e.heldBy == some launch
  let bad := (s.disp.queues.map (fun q => ((q.store.filter mine).filter (fun e => badRec s e.words)).map (fun e => (q.id, e)))).flatten
  let s := { s with disp := { s.disp with queues := s.disp.queues.map (fun q =>
    { q with
      store := (q.store.filter (fun e => !(mine e && badRec s e.words))).map (fun e => if mine e then { e with heldBy := none } else e)
      heldRec := q.heldRec.map (fun e => if mine e then { e with heldBy := none } else e) }) } }
  bad.foldl (fun s qe => complete qe.1 qe.2.words (cwWord statusBadrec 0 0 0) s) s

/-- Each barrier unit's count and phase are recorded. -/
def cutBarriers (launch : Nat) (s : State) : State :=
  { s with clusters := s.clusters.map (fun c => { c with bars := c.bars.map (fun b =>
      if b.launch = launch then { b with cutArrived := b.arrived, cutPhase := b.phase } else b) }) }

/-- The cut of a launch's step.  The slots that it commits are the packet engine's, also where the launch ends with it. -/
def stepCut (id : Nat) (s : State) : State :=
  let s := forEach cutCtx ((ctxsOf s id).map (·.id)) s
  let s := { s with disp := { s.disp with savedCtx := s.disp.savedCtx.map (fun c =>
    if c.bind.launch = id then restartPoint c.savedCmds c.savedSlots c.savedShadow c else c) } }
  let s := cutBarriers id (drainAsid (launchAt s id).asid (clustersOf s id) s)
  let l := launchAt s id
  let heads := commitHeads s l
  let s := { s with host := { s.host with ioSent := l.held.reverse ++ s.host.ioSent } }
  let s := putLaunch { l with
    undo := [], nonRollback := false, held := [], poisons := 0, stepDone := false, committed := heads
    step := l.step + 1, done := l.done + 1 } s
  let s := commitRecords id s
  if (moduleAt s l.module).graph.isNone || (recSteps l.words != 0 && decide (recSteps l.words ≤ l.done + 1)) then
    endLaunch id statusDone 0 0 (keepSlots id s)
  else s

def execStepCut (id : Nat) (s : State) : Out := if mayCut s (launchAt s id) then .next (stepCut id s) else .next s

/-! ### Arrivals (R319, R334) -/

/-- Slots of the arrival ring of a launch on a core. -/
def ringSlots (s : State) (core launch : Nat) : Nat := match ringOwner s core launch with
  | some c => c.bind.ring
  | none => 0

/-- The area offset of the slot of an arrival ring that an index names. -/
def arrSlot (c : Ctx) (i : Nat) : Nat := c.bind.arqOff + 32 + i % c.bind.ring * 80

/-- Write the words of the ring's travellers, from an index on. -/
def writeSlots (c : Ctx) : Nat → List Arrival → State → State
  | _, [], s => s
  | i, a :: as, s => writeSlots c (i + 1) as (putTrav c (arrSlot c i) a.trav s)

/-- The entries of a launch take what stands in their slots. -/
def readSlots (s : State) (c : Ctx) : Nat → List Arrival → List Arrival
  | _, [] => []
  | i, a :: as =>
    if a.launch = c.bind.launch then { a with trav := travAt s c (arrSlot c i) } :: readSlots s c (i + 1) as
    else a :: readSlots s c i as

/-- The head and the tail of the ring's QCW in L1. -/
def ringEnds (s : State) (c : Ctx) : Nat × Nat :=
  let w := areaWord s (clusterOf c.id) c.bind.area c.bind.arqOff
  (w % 2 ^ 32, w / 2 ^ 32)

/-- The device reads the travellers of an arrival ring from L1 (R31). -/
def loadRing (core launch : Nat) (s : State) : State :=
  match ringOwner s core launch with
  | none => s
  | some c =>
    if c.bind.ring = 0 then s
    else
      let k := coreAt s core
      putCore { k with arrRing := readSlots s c (ringEnds s c).2 k.arrRing } s

/-- The ring in L1 follows the list: `entered` travellers have come since (R243). -/
def syncRing (core launch entered : Nat) (s : State) : State :=
  match ringOwner s core launch with
  | none => s
  | some c =>
    if c.bind.ring = 0 then s
    else
      let es := (coreAt s core).arrRing.filter (fun a => a.launch == launch)
      let q := { qcwAt [] 0 with depth := c.bind.ring }
      let head := q.advance (ringEnds s c).1 entered
      let tail := (head + q.wrap - es.length) % q.wrap
      writeSlots c tail es (setAreaWord launch (clusterOf c.id) c.bind.area c.bind.arqOff (tail * 2 ^ 32 + head) s)

/-- Free hardware entries take the oldest travellers of the ring. -/
def arrRefill (core : Nat) : Nat → State → State
  | 0, s => s
  | n + 1, s =>
    let k := coreAt s core
    match k.arrRing with
    | [] => s
    | a :: _ =>
      if k.arr.length < 4 then
        let a := ((coreAt (loadRing core a.launch s) core).arrRing.head?).getD a
        let s := loadRing core a.launch s
        arrRefill core n (syncRing core a.launch 0 (putCore { coreAt s core with
          arr := k.arr ++ [a], arrRing := (coreAt s core).arrRing.drop 1 } s))
      else s

/-- A traveller that enters a ring or an overflow list. -/
def spilled (a : Arrival) : Arrival := { a with trav := setSpl a.trav }

/-- Has the ring of a launch on a core a free slot? -/
def ringRoom (s : State) (core launch : Nat) : Bool :=
  decide (((coreAt s core).arrRing.filter (fun a => a.launch == launch)).length < ringSlots s core launch)

/-- A traveller arrives at its rank's core; a full overflow list ends the launch. -/
def execTravellerArrival (index : Nat) (s : State) : Out :=
  match s.disp.flight[index]? with
  | some (.trav from_ a) =>
    let e := rankEntry (launchAt s a.launch) a.rank
    if e.transit || !oldestOf s index from_ a.launch a.rank || stopped s (dieOf e.ctx) then .next s
    else
      let core := coreOf e.ctx
      let s := dropFlight index s
      let k := coreAt s core
      let k := { k with arrc := k.arrc + 1 }
      if k.arr.length < 4 ∧ k.arrRing = [] ∧ k.arrOver = [] then .next (putCore { k with arr := k.arr ++ [a] } s)
      else if ringRoom s core a.launch = true ∧ k.arrOver = [] then
        let s := loadRing core a.launch s
        .next (syncRing core a.launch 1 (putCore { k with
          arsp := k.arsp + 1, arrRing := (coreAt s core).arrRing ++ [spilled a] } s))
      else if k.arrOver.length < 819 then
        .next (putCore { k with arov := k.arov + 1, arrOver := k.arrOver ++ [spilled a] } s)
      else .next (faultLaunch a.launch Cause.space.code (fieldOf (travW a.trav 0) 48 16) s)
  | _ => .next s

/-- The leaf moves the oldest traveller of a core's overflow list into a freed slot of the ring, or of the hardware where
there is no ring (R334).  Of a core that two launches share, the list's oldest goes first, whichever launch's ring has room.
DESIGN CHOICE, unsafe (log entry 39). -/
def execOverflowListMove (core : Nat) (s : State) : Out :=
  let k := coreAt s core
  match k.arrOver with
  | [] => .next s
  | a :: as =>
    if ringSlots s core a.launch = 0 then
      if k.arr.length < 4 ∧ k.arrRing = [] then .next (putCore { k with arr := k.arr ++ [a], arrOver := as } s) else .next s
    else if ringRoom s core a.launch then
      let s := loadRing core a.launch s
      .next (arrRefill core 4 (syncRing core a.launch 1 (putCore { coreAt s core with
        arrRing := (coreAt s core).arrRing ++ [a], arrOver := as } s)))
    else .next s

/-! ### Work (R317, R318, R335) -/

/-- The oldest traveller addressed to a context in the hardware entries and the ring of its core; one in the overflow
list has to reach the ring first (R334). -/
def ownArrival (s : State) (c : Ctx) : Option Arrival :=
  let k := coreAt s (coreOf c.id)
  (k.arr ++ k.arrRing).find? (fun a => a.launch == c.bind.launch && a.rank == c.bind.rank)

/-- Take an arrival out of its tier: what its slot holds now, and the state after it. -/
def takeArrival (core : Nat) (a : Arrival) (s : State) : Arrival × State :=
  let k := coreAt s core
  if k.arr.contains a then (a, arrRefill core 4 (putCore { k with arr := dropFirst a k.arr } s))
  else
    let i := k.arrRing.idxOf a
    let s := loadRing core a.launch s
    let ring := (coreAt s core).arrRing
    (ring.getD i a, arrRefill core 4 (syncRing core a.launch 0 (putCore { coreAt s core with arrRing := ring.eraseIdx i } s)))

/-- Travellers return from the ring when the hardware deque is empty, the newest 16.
DEDUCED, unsafe (log entry 47). -/
def dequeRefill (core : Nat) (s : State) : State :=
  let k := coreAt s core
  if k.deque = [] then
    let n := k.dequeRing.length - 16
    putCore { k with deque := (k.dequeRing.drop n).map (fromRing s core), dequeRing := k.dequeRing.take n } s
  else s

/-- A launch's youngest, and oldest, traveller of a deque. -/
def youngest (k : Core) (launch : Nat) : Option DequeEntry :=
  (k.dequeRing ++ k.deque).foldl (fun b d => if d.launch = launch then some d else b) none
def oldest (k : Core) (launch : Nat) : Option DequeEntry := (k.dequeRing ++ k.deque).find? (fun d => d.launch == launch)

/-- Take the youngest, or the oldest, entry that equals `d`: what it holds now, and the state after it. -/
def takeYoungest (core : Nat) (d : DequeEntry) (s : State) : DequeEntry × State :=
  let k := coreAt s core
  if k.deque.contains d then (d, dequeRefill core (putCore { k with deque := (dropFirst d k.deque.reverse).reverse } s))
  else (fromRing s core d, dequeRefill core (putCore { k with dequeRing := (dropFirst d k.dequeRing.reverse).reverse } s))
def takeOldest (core : Nat) (d : DequeEntry) (s : State) : DequeEntry × State :=
  let k := coreAt s core
  if k.dequeRing.contains d then (fromRing s core d, dequeRefill core (putCore { k with dequeRing := dropFirst d k.dequeRing } s))
  else (d, dequeRefill core (putCore { k with deque := dropFirst d k.deque } s))

/-- The cores that a thief scans, in order. -/
def stealScan (s : State) (c : Ctx) : List Nat :=
  let size := match (actorAt (moduleAt s c.bind.module) c.bind.actor).steal with
    | 0 => 8
    | 1 => 128
    | _ => 1024
  let own := coreOf c.id
  (List.range (size - 1)).map (fun i => own / size * size + (own + 1 + i) % size)

/-- The first non-empty deque of the scan: its core and its oldest traveller. -/
def stealFrom (s : State) (c : Ctx) : Option (Nat × DequeEntry) :=
  ((stealScan s c).filter (fun k => s.cores.any (fun x => x.id == k))).foldl (fun b k => match b with
    | some x => some x
    | none => (oldest (coreAt s k) c.bind.launch).map (fun d => (k, d))) none

/-- A traveller begins to run in an idle context. -/
def beginTask (id : Nat) (t : Traveller) (parent : Option (Nat × Nat)) (s : State) : State :=
  let s := childBegan (ctxOf s id).bind.launch parent s
  let c := ctxOf s id
  acquired id (putCtx (startTask (moduleAt s c.bind.module) t c) s)

/-- May a context look for work: it is idle, and its launch runs? -/
def mayWork (s : State) (c : Ctx) : Bool :=
  c.run == .idle && (c.pre == .running || c.pre == .requested) && !heldLaunch s c.bind.launch && !tornDown s c.bind.launch &&
  (launchAt s c.bind.launch).phase == 3 && !(rankEntry (launchAt s c.bind.launch) c.bind.rank).transit &&
  (dieAt s (dieOf c.id)).relock.isNone && !brownStopped s

/-- A steal by an idle context that has found nothing on its own core. -/
def steal (c : Ctx) (s : State) : State :=
  match stealFrom s c with
  | none => s
  | some (k, d) => (fun x => beginTask c.id x.1.trav (some d.parent) x.2) (takeOldest k d s)

/-- An idle context takes its next work: an arrival for its rank, the youngest of its core's deque, or a steal. -/
def execTaskPickup (ctx : Nat) (s : State) : Out :=
  let c := ctxOf s ctx
  if mayWork s c = false then .next s
  else
    match ownArrival s c with
    | some a =>
      let x := takeArrival (coreOf ctx) a s
      let s := beginTask ctx x.1.trav a.parent x.2
      .next (putCtx (owe a.handoff (ctxOf s ctx)) s)
    | none =>
      let k := coreAt s (coreOf ctx)
      match youngest k c.bind.launch with
      | some d =>
        let x := takeYoungest (coreOf ctx) d s
        .next (beginTask ctx x.1.trav (some d.parent) x.2)
      | none => .next (steal c s)

/-- A thief takes the oldest traveller of a deque in its stealing domain. -/
def execSteal (ctx : Nat) (s : State) : Out :=
  let c := ctxOf s ctx
  if mayWork s c && (ownArrival s c).isNone && (youngest (coreAt s (coreOf ctx)) c.bind.launch).isNone then .next (steal c s)
  else .next s

/-- Is there work for an idle context? -/
def hasWork (s : State) (c : Ctx) : Bool :=
  (ownArrival s c).isSome || (youngest (coreAt s (coreOf c.id)) c.bind.launch).isSome || (stealFrom s c).isSome

/-! ### Moving a rank (R320, R352) -/

/-- Change the rank-table entry of a rank. -/
def setEntry (launch rank : Nat) (e : RankEntry) (s : State) : State :=
  let l := launchAt s launch
  putLaunch { l with ranks := setAt l.ranks rank e } s

/-- Move the frames of an area to another cluster; what has no frame there goes to the backing store. -/
def moveFrames (from_ goal area : Nat) : List (Nat × BitVec 64) → State → State
  | [], s => s
  | f :: fs, s =>
    let s := evictFrame from_ f.1 s
    let s := { s with mem := { s.mem with backing := s.mem.backing.map (fun b =>
      if b.cluster = from_ ∧ b.area = area then { b with cluster := goal } else b) } }
    moveFrames from_ goal area fs (refillPage goal area (pmPage f.2) (pmPin f.2) s)

/-- Barrier units of a launch in another cluster, with their counts and phases. -/
def moveUnits (launch from_ goal : Nat) (s : State) : State :=
  let old := (clusterAt s from_).bars.filter (fun b => b.launch == launch)
  let c := clusterAt s from_
  let s := putCluster { c with bars := c.bars.filter (fun b => b.launch != launch) } s
  let d := clusterAt s goal
  let new := ((freeUnits d).zip old).map (fun x => { x.2 with unit := x.1 })
  putCluster { d with bars := new.foldl (fun bs b => putBy BarUnit.unit b bs) d.bars } s

/-- The unit in a cluster that stands for the barrier a kept arrival names. -/
def movedUnit (s : State) (launch from_ goal unit : Nat) : Nat :=
  match (clusterAt s from_).bars.find? (fun b => b.unit == unit && b.launch == launch) with
  | none => unit
  | some b => match (clusterAt s goal).bars.find? (fun x => x.launch == launch && x.number == b.number) with
    | some x => x.unit
    | none => unit

/-- Everything of a launch in a cluster moves to another, the log's entries of its lines too. -/
def moveCluster (launch from_ goal : Nat) (s : State) : State :=
  let l := launchAt s launch
  let fs := (clusterAt s from_).pageMap.filter (fun f => pmValid f.2 && pmUse f.2 == 0 && pmArea f.2 == l.area)
  let s := moveFrames from_ goal l.area fs s
  let move := fun (c : Nat) => if c = from_ then goal else c
  putLaunch { l with
    carved := l.carved.map (fun x => (move x.1, x.2))
    stepKnot := l.stepKnot.map (fun k => (move k.1, k.2))
    undo := l.undo.map (fun u => if u.isLocal && u.tag == l.area then { u with cluster := move u.cluster } else u) } s

/-- The homes of the pages of an area in a cluster. -/
def areaPages (s : State) (cluster area : Nat) : List (Option Nat) :=
  ((clusterAt s cluster).pageMap.filter (fun f => pmValid f.2 && pmUse f.2 == 0 && pmArea f.2 == area)).map (fun f => homeOf f.2) ++
  (s.mem.backing.filter (fun b => b.cluster == cluster && b.area == area)).map (fun b => homeOf b.entry)

/-- The contexts that move with a rank, and where to: in its cluster a rank moves alone; to another cluster every context of
its launch in that cluster goes along, to the place that it has, since they share their LOCAL memory (R310). -/
def movers (s : State) (l : Launch) (c : Ctx) (goal : Nat) : List (Nat × Nat) :=
  if clusterOf goal = clusterOf c.id then [(c.id, goal)]
  else ((ctxsOf s l.id).filter (fun x => clusterOf x.id == clusterOf c.id)).map (fun x =>
    (x.id, if x.id = c.id then goal else clusterOf goal * 4096 + x.id % 4096))

/-- Do the partitions of some movers find bases at their goals, beside those taken before them: tile, base and count? -/
def basesFree (s : State) : List (Nat × Nat) → List (Nat × Nat × Nat) → Bool
  | [], _ => true
  | m :: ms, taken =>
    let c := ctxOf s m.1
    let n := fieldOf c.a.sr.mpart 8 8
    let used := (partitions s 64 (tileOf m.2)).filter (fun p => !(tileOf m.2 == tileOf m.1 && p == partOf c)) ++
      (taken.filter (fun x => x.1 == tileOf m.2)).map (·.2)
    match freeBase used n with
    | none => false
    | some b => basesFree s ms ((tileOf m.2, b, n) :: taken)

/-- May a rank move to a context: the contexts at its goal and of those that go along are free, their tiles have room for
the partitions, and in another cluster none of the launch's is SAVED, and its pages (R256) and barriers fit?
DEDUCED, unsafe (log entry 49). -/
def mayMove (s : State) (l : Launch) (c : Ctx) (goal : Nat) : Bool :=
  let from_ := clusterOf c.id
  let ms := movers s l c goal
  (ms.map (·.2)).eraseDups.length == ms.length && ms.all (fun m => ctxFree s 64 m.2) &&
  !bumpStalls s (clusterOf goal) && basesFree s ms [] &&
  (clusterOf goal == from_ ||
    ((savedOf s l.id).all (fun x => clusterOf x.id != from_) &&
      fits s 64 (clusterOf goal) (areaPages s from_ l.area) 0 &&
      decide ((clusterAt s (clusterOf goal)).bars.length + keptUnits s (clusterOf goal) + ((clusterAt s from_).bars.filter (fun b => b.launch == l.id)).length ≤ 64)))

/-- The context at its new place: another number, another partition base, and its engine state with it. -/
def movedCtx (s : State) (goal base : Nat) (unit : Nat → Nat) (c : Ctx) : Ctx :=
  let k := coreAt s (coreOf goal)
  let n := fieldOf c.a.sr.mpart 8 8
  let old := fieldOf c.a.sr.mpart 0 6
  let base := if n = 0 then 0 else base
  let shift := fun (x : Slot) => { x with id := x.id + base - old }
  let own := fun (x : Cmd) => { x with ctx := goal }
  let fix := fun (a : Arch) => { a with
    sr := { a.sr with mpart := nat64 (base + n * 2 ^ 8) }
    kept := a.kept.map (fun u => (unit u.1, u.2)) }
  { c with
    id := goal, a := fix c.a, restart := c.restart.map fix, restartSlots := c.restartSlots.map shift
    restartShadow := c.restartShadow.map shift, restartCmds := c.restartCmds.map own
    savedCmds := c.savedCmds.map own, savedShadow := c.savedShadow.map shift
    task := max c.task (ctxOf s goal).task + 1
    arrc0 := k.arrc, arsp0 := k.arsp, arov0 := k.arov, dqsp0 := k.dqsp
    handoff := c.handoff.filter (fun h => h.1 != clusterOf goal) }

/-- Children that have not begun name their parent, a context and its task, at its new place. -/
def moveParent (launch : Nat) (old new : Nat × Nat) (s : State) : State :=
  let arr := fun (a : Arrival) => if a.launch = launch ∧ a.parent = some old then { a with parent := some new } else a
  let deq := fun (d : DequeEntry) => if d.launch = launch ∧ d.parent = old then { d with parent := new } else d
  { s with
    cores := s.cores.map (fun k => { k with
      arr := k.arr.map arr, arrRing := k.arrRing.map arr, arrOver := k.arrOver.map arr
      deque := k.deque.map deq, dequeRing := k.dequeRing.map deq })
    disp := { s.disp with flight := s.disp.flight.map (fun f => match f with
      | .trav from_ a => .trav from_ (arr a)
      | f => f) } }

/-- What a launch's contexts of a cluster share goes to another.  There they find no copy older than their own stores (R221). -/
def moveShared (l : Launch) (from_ dst : Nat) (s : State) : State :=
  if dst = from_ then s
  else evictClean dst (fun x => x.present) (moveCluster l.id from_ dst (moveUnits l.id from_ dst s))

/-- Move a context that is stopped on its core, its engines' commands saved with it; `unit` names its barrier units anew. -/
def moveCtx (l : Launch) (unit : Nat → Nat) (id goal : Nat) (s : State) : State :=
  let c := ctxOf s id
  let slots := partSlots s c
  let s := restoreSlots c [] [] s
  let s := alignSweep (tileOf id) c.bind.module (putCtx (unbindCtx (ctxOf s id)) s)
  let base := (freeBase (partitions s 64 (tileOf goal)) (fieldOf c.a.sr.mpart 8 8)).getD 0
  let n := movedCtx s goal base unit c
  let shift := fun (x : Slot) => { x with id := x.id + fieldOf n.a.sr.mpart 0 6 - fieldOf c.a.sr.mpart 0 6 }
  let s := setWeight (coreOf id) (setWeight (coreOf goal) (putCtx n (moveParent l.id (id, c.task) (goal, n.task) s)))
  setEntry l.id c.bind.rank { valid := true, ctx := goal } (resumeEngines goal (restoreSlots n (slots.map shift) [] s))

/-- Move some stopped contexts of a launch, of one cluster, to another place or cluster. -/
def moveAll (l : Launch) (from_ dst : Nat) (ms : List (Nat × Nat)) (s : State) : State :=
  let t := moveShared l from_ dst s
  let unit := fun (u : Nat) => if dst = from_ then u else movedUnit (putCluster (clusterAt s from_) t) l.id from_ dst u
  ms.foldl (fun s m => moveCtx l unit m.1 m.2 s) t

/-- A context's engines stop, their commands saved with it. -/
def saveEngines (id : Nat) (s : State) : State := saveEngine true id (saveEngine false id s)

/-- May a rank be re-placed as it runs: its context and its engines can stop, nothing on its way names the context's number or
its core, and no traveller of its core is left behind?
DEDUCED, unsafe (log entry 49). -/
def mayReplace (s : State) (l : Launch) (c : Ctx) : Bool :=
  let k := coreAt s (coreOf c.id)
  c.pre == .running && c.fcause == 0 && canStop s c.id && !heldLaunch s l.id && !tearing s l && !brownStopped s &&
  !s.inbox.any (fun m => m.ctx == c.id) && !(cmdsOf s c.id).any (·.finished) &&
  s.disp.flight.all (fun f => match f with
    | .arrival _ _ x _ => x != c.id
    | .count core _ _ lau _ _ => !(core == coreOf c.id && lau == l.id)
    | _ => true) &&
  !(k.arr ++ k.arrRing ++ k.arrOver).any (fun a => a.launch == l.id && a.rank == c.bind.rank) &&
  (!(k.deque ++ k.dequeRing).any (fun d => d.launch == l.id) ||
    (ctxsOf s l.id).any (fun x => x.id != c.id && coreOf x.id == coreOf c.id))

/-- Mark the entries of some contexts' ranks IN-TRANSIT. -/
def markTransit (launch : Nat) (ids : List Nat) (s : State) : State :=
  ids.foldl (fun s id =>
    let r := (ctxOf s id).bind.rank
    setEntry launch r { rankEntry (launchAt s launch) r with transit := true } s) s

/-- The leaf marks a rank IN-TRANSIT; then it moves the context, rewrites the entry and clears the mark.  On its die the rank
is re-placed where it stands, its dirty set drained; to another die, or with others that go along, it moves by a rollback of the
step (R352), which a step that is past that does not survive (R365).
DEDUCED, unsafe (log entry 49). -/
def execRankRelocate (id rank ctx : Nat) (s : State) : Out :=
  let l := launchAt s id
  match l.ranks[rank]? with
  | none => .next s
  | some e =>
    let c := ctxOf s e.ctx
    let ms := movers s l c ctx
    let marked := ms.all (fun m => (rankEntry l (ctxOf s m.1).bind.rank).transit)
    if l.phase ≠ 3 then .next s
    else if c.bind.launch ≠ id ∨ c.run = .unbound then .next s
    else if mayMove s l c ctx = false then .next s
    else if marked = false then .next (markTransit id (ms.map (·.1)) s)
    else if dieOf e.ctx = dieOf ctx ∧ ms.length = 1 then
      if mayReplace s l c then
        let s := drainAsid l.asid [clusterOf c.id] (saveEngines c.id (stopCtx c.id s))
        .next (moveAll (launchAt s id) (clusterOf e.ctx) (clusterOf ctx) ms s)
      else .next s
    else if l.nonRollback || logLost l then .next (rollOrEnd id 0 rank s)
    else
      let s := ms.foldl (fun s m => saveEngines m.1 s) (rollback id s)
      .next (moveAll (launchAt s id) (clusterOf e.ctx) (clusterOf ctx) ms s)

/-! ### All asleep (R328) -/

/-- Is an operation parked at a bank one that only another context's action can end? -/
def asleepOp (s : State) (pk : Parked) : Bool :=
  match pk.op with
  | .lde _ => true
  | .ldc _ => true
  | .stf _ => true
  | .kwait _ _ => true
  | .join => true
  | .monw _ _ t => t.isNone
  | .chan _ _ _ _ _ =>
    let q := qcwAt s.mem.l1 pk.key
    q.cons != extEnd && q.prod != extEnd
  | .cpych _ _ => false

/-- Is a context asleep? -/
def asleep (s : State) (c : Ctx) : Bool :=
  (c.pre == .running || c.pre == .requested) &&
  (match c.run with
    | .idle => !hasWork s c
    | .parked (.bank _) => (parkedOf s c.id).any (asleepOp s)
    | .parked .wake => c.a.wake == 0
    | .parked (.barrier _ _ _ t) => t.isNone
    | .parked .home => s.homes.reqs.any (fun r => r.ctx == c.id && r.watching && r.op == .join &&
        !s.homes.changed.contains (r.pa / 128 * 128))
    | _ => false)

/-- Has a cluster a retry that is not yet made? -/
def bankWork (s : State) (cluster : Nat) : Bool :=
  s.banks.any (fun b => b.id / 4096 == cluster && (b.retry != [] || b.once != [])) ||
  s.tiles.any (fun t => t.id / 128 == cluster && (t.table ++ t.refused.map (·.2)).any (fun p =>
    decide ((bankAt s (bankOf s p.key)).waiters.length < 8)))

/-- Is something of a launch in flight? -/
def launchBusy (s : State) (launch : Nat) : Bool :=
  let ids := (ctxsOf s launch).map (·.id)
  s.disp.flight.any (flightOf s launch) ||
  s.homes.reqs.any (fun r => ids.contains r.ctx && !r.watching) ||
  s.host.pcie.any (fun r => ids.contains r.2.ctx) ||
  s.homes.busy.any (fun b => ids.contains b.ctx) ||
  s.cores.any (fun k => (k.mq ++ k.cq).any (fun x => ids.contains x.ctx) || k.sbuf.any (fun x => ids.contains x.ctx) ||
    k.arrOver.any (fun a => a.launch == launch)) ||
  (ctxsOf s launch).any (inFlight s) || s.cores.any (fun k => k.out.any (fun x => ids.contains x.ctx)) ||
  (clustersOf s launch).any (bankWork s)

/-- Is every context of a launch asleep, with nothing in flight?
DEDUCED, safe (log entry 48). -/
def allAsleep (s : State) (l : Launch) : Bool :=
  l.phase == 3 && !tearing s l && !stepEnded s l && !heldLaunch s l.id && savedOf s l.id == [] && ctxsOf s l.id != [] &&
  (ctxsOf s l.id).all (asleep s) && !launchBusy s l.id

/-- The leaf receives DEADLOCK: rollback, the end of the launch, FAULT with the lowest rank. -/
def execDeadlock (id : Nat) (s : State) : Out :=
  if allAsleep s (launchAt s id) then
    .next (faultLaunch id Cause.deadlock.code (((ctxsOf s id).map (·.bind.rank)).foldl min 65535) s)
  else .next s

end Sys2Proof.Machine
end

