-- ==== Sys2Proof/Machine/PreemptDev.lean ====
section
/-!
DEFINITION. Device steps of pre-emption (R357-R362, R413), of faults that the leaf receives (R353-R356), and of
step rollback (R367, R368, R371), with the refill and the eviction of LOCAL pages (R246, R360).
-/

namespace Sys2Proof.Machine

open Sys2Proof

/-! ### The save record (R359) -/

/-- The state of a context in its save record. -/
def saveState (c : Ctx) : Nat :=
  match c.pre with
  | .suspending => 1
  | .saved => 2
  | .held => 3
  | .ended => 4
  | _ => 0

/-- Word `status` of the save record. -/
def saveStatus (c : Ctx) : Word64 :=
  nat64 (saveState c + boolBit c.a.handler 4 + boolBit c.coop.isSome 5 + boolBit c.a.efault.isSome 6 + c.fcause % 256 * 2 ^ 8 +
    c.bind.rank % 65536 * 2 ^ 16)

/-- Word `wk`: the wake register and a kept barrier arrival. -/
def saveWake (c : Ctx) : Word64 :=
  nat64 (c.a.wake.toNat + (match c.a.kept with
    | some k => k.1 % 128 * 2 ^ 16 + 2 ^ 23 + boolBit k.2 24
    | none => 0))

/-- The words of a context's save record, but for the engine state behind them, which is the device's own. -/
def saveRecord (c : Ctx) : List Word64 :=
  let r := c.a.sr
  c.a.g.toList ++ c.a.c.toList.map (fun p => p.getD 0) ++ [c.a.pc, saveStatus c] ++
  [r.afl, r.afen, r.tmr, r.tvec, r.tpc, r.tcause, r.tval, r.tsave, r.ksel, r.mstra, r.mstrb, r.mbm, r.splim, r.spcnt, r.joinp,
   r.cpyc, saveWake c] ++
  (match c.a.efault with
    | some f => [f.efr0, f.efr1, f.efr2, f.efr3]
    | none => [0, 0, 0, 0]) ++
  [nat64 (c.a.eflags.foldl (fun x f => x ||| f.flags) 0 % 128), c.fpc, c.fval, c.cmd]

/-- Offset of the restart record in a context's save area, behind the current record and a slot's worth for each slot of its
partition. -/
def restartOffset (c : Ctx) : Nat := 1024 + 1536 * fieldOf c.a.sr.mpart 8 8

/-- The words of a context's restart record: those of the state that its last cut recorded. -/
def restartRecord (c : Ctx) : List Word64 :=
  saveRecord { c with a := c.restart.getD c.a, fcause := 0, fpc := 0, fval := 0, cmd := 0, coop := none }

/-! ### Pre-emption (R306, R357, R358, R361) -/

/-- The machine with some contexts SAVED, to look at what that frees. -/
def without (ids : List Nat) (s : State) : State :=
  let f := fun (c : Ctx) => if ids.contains c.id then unbindCtx c else c
  { s with
    cur := f s.cur, others := s.others.map f
    disp := { s.disp with savedCtx := s.disp.savedCtx ++ (allCtx s).filter (fun c => ids.contains c.id) } }

/-- Does a launch give up its resources before another: its prio is lower, or it was dispatched later? -/
def yieldsFirst (a b : Launch) : Bool := decide (a.prio < b.prio) || (a.prio == b.prio && decide (b.since < a.since))

/-- Insert a launch in that order. -/
def insertLaunch (l : Launch) : List Launch → List Launch
  | [] => [l]
  | x :: xs => if yieldsFirst l x then l :: x :: xs else x :: insertLaunch l xs

/-- The launches of lower prio than a head, in the order in which they give up resources. -/
def lowerLaunches (s : State) (h : Nat × QEntry) : List Launch :=
  (s.disp.launches.filter (fun l => decide (l.prio < recPrio h.2.words) && (l.phase == 2 || l.phase == 3))).foldl (fun xs l => insertLaunch l xs) []

/-- The contexts of a launch that may be asked: on their cores, and asked for no head yet. -/
def askable (s : State) (l : Launch) : List Nat :=
  ((ctxsOf s l.id).filter (fun c => (c.pre == .running || c.pre == .held) && c.deadline.isNone &&
    !s.disp.reserved.any (fun r => r.1 == c.id))).map (·.id)

/-- The contexts of `ids` whose resources a placement needs: those that it cannot be made beside. -/
def neededFor (s : State) (m : Module) (queue : Nat) (place : List Nat) (ids : List Nat) : List Nat :=
  ids.foldr (fun id need =>
    if placementOk (without (need.filter (· != id)) s) m queue place then need.filter (· != id) else need) ids

/-- The contexts that hold the resources of the placement chosen for a waiting head: the fewest launches, in the order in which
they give up resources, that make room, and of their contexts those that the placement needs.  None when the head can be
placed, or while it waits for contexts that have been asked.
DEDUCED, unsafe (log entry 42). -/
def holdersFor (s : State) (h : Nat × QEntry) : List Nat :=
  match loaded s (recModule h.2.words) with
  | none => []
  | some m =>
    let waits := s.disp.reserved.any (fun r => r.2 == h.1 && (ctxOf s r.1).run != .unbound &&
      ((ctxOf s r.1).pre == .suspending || (ctxOf s r.1).deadline.isSome))
    if waits || (findPlace s m h.1).isSome then []
    else
      let ls := lowerLaunches s h
      match (List.range ls.length).findSome? (fun i =>
          let ids := ((ls.take (i + 1)).map (askable s)).flatten
          (findPlace (without ids s) m h.1).map (fun p => (p, ids))) with
      | none => []
      | some x => neededFor s m h.1 x.1 x.2

/-- A pre-emption request: a yield deadline runs, and the context's resources are kept for the head.  A HELD context stays
HELD meanwhile (R356). -/
def requestOne (queue ctx : Nat) (s : State) : State :=
  let c := ctxOf s ctx
  putCtx { c with
      pre := if c.pre = .held then .held else .requested, deadline := some (rtm s + 20000) }
    { s with disp := { s.disp with reserved := addOnce (ctx, queue) s.disp.reserved } }

/-- The dispatcher wants the resources of a context, among others, for a waiting head of higher prio: it sends requests to
exactly the contexts that hold resources of the placement that it has chosen. -/
def execPreemptionRequest (ctx : Nat) (s : State) : Out :=
  let l := launchAt s (ctxOf s ctx).bind.launch
  if (ctxOf s ctx).run = .unbound ∨ braking s = true then .next s
  else
    match (orderedHeads s).find? (fun h => decide (l.prio < recPrio h.2.words) && (holdersFor s h).contains ctx) with
    | none => .next s
    | some h => .next (forEach (requestOne h.1) (holdersFor s h) s)

/-- The deadline: the collector stops the context's engines. -/
def execYieldDeadline (ctx : Nat) (s : State) : Out :=
  let c := ctxOf s ctx
  match c.deadline with
  | none => .next s
  | some t =>
    if rtm s < t then .next s
    else .next (putCtx { c with pre := .suspending, deadline := none, acks := [] } s)

/-- A unit of a context has reached its stop point and acknowledges: 0 the core, 1 the matrix unit, 2 the copy
engine, 3 the lowering engine. -/
def execEngineAcknowledge (ctx engine : Nat) (s : State) : Out :=
  let c := ctxOf s ctx
  let ack := fun (s : State) =>
    let c := ctxOf s ctx
    Host.Outcome.next (putCtx { c with acks := addOnce engine c.acks } s)
  if c.pre ≠ .suspending ∨ c.acks.contains engine = true then .next s
  else
    match engine with
    | 0 => if canStopCore s ctx then ack (stopCtx ctx s) else .next s
    | 1 => if canStopMatrix s ctx then ack (saveEngine false ctx s) else .next s
    | 2 => if canStopCopy s ctx then ack (saveEngine true ctx s) else .next s
    | 3 => ack (discardBlock ctx s)
    | _ => .next s

/-! ### Pins (R246, R360) -/

/-- The pages of the core block that a context lies in: from the lowest stack of its launch on the core to the end of the deque
ring (R243). -/
def blockPages (s : State) (c : Ctx) : List Nat :=
  let base := fun (x : Ctx) => (entryIn x.handles 1).base
  let here := (ctxsOf s c.bind.launch ++ savedOf s c.bind.launch).filter (fun x => coreOf x.id == coreOf c.id)
  let lo := (here.map base).foldl min (base c)
  let hi := alignUp (c.bind.arqOff + 32 + 80 * c.bind.ring) + 32 + 5120
  (List.range ((hi + 65535) / 65536 - lo / 65536)).map (· + lo / 65536)

/-- Set or clear the pins of some pages of an area. -/
def setPins (cluster area : Nat) (which : Nat → Bool) (v : Bool) (s : State) : State :=
  let cl := clusterAt s cluster
  putCluster { cl with pageMap := cl.pageMap.map (fun f =>
    if pmValid f.2 = true ∧ pmUse f.2 = 0 ∧ pmArea f.2 = area ∧ which (pmPage f.2) = true then
      (f.1, pmEntry 0 (pmTile f.2) v (pmHome f.2) area (pmPage f.2)) else f) } s

/-- The contexts of a launch in a cluster. -/
def inClusterOf (cluster : Nat) (cs : List Ctx) : List Ctx := cs.filter (fun c => clusterOf c.id == cluster)

/-- With every acknowledgement held, the state is written and the context is SAVED; its resources may serve other
launches.  While the collector serves a newer request, only the pins of the context's pages are cleared (R361).
DESIGN CHOICE, unsafe (log entry 39). -/
def execSaveComplete (ctx : Nat) (s : State) : Out :=
  let c := ctxOf s ctx
  let cl := clusterOf ctx
  let area := c.bind.area
  let block := blockPages s c
  if c.pre ≠ .suspending ∨ [0, 1, 2, 3].all c.acks.contains = false ∨ s.inbox.any (fun m => m.ctx == ctx) = true then .next s
  else if retargeted s ctx then .next (setPins cl area block.contains false s)
  else
    let slots := partSlots s c
    let saved := { c with pre := if c.fcause = 0 then .saved else .held, savedSlots := slots, acks := [], cmd := 0 }
    let s := alignSweep (tileOf ctx) c.bind.module (putCtx (unbindCtx c) (restoreSlots c [] [] s))
    let s := setWeight (coreOf ctx) { s with disp := { s.disp with savedCtx := s.disp.savedCtx ++ [saved] } }
    let s := setPins cl area block.contains false s
    if inClusterOf cl (ctxsOf s c.bind.launch) = [] then .next (setPins cl area (fun _ => true) false s) else .next s

/-- The saved context that has a number and may come back: its launch runs and is not held (R355). -/
def resumable (s : State) (ctx : Nat) : Option Ctx :=
  s.disp.savedCtx.find? (fun c => c.id == ctx && c.pre == .saved && (launchAt s c.bind.launch).phase != 4 && !heldLaunch s c.bind.launch)

/-- Has its cluster the room of R256 for the launch of a context that comes back? -/
def roomToResume (s : State) (c : Ctx) : Bool :=
  let q := (launchAt s c.bind.launch).queue
  let cl := clusterOf c.id
  residentArea s q cl c.bind.area || fits s q cl (areaPages s cl c.bind.area) 0

/-- RESUMING: the state is reloaded, pages that are still there are pinned again, and each engine goes on where it
stopped; a cooperative yield returns 1. -/
def execResuming (ctx : Nat) (s : State) : Out :=
  match resumable s ctx with
  | none => .next s
  | some c =>
    let n := fieldOf c.a.sr.mpart 8 8
    let b := fieldOf c.a.sr.mpart 0 6
    let room := (partitions s (launchAt s c.bind.launch).queue (tileOf ctx)).all (fun u => u.2 == 0 || n == 0 || decide (b + n ≤ u.1) || decide (u.1 + u.2 ≤ b))
    if ctxFree s (launchAt s c.bind.launch).queue ctx = false ∨ room = false ∨ roomToResume s c = false ∨ braking s = true then .next s
    else
      let g := match c.coop with
        | some d => setReg c.a.g d 1
        | none => c.a.g
      let back := { c with
        pre := .running, coop := none, deadline := none, savedSlots := [], savedShadow := [], savedCmds := []
        a := { c.a with g := g } }
      let s := putCtx back { s with disp := { s.disp with savedCtx := s.disp.savedCtx.filter (fun x => x.id != ctx || x.bind.launch != c.bind.launch) } }
      let s := setWeight (coreOf ctx) (restoreCmds ctx c.savedCmds (restoreSlots back c.savedSlots c.savedShadow s))
      let cl := clusterOf ctx
      let blocks := ((inClusterOf cl (ctxsOf s c.bind.launch ++ savedOf s c.bind.launch)).map (blockPages s)).flatten
      .next (setPins cl c.bind.area (fun p => (blockPages s c).contains p || !blocks.contains p) true s)

/-! ### Faults at the leaf (R353-R355) -/

/-- Does an engine fault stored with a context come from poison? -/
def enginePoison (c : Ctx) : Bool := c.a.efault.any (fun f => fieldOf f.efr0 16 8 == Cause.poison.code)

/-- The leaf's action on a message: refill, rollback, hold, end. -/
inductive LeafAct where
  | refill | rollback | hold | finish
  deriving DecidableEq, Repr

/-- The last column of R353. -/
def leafAct (s : State) (m : LeafMsg) : LeafAct :=
  if m.cause = Cause.l1page.code then .refill
  else if m.cause = Cause.lostrel.code ∨ m.cause = Cause.poison.code then .rollback
  else if m.cause = Cause.engine.code ∧ enginePoison (ctxOf s m.ctx) = true then .rollback
  else if [Cause.bounds.code, Cause.perm.code, Cause.align.code, Cause.notres.code, Cause.space.code].contains m.cause then .hold
  else .finish

/-- The context of a message still waits for the leaf. -/
def stillFaulted (s : State) (m : LeafMsg) : Bool :=
  (ctxOf s m.ctx).fcause == m.cause && (ctxOf s m.ctx).run == .stopped && m.cause != 0

/-- Every context and engine of a launch stops, engine commands kept with their contexts. -/
def holdLaunch (launch : Nat) (s : State) : State :=
  forEach (fun id s => saveEngines id (stopCtx id s)) ((ctxsOf s launch).map (·.id)) s

/-- The launch is held: the context is HELD, the host is told, and the hold runs out after the set time.
DEDUCED, safe (log entry 50). -/
def startHold (m : LeafMsg) (c : Ctx) (tag : Nat) (s : State) : State :=
  let l := launchAt s c.bind.launch
  let s := holdLaunch l.id s
  let x := ctxOf s m.ctx
  let s := putCtx { x with pre := if x.pre = .suspending then .suspending else .held, cmd := 0 } s
  let s := { s with host := { s.host with
    tags := s.host.tags ++ [{ tag := tag, kind := 1, who := m.ctx, seq := l.id }]
    holds := s.host.holds ++ [(l.id, m.ctx, rtm s + s.host.faultHold * 1000000)] } }
  report [reportWord c.bind.rank l.queue m.cause tag 1, m.val, m.pc, freeVal s] (useFree s)

/-- The leaf takes the fault at the head of its inbox: hold, or end the launch.  A step that has ended is cut first, and the
fault belongs to the next one (R356). -/
def execFaultHold (s : State) : Out :=
  match s.inbox with
  | [] => .next s
  | m :: ms =>
    let c := ctxOf s m.ctx
    let t := { s with inbox := ms }
    if stillFaulted s m = false then .next t
    else if cutPending s (launchAt s c.bind.launch) then .next s
    else
      match leafAct s m with
      | .refill => .next s
      | .rollback => .next s
      | .finish => .next (faultLaunch c.bind.launch m.cause c.bind.rank t)
      | .hold =>
        if s.host.faultHold = 0 then .next (faultLaunch c.bind.launch m.cause c.bind.rank t)
        else if (ctxsOf s c.bind.launch).all (fun x => canStop s x.id) = false then .next s
        else
          match freeTag s with
          | none => .next s
          | some tag => .next (startHold m c tag t)

/-- The hold of a context. -/
def holdOf (s : State) (ctx : Nat) : Option (Nat × Nat × Nat) := s.host.holds.find? (fun h => h.2.1 == ctx)

/-- The HELD context, on its core or SAVED. -/
def heldCtx (s : State) (launch ctx : Nat) : Ctx :=
  match (savedOf s launch).find? (fun c => c.id == ctx) with
  | some c => c
  | none => ctxOf s ctx

/-- The hold ends: its tag is free for what waits for one. -/
def endHold (launch ctx : Nat) (s : State) : State :=
  retryCws { s with host := { s.host with
    holds := s.host.holds.filter (fun h => !(h.1 == launch && h.2.1 == ctx))
    tags := s.host.tags.filter (fun t => !(t.kind == 1 && t.who == ctx && t.seq == launch)) } }

/-- The host writes RESUME to the save record: the launch goes on where it stopped, the faulting instruction again. -/
def execHostCmdResume (ctx : Nat) (s : State) : Out :=
  match holdOf s ctx with
  | none => .next s
  | some h =>
    let s := endHold h.1 ctx s
    let go := fun (c : Ctx) => { c with run := .running, fcause := 0, cmd := 1 }
    let s := match (savedOf s h.1).find? (fun c => c.id == ctx) with
      | some _ => { s with disp := { s.disp with savedCtx := s.disp.savedCtx.map (fun c =>
          if c.bind.launch = h.1 ∧ c.id = ctx then { go c with pre := .saved } else c) } }
      | none =>
        let c := go (ctxOf s ctx)
        putCtx { c with pre := if c.pre = .held then (if c.deadline.isSome then .requested else .running) else c.pre } s
    if heldLaunch s h.1 then .next s
    else
      .next (forEach resumeEngines (((ctxsOf s h.1).filter (fun c => c.pre != .suspending)).map (·.id)) s)

/-- The host writes END. -/
def execHostCmdEnd (ctx : Nat) (s : State) : Out :=
  match holdOf s ctx with
  | none => .next s
  | some h =>
    let c := heldCtx s h.1 ctx
    .next (faultLaunch h.1 c.fcause c.bind.rank s)

/-- The fault hold runs out. -/
def execFaultHoldExpiry (ctx : Nat) (s : State) : Out :=
  match holdOf s ctx with
  | none => .next s
  | some h =>
    let c := heldCtx s h.1 ctx
    if rtm s < h.2.2 then .next s else .next (faultLaunch h.1 c.fcause c.bind.rank s)

/-! ### Rollback (R367, R368) -/

/-- Lines that an access at a pointer may have touched and that are poisoned. -/
def poisonedAt (s : State) (c : Ctx) (p : Word64) : List LineRef :=
  let e := entryIn c.handles (hv p)
  let cl := clusterOf c.id
  ([0, 63].filterMap (fun d =>
    let line := (e.base + ov p + d) / 128 * 128
    if e.space = 0 then
      (localKey s cl c.bind.area line).bind (fun k =>
        if l1Poisoned s k 128 then some { isLocal := true, cluster := cl, line := line, tag := c.bind.area : LineRef } else none)
    else
      (walk s c.bind.asid line).bind (fun t =>
        if s.homes.poison.contains (homeKey s t line / 128 * 128) then
          some { isLocal := false, cluster := cl, line := line, tag := c.bind.asid : LineRef } else none))).eraseDups

/-- Every poisoned line of a launch's log: what an engine's poison may have come from where no line is known. -/
def poisonedLogged (s : State) (l : Launch) : Bool :=
  l.undo.any (fun u =>
    if u.isLocal then (localKey s u.cluster u.tag u.line).any (fun k => l1Poisoned s k 128)
    else (walk s u.tag u.line).any (fun t => s.homes.poison.contains (homeKey s t u.line / 128 * 128)))

/-- Has a line an entry in a log? -/
def loggedLine (l : Launch) (x : LineRef) : Bool :=
  l.undo.any (fun u => u.isLocal == x.isLocal && u.line == x.line && u.tag == x.tag && (!u.isLocal || u.cluster == x.cluster))

/-- Did the lost data come from this step, so that rolling back restores it?
DEDUCED, unsafe (log entry 51). -/
def poisonRestored (s : State) (l : Launch) (m : LeafMsg) : Bool :=
  if m.cause = Cause.engine.code then
    match (ctxOf s m.ctx).a.efault.bind (·.line) with
    | some x => loggedLine l x
    | none => poisonedLogged s l
  else
    let xs := poisonedAt s (ctxOf s m.ctx) m.val
    xs != [] && xs.all (loggedLine l)

/-- Rollback for poison: the third in succession ends the launch. -/
def rollPoison (l : Launch) (m : LeafMsg) (s : State) : State :=
  let rank := (ctxOf s m.ctx).bind.rank
  if l.nonRollback || !poisonRestored s l m then faultLaunch l.id Cause.poison.code rank s
  else
    let t := rollbackOrEnd l.id s
    if logLost l then t
    else if 2 ≤ l.poisons then endLaunch l.id statusFault Cause.poison.code rank t
    else putLaunch { launchAt t l.id with poisons := l.poisons + 1 } t

/-- The other launches that hold a dirty line on a dead agent. -/
def lostLaunches (s : State) (id : Nat) : List Launch :=
  s.disp.launches.filter (fun l => l.id != id && l.phase == 3 &&
    s.homes.dead.any (fun c => (clusterAt s c).lines.any (fun x => x.asid == l.asid && x.mask != 0)))

/-- A launch goes back, or ends when its step is past that. -/
def loseStep (rank : Nat) (l : Launch) (s : State) : State :=
  rollOrEnd l.id Cause.lostrel.code rank s

/-- Rollback for a lost release, after which firmware clears the records of dead agents.
DEDUCED, unsafe (log entry 52). -/
def rollLost (l : Launch) (m : LeafMsg) (s : State) : State :=
  let rank := (ctxOf s m.ctx).bind.rank
  let t := (lostLaunches s l.id).foldl (fun s x => loseStep 0 x s) (loseStep rank l s)
  { t with homes := { t.homes with recs := t.homes.recs.filter (fun r => !staleRec t r) } }

/-- The leaf rolls back the step of a launch that met poison or a lost release. -/
def execRollback (id : Nat) (s : State) : Out :=
  match s.inbox.find? (fun m => (ctxOf s m.ctx).bind.launch == id && stillFaulted s m && leafAct s m == .rollback) with
  | none => .next s
  | some m =>
    let l := launchAt s id
    let t := { s with inbox := dropFirst m s.inbox }
    if cutPending s l then .next s
    else if m.cause = Cause.lostrel.code then .next (rollLost l m t) else .next (rollPoison l m t)

/-! ### Pages (R246, R353, R360) -/

/-- The page of an access is refilled, and the context resumes at the faulting instruction; while no frame is free
it waits. -/
def execL1pageRefill (ctx : Nat) (s : State) : Out :=
  match s.inbox.find? (fun m => m.ctx == ctx && m.cause == Cause.l1page.code && stillFaulted s m) with
  | none => .next s
  | some m =>
    let c := ctxOf s ctx
    let cl := clusterOf ctx
    let off := (entryIn c.handles (hv m.val)).base + ov m.val
    let s := refillPage cl c.bind.area ((off + 63) / 65536) true (refillPage cl c.bind.area (off / 65536) true s)
    if (frameOf (clusterAt s cl) c.bind.area (off / 65536)).isSome then
      let c := ctxOf s ctx
      .next (putCtx { c with run := .running, fcause := 0 } { s with inbox := dropFirst m s.inbox })
    else .next s

/-- The leaf evicts an unpinned frame (R360). -/
def execFrameEviction (cluster frame : Nat) (s : State) : Out :=
  if evictable s cluster frame then .next (evictFrame cluster frame s) else .next s

end Sys2Proof.Machine
end

