-- ==== Sys2Proof/Machine/StrandDev.lean ====
section
/-!
DEFINITION. Device steps of the strands (R322-R327): throttling, the monitor's window, ballast, power-up.
-/

namespace Sys2Proof.Machine

open Sys2Proof

/-- Store a strand. -/
def putStrand (k : Strand) (s : State) : State := { s with plat := { s.plat with strands := putBy Strand.id k s.plat.strands } }

/-- CYC of a strand's die: strand 32 x cluster + j. -/
def strandCyc (s : State) (strand : Nat) : Nat := cyc s (strand * 128)

/-- The place of a strand among those of the clusters in service (R6); the strands of a cluster out of service are mapped out
(R7). -/
def strandIndex (s : State) (strand : Nat) : Nat :=
  ((inService s).filter (fun c => decide (c < strand / 32))).length * 32 + strand % 32

/-- Is a strand powered (R327)? -/
def powered (s : State) (strand : Nat) : Bool :=
  (inService s).contains (strand / 32) && decide (strandIndex s strand / 8 < s.plat.strandGroups)

/-- A tile's |dev| has been at least `low` mV for `cycles` die cycles: at 45 mV and 16 cycles the strand runs at half
clock (R326). -/
def execStrandThrottle (strand low cycles : Nat) (s : State) : Out :=
  let k := strandAt s strand
  if decide (45 ≤ low) && decide (16 ≤ cycles) && !k.throttled && powered s strand then
    .next (putStrand { k with throttled := true, since := strandCyc s strand } s)
  else .next s

/-- Every tile's |dev| has been at most `peak` mV for `cycles` die cycles: at 15 mV and 1,024 cycles the strand
returns to full clock. -/
def execStrandUnthrottle (strand peak cycles : Nat) (s : State) : Out :=
  let k := strandAt s strand
  if decide (peak ≤ 15) && decide (1024 ≤ cycles) && k.throttled then
    .next (putStrand { k with throttled := false, thrc := halfCycles k (strandCyc s strand) } s)
  else .next s

/-- The largest of some deviations and the index of the first tile that has it. -/
def peakOf (devs : List Nat) : Nat × Nat :=
  (enumerate 0 devs).foldl (fun b x => if b.1 < x.2 then (x.2, x.1) else b) (0, 0)

/-- A window of 1,024 ticks has completed since the last one; `devs` are the rounded |dev| of the strand's four tiles
(R323). -/
def execStrimbWindow (strand : Nat) (devs : List Nat) (s : State) : Out :=
  let p := peakOf (devs.take 4)
  let k := strandAt s strand
  if powered s strand && decide (k.window < rtm s / 1024) then
    .next (putStrand { k with strimb := p.1, strimbTile := strand % 32 * 4 + p.2, window := rtm s / 1024 } s)
  else .next s

/-- Groups of 8 strands of the clusters in service. -/
def groupCount (s : State) : Nat := (inService s).length * 4

/-- Does the boot stand still: the supply is gone, or a brown-out before DEVREADY has stopped it (R410)? -/
def bootStopped (s : State) : Bool :=
  s.plat.off || (s.plat.brown && !s.plat.devready && (s.plat.pin || s.plat.calmAt.isSome))

/-- The next 8 strands are powered, 2 µs after the last (R327). -/
def execStrandPowerUp (s : State) : Out :=
  let due := match s.plat.groupAt with
    | none => true
    | some t => decide (t + 2000 ≤ rtm s)
  if s.plat.stage = 3 ∧ bootStopped s = false ∧ due = true ∧ s.plat.strandGroups < groupCount s then
    .next { s with plat := { s.plat with strandGroups := s.plat.strandGroups + 1, groupAt := some (rtm s) } }
  else .next s

/-- May a core gate its clock: would its tile's count exceed that of the least-gated tile of the strand by at most
2? -/
def mayGate (s : State) (core : Nat) : Bool :=
  let count := fun (t : Nat) => (s.cores.filter (fun k => k.id / 8 == t && k.gated && k.id != core)).length
  let first := core / 32 * 4
  (List.range 4).all (fun i => decide (count (core / 8) + 1 ≤ count (first + i) + 2))

/-- Are all contexts of a core parked or idle? -/
def allParked (s : State) (core : Nat) : Bool :=
  ((allCtx s).filter (fun c => coreOf c.id == core)).all (fun c => match c.run with
    | .parked _ => true
    | .idle => true
    | .unbound => true
    | _ => false)

/-- A cycle of a core without a ready context, its tile at `dev` mV: ballast at +10 mV and more; else a core that is
wholly parked has its clock gated while it may, and issues ballast while it may not (R325). -/
def execBallastIssue (core : Nat) (dev : Int) (s : State) : Out :=
  let k := strandAt s (core / 32)
  let burn := putStrand { k with balc := k.balc + 1 } s
  if powered s (core / 32) = false ∨ readyOn s core ≠ [] then .next s
  else if 10 ≤ dev then .next (putCore { coreAt s core with gated := false } burn)
  else if allParked s core = false then .next (putCore { coreAt s core with gated := false } s)
  else if mayGate s core then .next (putCore { coreAt s core with gated := true } s)
  else .next (putCore { coreAt s core with gated := false } burn)

end Sys2Proof.Machine
end

