-- ==== Sys2Proof/Machine/HostDev.lean ====
section
/-!
DEFINITION. Device steps of the host link: host lines (R285-R287), HBM seen by the host and bias (R377-R379), PCIe
completions (R380-R382), translation and shootdowns (R384-R387), replies to requests (R388, R389), and the
host-visible registers (R302, R373, R376, R403).
-/

namespace Sys2Proof.Machine

open Sys2Proof

/-! ### Recalls (R286, R287) -/

/-- A cluster answers a recall: it writes back its masked bytes of a line and invalidates its copies; a dead cluster
answers nothing. -/
def recallFrom (line c : Nat) (s : State) : State :=
  if s.homes.dead.contains c then s
  else
    let s := exportAll c ((clusterAt s c).lines.filter (fun l => l.home == line)) s
    let s := match s.homes.busy.findIdx? (fun b => b.recalling && b.line == line && b.agent == c) with
      | some i => freeBusy i s
      | none => s
    let h := hostLineOf s line
    if h.presence.getLsbD c then putHostLine { h with presence := h.presence &&& ~~~BitVec.ofNat 16 (2 ^ c) } s else s

/-- The clusters that hold a line and answer. -/
def holders (s : State) (line : Nat) : List Nat :=
  (List.range 16).filter (fun c => !s.homes.dead.contains c && (clusterAt s c).lines.any (fun l => l.home == line))

/-- The record of a line that asks for a drain first (R286). -/
def undrained (s : State) (line : Nat) : Option Rec :=
  match recOf s line with
  | some r => if r.valid && !r.dr && decide (r.agent < 16) && !s.homes.dead.contains r.agent then some r else none
  | none => none

/-- Has a line neither copies nor a record that is not drained? -/
def recalled (s : State) (line : Nat) : Bool := (undrained s line).isNone && holders s line == []

/-- Ask for what a line still lacks: the drain of its record, or else its copies of every cluster (R286, R287). -/
def recallLine (line : Nat) (s : State) : State :=
  match undrained s line with
  | some r => sendDrain { line := line, agent := r.agent, rel := r.rel, ctx := 65536 } s
  | none => forEach (fun c s => sendDrain { line := line, agent := c, rel := 0, ctx := 65536, recalling := true } s) (holders s line) s

def execRecall (cluster line : Nat) (s : State) : Out :=
  let l := line / 128 * 128
  let asked := s.homes.busy.any (fun b => b.recalling && b.line == l && b.agent == cluster)
  if (atHostAgent s l || asked) && decide (cluster < 16) then .next (recallFrom l cluster s) else .next s

/-! ### Host lines (R285, R286) -/

/-- The host agent answers a snoop of a line that has been recalled: a read leaves it shared, a write takes it and the
host's data replace it. -/
def snoop (line : Nat) (write : Bool) (data : BitVec 1024) (s : State) : State :=
  let h := hostLineOf s line
  if write then
    let s := putHostLine { h with st := .i, presence := 0 } s
    let s := { s with homes := { s.homes with surrendered := if h.st = .i then s.homes.surrendered else addOnce line s.homes.surrendered } }
    homeMerge line (BitVec.allOnes 128) data s
  else
    let st := match h.st with
      | .m => HState.o
      | .e => .s
      | x => x
    putHostLine { h with st := st } s

/-- A line is held, or let go, for a snoop that has not been answered: the device performs no access to it meanwhile. -/
def holdLine (line : Nat) (s : State) : State :=
  { s with homes := { s.homes with snooped := addOnce line s.homes.snooped } }
def letLine (line : Nat) (s : State) : State :=
  { s with homes := { s.homes with snooped := s.homes.snooped.filter (· != line) } }

/-- The host snoops a line: it is recalled first, and the host agent answers when that is done.  While a page goes over to
device bias, the host writes back the lines that it holds (R379). -/
def execHostSnoop (line : Nat) (write : Bool) (data : BitVec 1024) (s : State) : Out :=
  let line := line / 128 * 128
  if flipping s line && inHostBias s line && !bitOf s.host.bfctl 61 && write && !lineBusy s line && recalled s line then
    .next (letLine line (snoop line true data s))
  else if !atHostAgent s line || lineBusy s line || flipping s line then .next s
  else if recalled s line then .next (letLine line (snoop line write data s))
  else .next (recallLine line (holdLine line s))

/-- The host grants a line; one that was surrendered to a host write gets its record (R286). -/
def execHostLineGrant (line : Nat) (exclusive : Bool) (s : State) : Out :=
  let line := line / 128 * 128
  let h := hostLineOf s line
  if !atHostAgent s line || flipping s line then .next s
  else
    let st := match h.st, exclusive with
      | .i, true => HState.e
      | .i, false => .s
      | .s, true => .e
      | .o, true => .m
      | x, _ => x
    if s.homes.surrendered.contains line then
      match makeRoom line 256 (line / 128 % 256) 65536 s with
      | .blocked => .next s
      | .draining t => .next t
      | .ready t =>
        .next (recordHost line 256 (line / 128 % 256) (putHostLine { h with st := st }
          { t with homes := { t.homes with surrendered := t.homes.surrendered.filter (· != line) } }))
    else .next (putHostLine { h with st := st } s)

/-! ### HBM seen by the host (R377, R378) -/

/-- Bytes of HBM that the part has. -/
def hbmSize (s : State) : Nat := if s.plat.gl4012 then 384 * 2 ^ 30 else 512 * 2 ^ 30

/-- May a CXL.mem request be served: it lies in HBM, and the bias of its page is not changing? -/
def cxlReady (s : State) (addr : Nat) : Bool := decide (addr < hbmSize s) && !flipping s addr

/-- Does the host agent still hold the line of a page in host bias, so that it must give it up first? -/
def agentHolds (s : State) (line : Nat) : Bool := inHostBias s line && (hostLineOf s line).st != .i

/-- A page in host bias: the host agent gives up what it holds of the line. -/
def hostTakes (write : Bool) (line : Nat) (s : State) : State :=
  letLine line (if agentHolds s line then snoop line write (homeLine s line) s else s)

/-- What a CXL.mem request to a line waits for: its recall. -/
def hostWaits (s : State) (line : Nat) : Bool := agentHolds s line && (lineBusy s line || !recalled s line)

/-- Ask for it. -/
def hostAsks (line : Nat) (s : State) : State := if lineBusy s line then s else recallLine line (holdLine line s)

/-- A CXL.mem read returns the home value. -/
def execCxlMemRead (addr size : Nat) (s : State) : Out :=
  if cxlReady s addr = false then .next s
  else if hostWaits s (addr / 128 * 128) then .next (hostAsks (addr / 128 * 128) s)
  else
    let s := hostTakes false (addr / 128 * 128) s
    .next { s with host := { s.host with memReads := (addr, size, homeReadN s addr size) :: s.host.memReads } }

/-- The slice and the set of a line of HBM that the host names by its physical address.
DEDUCED, unsafe (log entry 57). -/
def hbmPlace (s : State) (line : Nat) : Nat × Nat :=
  match recOf s line with
  | some r => (r.slice, r.set)
  | none => placeOf s line

/-- A CXL.mem write merges its bytes at the home, and in device bias the line's record names agent 16. -/
def execCxlMemWrite (addr : Nat) (mask : BitVec 128) (data : BitVec 1024) (s : State) : Out :=
  let line := addr / 128 * 128
  if cxlReady s addr = false then .next s
  else if hostWaits s line then .next (hostAsks line s)
  else if inHostBias s line then .next (homeMerge line mask data (hostTakes true line s))
  else
    match deviceTurn line (hbmPlace s line) s (homeMerge line mask data) with
    | .done t => .next t
    | .wait t => .next t
    | .unmapped => .next s

/-! ### Bias flips (R379) -/

/-- A write of BFCTL: it starts a flip, or finds one running and sets err. -/
def writeBfctl (v : Word64) (s : State) : State :=
  if bitOf s.host.bfctl 63 then { s with host := { s.host with bfctl := s.host.bfctl ||| nat64 (2 ^ 62) } }
  else { s with host := { s.host with bfctl := v &&& nat64 (2 ^ 63 + 2 ^ 61 + (2 ^ 23 - 1)) } }

def execBiasFlip (v : Word64) (s : State) : Out := .next (writeBfctl v s)

/-- The lines of a 64 KiB page of HBM. -/
def pageLines (page : Nat) : List Nat := (List.range 512).map (fun i => page * 65536 + 128 * i)

/-- The requests of a page's lines have their home in another slice, and its records, which are drained, are discarded, as
R277 discards one: no place of theirs is kept at the new home.
DEDUCED, unsafe (log entry 56). -/
def rehome (page : Nat) (s : State) : State :=
  let mine := fun (k : Nat) => decide (k < 2 ^ 60) && k / 65536 == page
  { s with homes := { s.homes with
      recs := s.homes.recs.filter (fun r => !mine r.line)
      reqs := s.homes.reqs.map (fun r =>
        if mine r.pa then { r with slice := (placeOf s r.pa).1, set := (placeOf s r.pa).2 } else r) } }

/-- What a line still lacks before its page's bias is written: its recall and the drain of its record, or, towards device
bias, that drain alone. -/
def flipWaits (s : State) (host : Bool) (line : Nat) : Bool := if host then !recalled s line else (undrained s line).isSome

/-- The flip completes: copies have been recalled, or the host has invalidated its lines; the table bit is written; vector
66 fires. -/
def execBiasFlipDone (s : State) : Out :=
  let b := s.host.bfctl
  let page := fieldOf b 0 23
  let host := bitOf b 61
  let left := (pageLines page).filter (flipWaits s host)
  if bitOf b 63 = false ∨ (pageLines page).any (lineBusy s) = true then .next s
  else if left ≠ [] then .next (forEach recallLine left s)
  else
    let s := if host then s
      else { s with homes := { s.homes with hostLines := s.homes.hostLines.filter (fun h => !(decide (h.line < 2 ^ 60) && h.line / 65536 == page)) } }
    let s := { s with host := { s.host with
      bfctl := nat64 (b.toNat % 2 ^ 63)
      hostBias := if host then addOnce page s.host.hostBias else s.host.hostBias.filter (· != page) } }
    .next (fire 66 (rehome page s))

/-! ### PCIe completions (R380-R382) -/

/-- Send a request again, under a new tag. -/
def resend (r : HomeReq) (s : State) : State :=
  { s with host := { s.host with pcie := s.host.pcie ++ [(s.fresh, r)] }, fresh := s.fresh + 1 }

/-- A write at the target of a request that is not coherent; its port has been written to (R382). -/
def targetWrite (r : HomeReq) (v : Nat) (s : State) : State :=
  let c := ctxOf s r.ctx
  let w : Who := { ctx := r.ctx, asid := r.asid, launch := c.bind.launch }
  homeWriteN r.pa r.size v (logGlobal w r.va r.pa (putCtx { c with ports := addOnce (portKey r.pa) c.ports } s))

/-- A successful completion with the target's old value. -/
def pcieDone (r : HomeReq) (old : Nat) (s : State) : Out :=
  if r.zlr then
    match r.op with
    | .store v =>
      let s := targetWrite r v s
      let s := { s with host := { s.host with posted := (r.pa / 2 ^ 59, r.pa % 2 ^ 59, r.size, v) :: s.host.posted } }
      memDone (addFlags r.flags (runCur (switchTo r.ctx s)))
    | _ => .next (resend { r with zlr := false } s)
  else
    match r.op with
    | .none =>
      let t := runCur (switchTo r.ctx s)
      portRead { t with cur := { t.cur with ports := t.cur.ports.filter (· != portKey r.pa) } }
    | _ =>
      if keepsWaiting s r old then .next (resend r s)
      else
        let s := match newValue r old with
          | some v => targetWrite r v s
          | none => s
        let s := if r.acq then bumpFor r.ctx s else s
        finishOp r old taskFinish (runCur (switchTo r.ctx s))

/-- The answer to an engine's read reaches its unit. -/
def engineAnswer (unit : Nat) (r : HomeReq) (bad : Bool) (v : Nat) (s : State) : State :=
  let k := coreAt s (coreOf r.ctx)
  putCore { k with got := k.got ++ [{ unit := unit, key := r.pa, n := r.size, value := v, bad := bad }] } s

/-- A completion returns: status 0 success, else Unsupported Request or Completer Abort, which is SPACE.  An acquire
that has to bump waits while a bump stalls. -/
def execPcieCompletion (tag status data : Nat) (s : State) : Out :=
  match s.host.pcie.find? (fun r => r.1 == tag) with
  | none => .next s
  | some (_, r) =>
    let t := { s with host := { s.host with pcie := s.host.pcie.filter (fun x => x.1 != tag) } }
    match r.op with
    | .engine unit => .next (engineAnswer unit r (status != 0) (data % 2 ^ (8 * r.size)) t)
    | _ =>
      if r.acq && !r.zlr && bumpStalls s (clusterOf r.ctx) then .next s
      else if status = 0 then pcieDone r (data % 2 ^ (8 * r.size)) t
      else faultAt r .space t

/-! ### Translation (R384-R387) -/

/-- The launch that waits for the residency of an address space. -/
def residing (s : State) (asid : Nat) : Option Launch := s.disp.launches.find? (fun l => l.phase == 1 && l.asid == asid)

/-- A TLB miss walks the table.  `ats` says what ATS answers for a page of host memory: 0 the host has not enabled it, 1 the host
address is `addr`, 2 no access, which sends a PRI Page Request under a tag.
DEDUCED, safe (log entry 55). -/
def execTlbWalk (cluster asid va ats addr : Nat) (s : State) : Out :=
  let s := { s with host := { s.host with ats := ats != 0 } }
  match walk s asid va with
  | none => .next s
  | some e =>
    let host := pteTgt e.pte == 1 || pteTgt e.pte == 2
    if host && ats == 1 then
      .next (tlbFill cluster { e with pte := nat64 (e.pte.toNat - fieldOf e.pte 12 40 * 4096 + addr / 4096 % 2 ^ 40 * 4096) } s)
    else if host && ats == 2 then
      match freeTag s with
      | none => .next s
      | some t =>
        let who := match residing s asid with
          | some l => (l.id, 0)
          | none => (cluster, 3)
        .next { s with host := { s.host with tags := s.host.tags ++ [{ tag := t, kind := 3, who := who.1, source := who.2, va := va }] } }
    else .next (tlbFill cluster e s)

/-- First address and page size of a shootdown's range: SDVA as the running one found it. -/
def sdRange (s : State) : Nat × Nat :=
  let size := match fieldOf s.host.sdctl 16 2 with
    | 0 => 4096
    | 1 => 65536
    | 2 => 2 ^ 21
    | _ => 2 ^ 30
  ((if bitOf s.host.sdctl 63 then s.host.sdrun else s.host.sdva).toNat, size)

/-- A write of SDCTL: it starts a shootdown, or is ignored and sets err (R376). -/
def writeSdctl (v : Word64) (s : State) : State :=
  let put := fun (w : Word64) => { s with host := { s.host with sdctl := w } }
  let fields := nat64 (fieldOf v 32 16 * 2 ^ 32 + fieldOf v 16 2 * 2 ^ 16 + fieldOf v 0 16)
  let run := bitOf s.host.sdctl 63
  let t := { s with host := { s.host with sdctl := v } }
  let bad := run || fieldOf v 32 16 == 0 || s.host.sdva.toNat % (sdRange t).2 != 0
  if bitOf v 63 then
    (if bad then put (s.host.sdctl ||| nat64 (2 ^ 62))
     else { s with host := { s.host with sdctl := fields ||| nat64 (2 ^ 63), sdrun := s.host.sdva } })
  else if run then s
  else put (fields ||| nat64 (boolBit (bitOf s.host.sdctl 62) 62))

def execShootdown (v : Word64) (s : State) : Out := .next (writeSdctl v s)

/-- The buffered stores of a core that `hit` selects are performed, as far as they may be; `n` bounds their number. -/
def drainHits (hit : SBEntry → Bool) (core : Nat) : Nat → State → State
  | 0, s => s
  | n + 1, s =>
    let q := (coreAt s core).sbuf
    match (List.range q.length).find? (fun i => q[i]?.any hit && drainable s core i) with
    | some i => drainHits hit core n (drainEntry core i s)
    | none => s

/-- Is a store of `hit` left in a buffer? -/
def storesLeft (hit : SBEntry → Bool) (s : State) : Bool := s.cores.any (fun k => k.sbuf.any hit)

/-- A context whose access waits at a home under the old mapping runs its instruction again. -/
def restartWatch (hit : HomeReq → Bool) (s : State) : State :=
  let ids := ((s.homes.reqs.filter (fun r => hit r && r.watching)).map (·.ctx))
  let f := fun (c : Ctx) => if ids.contains c.id ∧ c.run = .parked .home then { c with run := .running } else c
  assignWatches { s with
    cur := f s.cur, others := s.others.map f
    homes := { s.homes with reqs := s.homes.reqs.filter (fun r => !(hit r && r.watching)) } }

/-- The shootdown completes once every access under the old mapping is performed: TLB entries and cache lines of the
range are gone, and vector 67 fires. -/
def execShootdownDone (s : State) : Out :=
  let c := s.host.sdctl
  let r := sdRange s
  let asid := fieldOf c 0 16
  let lo := r.1
  let hi := r.1 + fieldOf c 32 16 * r.2
  let hit := fun (x : HomeReq) => x.asid == asid && (overlaps x.va x.size lo (hi - lo) || x.op.ofEngine)
  let store := fun (x : SBEntry) => x.isGlobal && x.asid == asid && overlaps x.addr x.size lo (hi - lo)
  let writing := s.cores.any (fun k => k.out.any (fun x => (ctxOf s x.ctx).bind.asid == asid && (match x.spot with
    | .mem va _ => overlaps va x.bytes.length lo (hi - lo)
    | .l1 _ _ _ _ => false)))
  let copying := s.homes.calReqs.any (fun x => (cHead (coreAt s x.core)).any (fun h => (ctxOf s h.ctx).bind.asid == asid))
  if bitOf c 63 = false ∨ s.homes.reqs.any (fun x => hit x && !x.watching) = true ∨
      s.host.pcie.any (fun x => hit x.2) = true ∨ copying = true ∨ writing = true then
    .next s
  else
    let s := s.cores.foldl (fun s k => drainHits store k.id 16 s) s
    if storesLeft store s then .next s
    else
      let s := restartWatch hit s
      let s := forEach (fun k s => exportAll k (linesIn s k asid lo hi) s) (s.clusters.map (·.id)) s
      let stays := fun (e : TlbEntry) => !(e.asid == asid && overlaps e.va e.size lo (hi - lo))
      .next (fire 67 { s with
        clusters := s.clusters.map (fun k => { k with tlb := k.tlb.filter stays })
        host := { s.host with
          dieTlb := s.host.dieTlb.filter (fun e => stays e.2), sdctl := nat64 (c.toNat % 2 ^ 63) } })

/-! ### Replies (R389) -/

/-- The completion word that waits for a tag's page. -/
def cwOf (s : State) (tag : Nat) : Option CwWrite := s.disp.cwWaiting.find? (fun w => w.tag == some tag)

/-- Remove it. -/
def dropCw (tag : Nat) (s : State) : State :=
  { s with disp := { s.disp with cwWaiting := s.disp.cwWaiting.filter (fun w => w.tag != some tag) } }

/-- A request that is answered done: the waiting stage retries. -/
def replyDone (e : TagEntry) (s : State) : State :=
  let s := dropTag e.tag s
  if e.kind = 2 ∧ e.source = 2 then
    match cwOf s e.tag with
    | some w => retryCws (writeCw { w with tag := none } (dropCw e.tag s))
    | none => retryCws s
  else retryCws s

/-- A request that is answered failed. -/
def replyFailed (e : TagEntry) (s : State) : State :=
  let s := dropTag e.tag s
  let s := match e.source with
    | 0 => if (launchAt s e.who).phase = 1 then endLaunch e.who statusFault Cause.notres.code 0 s else s
    | 1 =>
      match (enumerate 0 (queueAt s e.who).store).find? (fun x => x.2.seq == e.seq) with
      | some x => failDep e.who x.1 x.2 s
      | none => s
    | 2 =>
      match cwOf s e.tag with
      | some w => fire w.queue (dropCw e.tag s)
      | none => s
    | _ => s
  retryCws s

/-- A reply whose tag is free or whose kind does not match is dropped and counted. -/
def reply (tag kind : Nat) (done_ : Bool) (s : State) : State :=
  match s.host.tags.find? (fun e => e.tag == tag && e.kind == kind) with
  | some e => if done_ then replyDone e s else replyFailed e s
  | none => { s with host := { s.host with drcnt := s.host.drcnt + 1 } }

/-- A write of FRRPLY leaves its tag in the register. -/
def noteTag (tag : BitVec 8) (s : State) : State := { s with host := { s.host with frrply := tag } }

def execFrrplyDone (tag : BitVec 8) (s : State) : Out := .next (reply tag.toNat 2 true (noteTag tag s))
def execFrrplyFailed (tag : BitVec 8) (s : State) : Out := .next (reply tag.toNat 2 false (noteTag tag s))
def execPriResponse (tag : Nat) (ok : Bool) (s : State) : Out := .next (reply tag 3 ok s)

/-! ### The request ring's registers (R376, R388) -/

/-- A legal ring size. -/
def ringSizeOk (n : Nat) : Bool := [0, 16, 32, 64, 128, 256, 512, 1024, 2048, 4096].contains n

/-- A write of FRSIZE. -/
def writeFrsize (v : Word64) (s : State) : State :=
  let n := fieldOf v 0 13
  if ringSizeOk n then report0 { s with host := { s.host with frsize := n, frhead := 0, frtail := 0 } } else s
where
  /-- reports that wait are written as far as there is room -/
  report0 (s : State) : State := flushReports s.host.reports s

/-- A write of FRHEAD lets waiting reports be written. -/
def writeFrhead (v : BitVec 32) (s : State) : State :=
  let s := { s with host := { s.host with frhead := v } }
  retryCws (flushReports s.host.reports s)

def execFrsizeWrite (v : Word64) (s : State) : Out := .next (writeFrsize v s)
def execFrheadWrite (v : BitVec 32) (s : State) : Out := .next (writeFrhead v s)

/-! ### Other registers -/

/-- A write of 1 to ELCLR: the log is empty, and results of running self-tests have no record (R373). -/
def clearLog (s : State) : State :=
  { s with host := { s.host with elog := [], ovf := false, tests := s.host.tests.map (fun t => (t.1, none)) } }

def execElclr (s : State) : Out := .next (clearLog s)

/-- PCAP: a value outside 300-2,400 is ignored (R403). -/
def writePcap (v : Word64) (s : State) : State :=
  let p := fieldOf v 0 12
  if 300 ≤ p ∧ p ≤ 2400 then { s with plat := { s.plat with pcap := p } } else s

def execPcapWrite (v : Word64) (s : State) : Out := .next (writePcap v s)

/-- A legal frequency code. -/
def codeOk (k : Nat) : Bool := decide (12 ≤ k) && decide (k ≤ 18)

/-- One byte of the die-clock register. -/
def writeDieByte (v : Word64) (k : Nat) (s : State) : State :=
  let d := dieAt s k
  let code := fieldOf v (8 * k) 5
  let fix := bitOf v (8 * k + 7)
  let now := match d.relock, d.ramp with
    | some r, _ => r.1
    | none, some c => if d.code < c then c else d.code
    | none, none => d.code
  if fix && !codeOk code then s
  else putDie k { d with
    fix := fix, fixCode := if codeOk code then code else d.fixCode
    target := if d.fix && !fix then now else d.target } s

def writeDieClock (v : Word64) (s : State) : State :=
  writeDieByte v 3 (writeDieByte v 2 (writeDieByte v 1 (writeDieByte v 0 s)))

def execDieClockWrite (v : Word64) (s : State) : Out := .next (writeDieClock v s)

/-- A word of a launch queue's window (R302). -/
def writeWindow (q slot word : Nat) (v : Word64) (s : State) : State :=
  let qu := queueAt s q
  let old := (getBy (·.1) slot (slot, []) qu.window).2
  let ws := setAt (old ++ List.replicate (8 - old.length) 0) word v
  putQueue { qu with window := putBy (·.1) (slot, ws) qu.window } s

/-- A word of a match-table entry; the host does not write one of firmware's (R391). -/
def writeMatch (i word : Nat) (v : Word64) (s : State) : State :=
  let e := getBy MatchEntry.index i { index := i, w0 := 0, mask := 0, w2 := 0, tgt := 0 } s.host.matchTable
  let e := match word with
    | 0 => { e with w0 := v &&& ~~~nat64 (63 * 2 ^ 16) }
    | 1 => { e with mask := v }
    | 2 => { e with w2 := v &&& nat64 (7 * 2 ^ 61 + 65535) }
    | _ => { e with tgt := v }
  if bitOf (getBy MatchEntry.index i { index := i, w0 := 0, mask := 0, w2 := 0, tgt := 0 } s.host.matchTable).w2 60 then s
  else { s with host := { s.host with matchTable := putBy MatchEntry.index e s.host.matchTable } }

/-- A write in a queue's register page (R302). -/
def writeQueuePage (q o : Nat) (v : Word64) (s : State) : State :=
  if o < 0x800 then writeWindow q (o / 64) (o / 8 % 8) v s
  else if o = 0x800 then
    (let qu := queueAt s q
     if qu.busy || holding s then putQueue { qu with heldDb := qu.heldDb ++ [fieldOf v 0 6] } s
     else doorbell q (fieldOf v 0 6) s)
  else if o = 0x810 ∧ fieldOf v 0 2 = 1 then qctl q false s
  else if o = 0x810 ∧ fieldOf v 0 2 = 2 then qctl q true s
  else s

/-- A host write of 8 bytes to a register: read-only and reserved places ignore it. -/
def writeRegister (offset : Nat) (v : Word64) (s : State) : State :=
  if offset < 0x40000 then writeQueuePage (offset / 4096) (offset % 4096 / 8 * 8) v s
  else if offset = 0x42008 then (if bitOf v 0 then clearLog s else s)
  else if offset = 0x50000 then { s with host := { s.host with sdva := v } }
  else if offset = 0x50008 then writeSdctl v s
  else if offset = 0x51000 then writeBfctl v s
  else if offset = 0x52000 then { s with host := { s.host with frbase := nat64 (v.toNat / 32 * 32) } }
  else if offset = 0x52008 then writeFrsize v s
  else if offset = 0x52010 then writeFrhead (v.setWidth 32) s
  else if offset = 0x52020 then
    (let t := noteTag (v.setWidth 8) s
     if fieldOf v 8 2 = 1 then reply (fieldOf v 0 8) 2 true t
     else if fieldOf v 8 2 = 2 then reply (fieldOf v 0 8) 2 false t
     else t)
  else if 0x60000 ≤ offset ∧ offset < 0x60800 then
    firePending { s with host := { s.host with regs := putBy (·.1) (offset / 8 * 8, v) s.host.regs } }
  else if offset = 0x70000 then writePcap v s
  else if offset = 0x70008 then writeDieClock v s
  else if 0x200000 ≤ offset ∧ offset < 0x220000 then writeMatch ((offset - 0x200000) / 32) (offset / 8 % 4) v s
  else s

def execRegisterWrite (offset : Nat) (v : Word64) (s : State) : Out := .next (writeRegister offset v s)

/-! ### Reading a register -/

/-- A word of a record of the error log (R372). -/
def errWord (r : ErrRec) (i : Nat) : Word64 :=
  match i with
  | 0 => nat64 (r.source % 2 ^ 20 + boolBit r.uncorrected 20 + boolBit r.lasting 21 + r.action % 8 * 2 ^ 22 + boolBit r.done 25)
  | 1 => nat64 r.count
  | 2 => nat64 r.time
  | _ => nat64 r.addr

/-- The die-clock and status registers (R403). -/
def clockWord (s : State) : Word64 :=
  nat64 (((List.range 4).map (fun k =>
    (boolBit (dieAt s k).fix 7 + (dieAt s k).fixCode % 32) * 2 ^ (8 * k))).sum)
def stageWord (p : Plat) : Word64 :=
  nat64 (p.stage % 256 * 2 ^ 8 + boolBit p.ckpt 4 + boolBit p.brown 3 + boolBit p.resumed 2 + boolBit p.traffic 1 + boolBit p.devready 0)

/-- A word of a queue's register page (R302). -/
def readQueuePage (q : Queue) (o : Nat) : Word64 :=
  if o < 0x800 then ((getBy (·.1) (o / 64) (0, []) q.window).2).getD (o / 8 % 8) 0
  else if o = 0x808 then statusWord q
  else 0

/-- A word of a match-table entry. -/
def readMatch (s : State) (i word : Nat) : Word64 :=
  let e := getBy MatchEntry.index i { index := i, w0 := 0, mask := 0, w2 := 0, tgt := 0 } s.host.matchTable
  match word with
  | 0 => e.w0
  | 1 => e.mask
  | 2 => e.w2
  | _ => e.tgt

/-- What a host read of 8 bytes at an offset of BAR0 returns (R302, R371-R373, R376, R391, R403); write-only and reserved
places read as 0. -/
def readRegister (s : State) (offset : Nat) : Word64 :=
  if offset < 0x40000 then readQueuePage (queueAt s (offset / 4096)) (offset % 4096 / 8 * 8)
  else if offset < 0x42000 then
    (match s.host.elog[(offset - 0x40000) / 32]? with
      | some r => errWord r (offset / 8 % 4)
      | none => 0)
  else if offset = 0x42000 then nat64 (boolBit s.host.ovf 9 + s.host.elog.length)
  else if offset = 0x50000 then s.host.sdva
  else if offset = 0x50008 then s.host.sdctl
  else if offset = 0x51000 then s.host.bfctl
  else if offset = 0x52000 then s.host.frbase
  else if offset = 0x52008 then nat64 s.host.frsize
  else if offset = 0x52010 then s.host.frhead.setWidth 64
  else if offset = 0x52018 then s.host.frtail.setWidth 64
  else if offset = 0x52028 then s.host.drcnt.setWidth 64
  else if offset = 0x52020 then s.host.frrply.setWidth 64
  else if 0x60000 ≤ offset ∧ offset < 0x60800 then msixWord s offset
  else if 0x61000 ≤ offset ∧ offset < 0x61010 then pbaWord s ((offset - 0x61000) / 8)
  else if offset = 0x70000 then nat64 s.plat.pcap
  else if offset = 0x70008 then clockWord s
  else if offset = 0x70010 then stageWord s.plat
  else if 0x100000 ≤ offset ∧ offset < 0x182C00 then
    (let e := errOf s ((offset - 0x100000) / 8)
     nat64 (e.1.toNat + e.2.toNat * 2 ^ 32))
  else if 0x200000 ≤ offset ∧ offset < 0x220000 then readMatch s ((offset - 0x200000) / 32) (offset / 8 % 4)
  else if 0x220000 ≤ offset ∧ offset < 0x220800 then
    nat64 (getBy (fun (x : Nat × Nat × Nat) => x.1 * 8 + x.2.1) ((offset - 0x220000) / 8) (0, 0, 0) s.host.ports).2.2
  else 0

/-! ### Handle tables (R26) -/

/-- An entry from its three words. -/
def handleWords (w0 w1 w2 : Word64) : HandleEntry :=
  { base := fieldOf w0 0 57, length := fieldOf w1 0 54, remote := bitOf w2 20, rcl := fieldOf w2 16 4, valid := bitOf w2 9
    lease := bitOf w2 8, e := bitOf w2 7, x := bitOf w2 6, w := bitOf w2 5, r := bitOf w2 4, policy := fieldOf w2 2 2
    space := fieldOf w2 0 2 }

/-- What the leaf never writes. -/
def neverWritten (e : HandleEntry) : Bool :=
  e.space == 3 || e.policy == 3 || (e.remote && (e.r || e.w || e.x || e.space != 0 || !e.e))

/-- May the entry of a handle become `e`?  Handles 1 to 3 keep their space and permissions, and a handle that the module
does not declare stays invalid, as handle 3 without a parameter block does (R27). -/
def mayRewrite (s : State) (c : Ctx) (h : Nat) (e : HandleEntry) : Bool :=
  if h < 4 then
    c.handles.any (fun x => x.1 == h && x.2.space == e.space && x.2.r == e.r && x.2.w == e.w && x.2.x == e.x &&
      x.2.e == e.e && x.2.lease == e.lease && x.2.remote == e.remote)
  else decide (h < 4 + (moduleAt s c.bind.module).handles.length)

/-- Firmware has changed a mapping: the leaf rewrites an entry of a bound context. -/
def execHandleTableRewrite (ctx h : Nat) (w0 w1 w2 : BitVec 64) (s : State) : Out :=
  let c := ctxOf s ctx
  let e := handleWords w0 w1 w2
  if c.run = .unbound ∨ mayRewrite s c h e = false ∨ neverWritten e = true then .next s
  else .next (putCtx { c with handles := putBy (·.1) (h, e) c.handles } s)

end Sys2Proof.Machine
end

