-- ==== Sys2Proof/Machine/ClockDev.lean ====
section
/-!
DEFINITION. Device steps of time and clocks: the governor (R404), frequency steps (R399, R401), and reference time
(R397).
-/

namespace Sys2Proof.Machine

open Sys2Proof

/-! ### The governor (R404) -/

/-- The lowest-numbered die that is not fixed and has the largest code, or the smallest. -/
def pickDie (s : State) (better : Nat → Nat → Bool) : Option Nat :=
  ((List.range 4).filter (fun k => !(dieAt s k).fix)).foldl (fun b k => match b with
    | none => some k
    | some j => if better (dieAt s k).code (dieAt s j).code then some k else some j) none

/-- The mean power of the last 100 µs was `power` W: the governor asks for one code less of the fastest die, or one
more of the slowest.
DEDUCED, safe (log entry 59). -/
def execGovernorTick (power : Nat) (s : State) : Out :=
  let ask := fun (k : Nat) (code : Nat) => if codeOk code then putDie k { dieAt s k with target := code } s else s
  if s.plat.pcap < power then
    match pickDie s (fun a b => decide (b < a)) with
    | some k => .next (ask k ((dieAt s k).code - 1))
    | none => .next s
  else if power * 10 < s.plat.pcap * 9 then
    match pickDie s (fun a b => decide (a < b)) with
    | some k => .next (ask k ((dieAt s k).code + 1))
    | none => .next s
  else .next s

/-! ### Frequency steps (R399, R401) -/

/-- The code a die is to run at. -/
def wanted (d : Die) : Nat := if d.fix then d.fixCode else d.target

/-- T: the first tick from a moment on whose start is a cycle boundary of the die. -/
def boundaryTick (d : Die) (moment : Nat) : Nat :=
  let first := (moment + tickUnits - 1) / tickUnits
  match (List.range 10).find? (fun i => decide (d.base ≤ (first + i) * tickUnits) &&
      ((first + i) * tickUnits - d.base) % cycleUnits d.code == 0) with
  | some i => first + i
  | none => first

/-- The die stops and its PLL relocks from tick T on. -/
def beginRelock (k code : Nat) (s : State) : State :=
  let d := dieAt s k
  putDie k { d with relock := some (code, boundaryTick d s.plat.moment) } s

/-- May a step start: none is in progress and the last began a millisecond ago? -/
def stepFree (s : State) (d : Die) : Bool :=
  d.relock.isNone && d.ramp.isNone && (match d.lastStep with
    | none => true
    | some t => decide (t + 1000000 ≤ rtm s))

/-- Firmware starts the step that the governor or the fix asks for: a rise ramps the supply first. -/
def execFrequencyStep (die code : Nat) (s : State) : Out :=
  let d := dieAt s die
  if decide (die < 4) && codeOk code && wanted d == code && d.code != code && stepFree s d && !braking s then
    let s := putDie die { d with lastStep := some (rtm s) } s
    if d.code < code then .next (putDie die { dieAt s die with ramp := some code } s)
    else .next (beginRelock die code s)
  else .next s

/-- A ramp ends: before a rise the die relocks now. -/
def execSupplyRampDone (die : Nat) (s : State) : Out :=
  let d := dieAt s die
  match d.ramp with
  | none => .next s
  | some code =>
    let s := putDie die { d with ramp := none, supply := code } s
    if d.code < code then .next (beginRelock die code s) else .next s

/-- The start of tick T + 2,048: the die goes on with CYC = C at the new frequency, the FSR registers describe the
step, and after a fall the supply ramps down. -/
def execRelockEnd (die : Nat) (s : State) : Out :=
  let d := dieAt s die
  match d.relock with
  | none => .next s
  | some (code, t) =>
    if rtm s < t + 2048 then .next s
    else
      let c := d.cyc + (t * tickUnits - d.base) / cycleUnits d.code
      .next (putDie die { d with
        relock := none, code := code, cyc := c, base := (t + 2048) * tickUnits
        fsrt := t, fsrc := c, fsrf := d.code + 256 * code
        ramp := if code < d.code then some code else none } s)

/-! ### Reference time (R397) -/

/-- RTM moves forward by some ticks, and the dies' cycle counts do not: their boundaries keep their places in the ticks (R398).
DEDUCED, unsafe (log entry 58). -/
def shiftTime (ticks : Nat) (s : State) : State :=
  let f := fun (d : Die) => { d with
    base := d.base + ticks * tickUnits
    relock := d.relock.map (fun r => (r.1, r.2 + ticks))
    lastStep := d.lastStep.map (· + ticks) }
  { s with plat := { s.plat with
    moment := s.plat.moment + ticks * tickUnits
    groupAt := s.plat.groupAt.map (· + ticks)
    calmAt := s.plat.calmAt.map (· + ticks)
    dies := s.plat.dies.map f } }

/-- Before DEVREADY, firmware sets RTM forward, once. -/
def execRtmSet (v : Nat) (s : State) : Out :=
  if s.plat.devready ∨ s.plat.rtmSet ∨ v ≤ rtm s then .next s
  else
    let s := shiftTime (v - rtm s) s
    .next { s with plat := { s.plat with rtmSet := true } }

/-- Firmware slews the rate of RTM, by at most 200 ppm. -/
def execRtmSlew (ppm : Int) (s : State) : Out :=
  if -200 ≤ ppm ∧ ppm ≤ 200 then .next { s with plat := { s.plat with slew := ppm } } else .next s

end Sys2Proof.Machine
end

