-- ==== Sys2Proof/Machine/BootDev.lean ====
section
/-!
DEFINITION. Device steps of boot (R405, R406), brown-out and checkpoint (R407-R410), and the loss of the supply.
-/

namespace Sys2Proof.Machine

open Sys2Proof

/-! ### The checkpoint set (R408) -/

/-- A channel with its QCW. -/
def chanImage (s : State) (l : Launch) (x : Nat × Nat × Nat) : Nat × Nat × Nat × List Byte :=
  let w2 := ofBytes (areaRead s x.1 l.area (x.2.1 + 16) 8)
  let n := 32 + w2 % 65536 * (w2 / 2 ^ 16 % 256) * 8
  (x.1, l.area, x.2.1, areaRead s x.1 l.area x.2.1 n)

/-- The `.ckpt` ranges of a launch that lie in LOCAL memory, in a cluster that holds `c`. -/
def localRanges (s : State) (l : Launch) (c : Ctx) : List (Nat × Nat × Nat × List Byte) :=
  (moduleAt s l.module).ckpt.filterMap (fun r =>
    let e := entryIn c.handles r.1
    if e.valid && e.space == 0 then
      some (clusterOf c.id, l.area, e.base + r.2.1, areaRead s (clusterOf c.id) l.area (e.base + r.2.1) r.2.2)
    else none)

/-- Bytes of a virtual range at their homes. -/
def virtualRead (s : State) (asid va n : Nat) : List Byte :=
  (List.range n).map (fun i => match walk s asid (va + i) with
    | some e => BitVec.ofNat 8 (homeReadN s (homeKey s e (va + i)) 1)
    | none => 0)

/-- The `.ckpt` ranges of a launch that lie in GLOBAL memory. -/
def globalRanges (s : State) (l : Launch) : List (Nat × Nat × List Byte) :=
  let m := moduleAt s l.module
  m.ckpt.filterMap (fun r => match rangeEntry m r.1 with
    | some e => if e.space = 1 then some (m.asid, e.base + r.2.1, virtualRead s m.asid (e.base + r.2.1) r.2.2) else none
    | none => none)

/-- One context of a launch in each of its clusters. -/
def clusterReps (s : State) (l : Launch) : List Ctx :=
  (clustersOf s l.id).filterMap (fun k => (ctxsOf s l.id ++ savedOf s l.id).find? (fun c => clusterOf c.id == k))

/-- The checkpoint set of a machine whose launches have been rolled back, with its marker: B, the size and the digest of the
set's image, which is free (log entry 63). -/
def checkpointOf (s : State) (began : Nat) : Ckpt :=
  let ls := s.disp.launches.filter (fun l => l.phase != 4)
  { queues := s.disp.queues.map (fun q => { q with window := [], heldDb := [], busy := false, isReset := false })
    launches := ls
    ctxs := (allCtx s).filter (fun c => c.run != .unbound)
    saved := s.disp.savedCtx
    units := (s.clusters.map (fun c => c.bars.map (fun b => (c.id, b)))).flatten
    pages := (s.clusters.map (fun c => (c.pageMap.filter (fun f => pmUse f.2 == 0)).map (fun f => (c.id, f.2)))).flatten ++
      s.mem.backing.map (fun b => (b.cluster, b.entry))
    cal := s.homes.cal
    locals := (ls.map (fun l => l.carved.map (chanImage s l) ++ ((clusterReps s l).map (localRanges s l)).flatten)).flatten
    globals := (ls.map (globalRanges s)).flatten
    began := began
    size := (Config.setImage s.fresh).length
    digest := sha384 (Config.setImage s.fresh)
    image := s.fresh }

/-- Is the marker of a set valid: does its digest match the set (R410)? -/
def markerOk (k : Ckpt) : Bool := k.digest == sha384 (Config.setImage k.image)

/-! ### Restoring it (R410) -/

/-- Frames for the pages of the set, in their modes and on their home tiles. -/
def restorePages : List (Nat × BitVec 64) → State → State
  | [], s => s
  | p :: ps, s =>
    restorePages ps (placePage p.1 p.2 s)

/-- Barrier units of the set. -/
def restoreUnits : List (Nat × BarUnit) → State → State
  | [], s => s
  | u :: us, s =>
    let cl := clusterAt s u.1
    restoreUnits us (putCluster { cl with bars := putBy BarUnit.unit u.2 cl.bars } s)

/-- Initial contents of a launch's LOCAL objects, as at its placement. -/
def restoreObjects (l : Launch) (c : Ctx) (s : State) : State :=
  let m := moduleAt s l.module
  initLocals m (clusterOf c.id) l.area (((enumerate 4 m.handles).filter (fun h => h.2.space == 0)).map (fun h =>
    (h.1, (entryIn c.handles h.1).base))) s

/-- The step knot of a launch, as at its placement. -/
def restoreKnot (l : Launch) (s : State) : State :=
  match l.stepKnot, (moduleAt s l.module).graph with
  | some k, some g => areaWords k.1 k.2.1 k.2.2 [nat64 (actorAt (moduleAt s l.module) g.1).count] s
  | _, _ => s

/-- The arrival rings of a context's core start empty. -/
def restoreRing (c : Ctx) (s : State) : State :=
  let low := (entryIn c.handles 1).base
  areaWords (clusterOf c.id) c.bind.area c.bind.arqOff
    (qcwWords 0 (mkPtr 1 (c.bind.arqOff + 32 - low)) false false false 0 10 c.bind.ring extEnd extEnd) s

/-- The launches of a set that have a context in a cluster which is out of service (R7). -/
def unplaced (s : State) (k : Ckpt) : List Nat :=
  ((k.launches.filter (fun l => l.phase == 3 || l.phase == 2)).map (·.id)).filter (fun l =>
    (k.ctxs ++ k.saved).any (fun c => c.bind.launch == l && !(inService s).contains (clusterOf c.id)))

/-- The set is restored; the bundle's modules are loaded.  What was held while it waited stays held, and a launch that cannot
be where it was ends.
DEDUCED, unsafe (log entry 63). -/
def restoreCkpt (k : Ckpt) (s : State) : State :=
  let held := fun (q : Queue) => { q with window := (queueAt s q.id).window, heldDb := (queueAt s q.id).heldDb }
  let s := { s with
    disp := { s.disp with
      queues := k.queues.map held ++ s.disp.queues.filter (fun q => !k.queues.any (·.id == q.id))
      launches := k.launches, savedCtx := k.saved }
    homes := { s.homes with cal := k.cal } }
  let s := restoreUnits k.units (restorePages k.pages s)
  let s := k.ctxs.foldl (fun s c => putCtx c s) s
  let s := k.launches.foldl (fun s l => (clusterReps s l).foldl (fun s c => restoreObjects l c s) (restoreKnot l s)) s
  let s := (k.ctxs ++ k.saved).foldl (fun s c => restoreRing c s) s
  let s := k.locals.foldl (fun s x => areaBytes x.1 x.2.1 x.2.2.1 x.2.2.2 s) s
  let s := k.globals.foldl (fun s x => writeVirtual x.1 x.2.2.length x.2.1 x.2.2 s) s
  abortAll (unplaced s k) (forEach setWeight ((k.ctxs.map (fun c => coreOf c.id)).eraseDups)
    (forEach (fun id s =>
      let c := ctxOf s id
      restoreCmds id c.restartCmds (restoreSlots c c.restartSlots c.restartShadow s)) (k.ctxs.map (·.id)) s))

/-! ### Brown-out (R407-R410) -/

/-- Every launch that runs goes back to its last cut, or ends when its step is past that (R365). -/
def rollAll : List Nat → State → State
  | [], s => s
  | l :: ls, s => rollAll ls (rollOrEnd l 0 0 s)

/-- BROWNOUT_N is asserted: before DEVREADY the boot stops where it is; afterwards the sequence begins. -/
def execBrownoutAssert (s : State) : Out :=
  let p := { s.plat with pin := true, brown := true, calmAt := none }
  if s.plat.off then .next s
  else if s.plat.devready then
    .next { s with plat := { p with brownAt := match s.plat.brownAt with
      | some b => some b
      | none => some (rtm s) } }
  else .next { s with plat := p }

/-- Writes that were held take effect. -/
def playAll : List Queue → State → State
  | [], s => s
  | q :: qs, s => playAll qs (playHeld q.id q.heldDb (putQueue { queueAt s q.id with heldDb := [] } s))

/-- What is held for the queues that are not busy takes effect, unless it has to wait on. -/
def playHeldAllUnless (wait : Bool) (s : State) : State :=
  if wait then s else playAll (s.disp.queues.filter (fun q => !q.busy)) s

/-- The supply has stayed good: the marker is invalidated, and the launches go on from the set (R410).  While stage 8 has a set
still to restore, the set waits for it. -/
def resumeHere (s : State) : State :=
  let wait := decide (s.plat.stage ≤ 8) && s.plat.sealed.isSome
  playHeldAllUnless wait { s with plat := { s.plat with
    sealed := if wait then s.plat.sealed else none
    resumed := s.plat.resumed || !wait
    brownAt := none, written := false } }

/-- The set that the sequence writes: what stage 8 has still to restore is written again. -/
def setNow (b : Nat) (s : State) : Ckpt :=
  match s.plat.sealed with
  | some k => if s.plat.stage ≤ 8 ∧ markerOk k = true then { k with began := b } else checkpointOf s b
  | none => checkpointOf s b

/-- From 1 ms on every launch is stopped and rolled back, and the set and its marker are complete: the sequence ends, and what
was held takes effect.
DEDUCED, unsafe (log entry 63). -/
def execCheckpointSealed (s : State) : Out :=
  match s.plat.brownAt with
  | none => .next s
  | some b =>
    if brownStopped s = false ∨ s.plat.written = true then .next s
    else
      let s := rollAll ((s.disp.launches.filter (fun l => l.phase == 3)).map (·.id)) s
      let s := { s with plat := { s.plat with sealed := some (setNow b s), ckpt := true, written := true }, fresh := s.fresh + 1 }
      let s := playHeldAllUnless (holding s) s
      if s.plat.pin then .next s else .next (resumeHere s)

/-- BROWNOUT_N is deasserted: the sequence runs to its end; once the marker is written the launches resume. -/
def execBrownoutDeassert (s : State) : Out :=
  let t := { s with plat := { s.plat with pin := false, calmAt := some (rtm s) } }
  if s.plat.pin = false then .next s
  else if braking s && s.plat.written then .next (resumeHere t)
  else .next t

/-- The start of the next tick, at which the dies leave reset (R398). -/
def nextTick (moment : Nat) : Nat := (moment + tickUnits - 1) / tickUnits * tickUnits

/-- A machine whose boot begins anew: what survives is what power does not hold, and what firmware knows of units that are
retired: clusters out of service, spare rows used, and the others (R7, R370).
DEDUCED, unsafe (log entry 61). -/
def restartBoot (moment : Nat) (s : State) : State :=
  { cur := {}
    mem := { host := s.mem.host }
    banks := (s.banks.filter (fun b => b.spares != 4)).map (fun b => { id := b.id, spares := b.spares })
    homes := { retired := s.homes.retired }
    clusters := s.clusters.filterMap (fun c => if c.out || c.outNext then some { id := c.id, out := true } else none)
    plat := { gl4012 := s.plat.gl4012, moment := moment, rtmSet := s.plat.rtmSet
              dies := Vector.replicate 4 { base := nextTick moment }
              fuses := s.plat.fuses, sealed := s.plat.sealed }
    agenda := s.agenda, steps := s.steps, fresh := s.fresh }

/-- A boot that a brown-out stopped restarts at stage 1 after 100 ms of a deasserted pin; RTM keeps counting. -/
def execBrownoutRestart (s : State) : Out :=
  let calm := s.plat.calmAt.any (fun t => decide (t + 100000000 ≤ rtm s))
  if s.plat.brown && !s.plat.devready && !s.plat.pin && calm && !s.plat.off then
    let t := restartBoot s.plat.moment s
    .next { t with plat := { t.plat with brown := true, ckpt := s.plat.ckpt } }
  else .next s

/-- The supply fails: a set without its marker is lost with the rest. -/
def execSupplyFailure (s : State) : Out :=
  let t := restartBoot s.plat.moment s
  .next { t with plat := { t.plat with off := true } }

/-! ### Boot (R405, R406) -/

/-- Power is good: RTM is 0, and stage 1 runs. -/
def execPowerGood (s : State) : Out :=
  if s.plat.off = false then .next s
  else
    let t := restartBoot 0 s
    .next { t with plat := { t.plat with rtmSet := false } }

/-- The fuse counter: the first unblown of 64 fuses. -/
def fuseCount (f : BitVec 64) : Nat :=
  match (List.range 64).find? (fun i => !f.getLsbD i) with
  | some i => i
  | none => 64

/-- An image is accepted: its signature verifies and its version is at least the counter. -/
def imageOk (s : State) (slot : Nat) : Bool :=
  decide (fuseCount s.plat.fuses ≤ Config.image slot 0) &&
  ecdsaOk Config.bootKey (Config.image slot 1) (Config.image slot 2)

/-- Recovery (stage 11).
DEDUCED, unsafe (log entry 62). -/
def recovery (s : State) : State := { s with plat := { s.plat with stage := 11 } }

/-- The next stage. -/
def nextStage (s : State) : State := { s with plat := { s.plat with stage := s.plat.stage + 1 } }

/-- Fuses up to the running first-stage image's version are blown, if it is marked for commit. -/
def blowFuses (s : State) : State :=
  match s.plat.first with
  | some slot =>
    if Config.image slot 3 = 0 then s
    else { s with plat := { s.plat with fuses := s.plat.fuses ||| nat64 (2 ^ min (Config.image slot 0) 64 - 1) } }
  | none => s

/-- What a stage does as it completes.  Stage 4 records the dies' native revisions (R351), and stage 8 ends in no brown-out
(log entry 61). -/
def stageWork (s : State) : State :=
  match s.plat.stage with
  | 1 =>
    match [0, 1].find? (imageOk s) with
    | some slot => nextStage { s with plat := { s.plat with first := some slot } }
    | none => recovery s
  | 2 => if imageOk s 2 then nextStage s else recovery s
  | 3 => if s.plat.strandGroups = groupCount s then nextStage s else s
  | 6 => nextStage { s with
      mem := { s.mem with l1 := [], empty := [], hbm := [], poison := [] }, homes := { s.homes with poison := [] } }
  | 7 => blowFuses (nextStage { s with plat := { s.plat with devready := true } })
  | 8 =>
    if braking s then s
    else
      match s.plat.sealed with
      | some k =>
        if markerOk k then
          playHeldAllUnless false (nextStage (restoreCkpt k { s with plat := { s.plat with sealed := none, resumed := true } }))
        else nextStage { s with plat := { s.plat with sealed := none } }
      | none => nextStage s
  | 9 => nextStage { s with plat := { s.plat with traffic := true } }
  | 4 => nextStage { s with plat := { s.plat with
      dies := Vector.ofFn (fun k => { dieAt s k.val with nativeRev := Config.nativeRev k.val }) } }
  | 5 => nextStage s
  | _ => s

/-- A boot stage ends, unless a brown-out before DEVREADY has stopped the boot or the supply is gone. -/
def execBootStageComplete (s : State) : Out :=
  if bootStopped s then .next s
  else .next (stageWork s)

end Sys2Proof.Machine
end

