-- ==== Sys2Proof/Machine/NetDev.lean ====
section
/-!
DEFINITION. Device steps of the packet engine (R376, R391-R395).
-/

namespace Sys2Proof.Machine

open Sys2Proof

/-! ### Port counters (R376) -/

def cntReceived : Nat := 0
def cntNoMatch : Nat := 1
def cntFull : Nat := 2
def cntTruncated : Nat := 3
def cntBadFcs : Nat := 4
def cntSent : Nat := 5
def cntLate : Nat := 6
def cntRejected : Nat := 7

/-- Count one event in a word of a logical port. -/
def countPort (lport word : Nat) (s : State) : State :=
  let key := fun (x : Nat × Nat × Nat) => x.1 * 8 + x.2.1
  let old := (getBy key (lport * 8 + word) (lport, word, 0) s.host.ports).2.2
  { s with host := { s.host with ports := putBy key (lport, word, (old + 1) % 2 ^ 64) s.host.ports } }

/-! ### Parsing (R391) -/

/-- What the packet engine reads of a frame: word 0 of a match entry, whether it is eCPRI, and what is delivered. -/
structure Parsed where
  w0 : Word64
  ecpri : Bool
  payload : List Byte
  deriving DecidableEq, Repr

/-- A big-endian field of a frame. -/
def frameField (f : List Byte) (off n : Nat) : Nat := ofBytes ((f.drop off).take n).reverse

/-- Parse a frame from its destination address: at most one 802.1Q tag (EtherType 0x8100).
PRESUMED, unsafe (log entry 68). -/
def parseFrame (lport : Nat) (f : List Byte) : Parsed :=
  let tagged := frameField f 12 2 == 0x8100
  let at_ := if tagged then 16 else 12
  let vid := if tagged then frameField f 14 2 % 2 ^ 12 else 0
  let etype := frameField f at_ 2
  let body := f.drop (at_ + 2)
  let ecpri := etype == 0xAEFE
  { w0 := nat64 (etype * 2 ^ 48 + vid * 2 ^ 36 + boolBit tagged 35 + lport % 32 * 2 ^ 30 +
      (if ecpri then frameField body 1 1 * 2 ^ 22 + frameField body 4 2 else 0))
    ecpri := ecpri
    payload := body }

/-- The valid entry of lowest index that matches. -/
def matchFrame (es : List MatchEntry) (w0 : Word64) : Option MatchEntry :=
  es.foldl (fun best e =>
    if bitOf e.w2 63 && (e.w0 &&& e.mask) == (w0 &&& e.mask) then
      match best with
      | some b => if e.index < b.index then some e else best
      | none => some e
    else best) none

/-! ### Slots -/

/-- A slot for a frame: the time stamp, word 1, the bytes, and whether they are truncated. -/
def frameSlot (stamp lport size : Nat) (p : Parsed) : List Byte × Bool :=
  let room := (size - 2) * 8
  let data := p.payload.take room
  let cut := decide (room < p.payload.length)
  (toBytes stamp 8 ++ toBytes (data.length % 2 ^ 16 + lport % 32 * 2 ^ 16 + (boolBit cut 21) + (boolBit p.ecpri 22)) 8 ++ data, cut)

/-- Write bytes of an area from an 8-aligned offset, a word at a time, in its frame or in the backing store.
DEDUCED, unsafe (log entry 54). -/
def writeArea (launch cluster area : Nat) : Nat → Nat → List Byte → State → State
  | 0, _, _, s => s
  | _, _, [], s => s
  | n + 1, off, bs, s =>
    let w := bs.take 8
    writeArea launch cluster area n (off + 8) (bs.drop 8)
      (match localKey s cluster area off with
       | some k => l1Write launch k w.length (ofBytes w) s
       | none => setAreaWord launch cluster area off
           (ofBytes w + areaWord s cluster area off / 2 ^ (8 * w.length) * 2 ^ (8 * w.length)) s)

/-! ### Reception (R392) -/

/-- The launch that a queue and a serial name, while it is bound. -/
def boundLaunch (s : State) (queue serial : Nat) : Option Launch :=
  s.disp.launches.find? (fun l => (l.phase == 2 || l.phase == 3) && l.queue == queue && l.seq % 2 ^ 16 == serial)

/-- Count a truncated frame. -/
def countCut (lport : Nat) (cut : Bool) (s : State) : State := if cut then countPort lport cntTruncated s else s

/-- The moment that stamps a frame, when its delivery is a step of this state.
DEDUCED, safe (log entry 70). -/
def frameStamp (s : State) : Nat := rtm s - Config.frameTicks s.fresh

/-- Deliver into a channel: the slot, then head as a release of the packet engine.
DEDUCED, unsafe (log entry 71). -/
def deliverChan (lport : Nat) (p : Parsed) (l : Launch) (c : NetChan) (s : State) : State :=
  if c.f.ok = false ∨ c.f.free = 0 then countPort lport cntFull s
  else
    let slot := frameSlot (frameStamp s) lport c.f.size p
    let s := writeArea l.id c.cluster c.area 1151 (c.slots + c.f.slotOff c.f.head 0) slot.1 (useFree s)
    let s := if c.f.imm then putLaunch { launchAt s l.id with nonRollback := true } s else s
    countCut lport slot.2 (l1Write l.id c.key 4 (c.f.advance c.f.head 1) s)

/-- What an address of a ring gives the packet engine: whether its page is mapped and the pages let it be read and written, and
whether its home may be written now. -/
def ringAt (s : State) (asid va : Nat) : Option Bool :=
  match walk s asid va with
  | none => none
  | some e => if pageAllows s e (homeKey s e va) true true then some (homeReady s (homeKey s e va) true).isNone else none

/-- The lines of a range. -/
def rangeLines (va n : Nat) : List Nat := (List.range ((va + n - 1) / 128 + 1 - va / 128)).map (fun i => (va / 128 + i) * 128)

/-- The 32 bytes of a ring descriptor, as a QCW.
DEDUCED, unsafe (log entry 69). -/
def ringQcw (s : State) (asid va : Nat) : Option Qcw :=
  match ringAt s asid va with
  | none => none
  | some _ => (walk s asid va).map fun e => qcwAt (Memory.writeN [] 0 32 (homeReadN s (homeKey s e va) 32)) 0

/-- Deliver into a GLOBAL ring: the slot, then head at its home as a release of the packet engine, in its turn there.
DEDUCED, unsafe (log entry 67). -/
def deliverRing (lport : Nat) (p : Parsed) (asid va : Nat) (s : State) : DevWrite :=
  match ringQcw s asid va with
  | none => .done (countPort lport cntFull s)
  | some f =>
    if f.ok = false ∨ f.free = 0 then .done (countPort lport cntFull s)
    else
      let slot := frameSlot (frameStamp s) lport f.size p
      let at_ := ov f.base + f.slotOff f.head 0
      let lines := rangeLines at_ slot.1.length
      let head := nat64 (f.advance f.head 1 + f.tail * 2 ^ 32)
      if lines.any (fun x => (ringAt s asid x).isNone) then .done (countPort lport cntFull s)
      else if lines.any (fun x => ringAt s asid x == some false) then .wait s
      else
        match deviceRelease asid va head s with
        | .unmapped => .done (countPort lport cntFull s)
        | .wait t => .wait t
        | .done _ =>
          match deviceRelease asid va head (writeVirtual asid slot.1.length at_ slot.1 (useFree s)) with
          | .done t => .done (countCut lport slot.2 t)
          | _ => .wait s

/-- A received frame goes to the valid entry of lowest index that matches it.
DEDUCED, unsafe (log entry 66). -/
def receiveFrame (lport : Nat) (bytes : List Byte) (s : State) : DevWrite :=
  let p := parseFrame lport bytes
  match matchFrame s.host.matchTable p.w0 with
  | none => .done (countPort lport cntNoMatch s)
  | some e =>
    match fieldOf e.w2 61 2 with
    | 0 => .done s
    | 1 =>
      match boundLaunch s (fieldOf e.tgt 48 6) (fieldOf e.tgt 32 16) with
      | none => .done s
      | some l =>
        let s := reachChan l (fieldOf e.tgt 0 16) s
        match netChan s l (fieldOf e.tgt 0 16) with
        | none => .done s
        | some c => .done (deliverChan lport p l c s)
    | 2 => deliverRing lport p (fieldOf e.w2 0 16) (e.tgt.toNat % 2 ^ 57) s
    | _ => .done (countPort lport cntNoMatch s)

/-- A frame arrives at a logical port.  One whose ring has to wait at its home is taken when that is over. -/
def execFrameReceive (lport : Nat) (bytes : List Byte) (badFcs : Bool) (s : State) : Out :=
  if 32 ≤ lport then .next s
  else if badFcs then .next (countPort lport cntBadFcs (countPort lport cntReceived s))
  else
    match receiveFrame lport bytes s with
    | .done t => .next (countPort lport cntReceived t)
    | .wait t => .next t
    | .unmapped => .next s

/-! ### Transmission (R394) -/

/-- The slots of ended launches that come first of their channels. -/
def leftHeads (s : State) : List TxSlot :=
  (s.host.txLeft.map (fun x => (x.launch, x.chan))).eraseDups.filterMap (fun c =>
    s.host.txLeft.find? (fun x => x.launch == c.1 && x.chan == c.2))

/-- The channels with a slot that is ready for a logical port: launch and number. -/
def readyFor (s : State) (lport : Nat) : List (Nat × Nat) :=
  ((leftHeads s).filter (fun x => x.ok && decide (x.time ≤ rtm s) && x.port == lport)).map (fun x => (x.launch, x.chan)) ++
  (s.disp.launches.map (fun l => (enumerate 0 l.carved).filterMap (fun x =>
    match netChan s l x.1 with
    | some c =>
      if l.phase = 3 ∧ txReady l x.1 c = true ∧ slotTime s c ≤ rtm s ∧ lengthOk (slotLength s c) c.f.size = true ∧
          slotPort s c = lport then some (l.id, x.1) else none
    | none => none))).flatten

/-- How long ago a channel had its turn on a port. -/
def turnAge (s : State) (lport : Nat) (x : Nat × Nat) : Nat :=
  s.host.txTurns.findIdx (fun y => y == (lport, x.1, x.2))

/-- Is it the channel's turn among those with a slot ready for the port?
DEDUCED, unsafe (log entry 72). -/
def itsTurn (s : State) (lport : Nat) (x : Nat × Nat) : Bool :=
  (readyFor s lport).all (fun y => decide (turnAge s lport y ≤ turnAge s lport x))

/-- The slot is stamped and freed. -/
def freeSlot (l : Launch) (c : NetChan) (stamp : Nat) (s : State) : State :=
  let s := writeArea l.id c.cluster c.area 1 (c.slots + c.f.slotOff c.f.tail 0) (toBytes stamp 8) s
  l1Write l.id (c.key + 4) 4 (c.f.advance c.f.tail 1) s

/-- A frame of a channel leaves at a port, late or not. -/
def sendOut (port time launch n : Nat) (frame : List Byte) (s : State) : State :=
  let late := time != 0 && decide (time < rtm s)
  let s := countPort port cntSent (if late then countPort port cntLate s else s)
  { s with host := { s.host with
    sent := (port, frame) :: s.host.sent
    txTurns := (port, launch, n) :: s.host.txTurns.filter (· != (port, launch, n)) } }

/-- Send the frame of the slot at tail. -/
def sendFrame (l : Launch) (n : Nat) (c : NetChan) (s : State) : State :=
  let s := sendOut (slotPort s c) (slotTime s c) l.id n (tailSlot s c 16 (slotLength s c)) s
  freeSlot l c (rtm s) s

/-- The engine takes a slot that an ended launch has left. -/
def sendLeft (x : TxSlot) (s : State) : State :=
  let t := { s with host := { s.host with txLeft := dropFirst x s.host.txLeft } }
  if x.ok = false then countPort x.port cntRejected t
  else if decide (rtm s < x.time) || !itsTurn s x.port (x.launch, x.chan) then s
  else sendOut x.port x.time x.launch x.chan x.frame t

/-- The engine takes the next slot of a channel.
DEDUCED, safe (log entry 70). -/
def execFrameTransmit (id chan : Nat) (s : State) : Out :=
  match (leftHeads s).find? (fun x => x.launch == id && x.chan == chan) with
  | some x => .next (sendLeft x s)
  | none =>
  let l := launchAt s id
  let s := if l.phase = 3 then reachChan l chan s else s
  match netChan s l chan with
  | none => .next s
  | some c =>
    if l.phase != 3 || !txReady l chan c then .next s
    else if lengthOk (slotLength s c) c.f.size = false then
      .next (freeSlot l c 0 (countPort (slotPort s c) cntRejected s))
    else if decide (rtm s < slotTime s c) || !itsTurn s (slotPort s c) (id, chan) then .next s
    else .next (sendFrame l chan c s)

end Sys2Proof.Machine
end

