-- ==== Sys2Proof/Machine/SpdmDev.lean ====
section
/-!
DEFINITION. SPDM requests (R396): each is answered with a body that the spec leaves to SPDM 1.3 (log entry 9: DESIGN CHOICE, safe), formed
from the request and, for measurements, from the state at that moment.
-/

namespace Sys2Proof.Machine

open Sys2Proof

/-- A response of code and body. -/
def respond (code : Nat) (req : List Byte) (words : List Nat) (s : State) : Out :=
  .next { s with host := { s.host with spdm := Config.spdmBody code (req.map (·.toNat) ++ words) :: s.host.spdm } }

/-- The measurements by index: boot images, the security version fuse counter, the deployment settings, and the
loaded modules. -/
def measurements (s : State) : List (Nat × List Nat) :=
  let first := match s.plat.first with
    | some n => n
    | none => 0
  [(1, [Config.image 3 1]), (2, [Config.image first 1]), (3, [Config.image 2 1]), (4, [fuseCount s.plat.fuses]),
   (5, s.host.faultHold :: boolBit s.disp.checkSigs 0 :: (s.disp.keys.map (fun k => [k.1, k.2])).flatten)] ++
  (s.disp.modules.filter (fun m => decide (m.id < 64))).map (fun m => (16 + m.id, [m.digest]))

def execGetVersion (req : List Byte) (s : State) : Out := respond 0x84 req [] s
def execGetCapabilities (req : List Byte) (s : State) : Out := respond 0xE1 req [] s
def execNegotiateAlgorithms (req : List Byte) (s : State) : Out := respond 0xE3 req [] s
def execGetDigests (req : List Byte) (s : State) : Out := respond 0x81 req [] s
def execGetCertificate (req : List Byte) (s : State) : Out := respond 0x82 req [] s
def execChallenge (req : List Byte) (s : State) : Out := respond 0x83 req ((measurements s).map (fun m => m.1 :: m.2)).flatten s
def execGetMeasurements (req : List Byte) (s : State) : Out :=
  respond 0xE0 req ((measurements s).map (fun m => m.1 :: m.2)).flatten s

end Sys2Proof.Machine
end

