-- ==== Sys2Proof/Machine/Agenda.lean ====
section
/-!
DEFINITION. What the machine has to do when the agenda names nothing: each ready core's choice and each unit's
pending work, taken in turns (log entry 2: DESIGN CHOICE, unsafe).  What the outside or the leaf chooses comes from the agenda only.
-/

namespace Sys2Proof.Machine

open Sys2Proof

/-- The next context of each core that has a ready one (R314). -/
def ctxWork (s : State) : List Nat :=
  (((allCtx s).filter (ready s)).map (fun c => coreOf c.id)).eraseDups.filterMap (fun k => chooseIn s (coreAt s k))

/-- What a unit does next. -/
abbrev Job : Type := State → Out

/-- Banks, overflow tables and store buffers (R144, R253, R254). -/
def bankWorkList (s : State) : List Job :=
  (s.banks.filter (fun b => b.retry != [] || b.once != [] || b.reserved != [] || b.pending != [])).map
    (fun b => execBankAccess b.id [] 0) ++
  (s.tiles.map (fun t => (t.table.map (fun p => bankOf s p.key)).eraseDups)).flatten.map execOverflowTableMove ++
  (s.tiles.filter (fun t => t.refused != [])).map (fun t => execRefusedRepresentation t.id) ++
  (s.cores.filter (fun k => k.sbuf != [])).map (fun k => execStoreBufferDrain k.id 0)

/-- Messages in flight (R193, R195, R192, R300). -/
def flightWork (s : State) : List Job :=
  (enumerate 0 s.disp.flight).map (fun x => match x.2 with
    | .trav _ _ => execTravellerArrival x.1
    | .wake _ _ _ _ _ => execWakeDelivery x.1
    | .arrival _ _ _ _ => execBarrierArrival x.1
    | .count _ _ _ _ _ _ => execKnotCountUpdate x.1)

/-- Caches: sweeps, fills, old epochs, conversions (R259, R267, R275, R276). -/
def cacheWork (s : State) : List Job :=
  (s.clusters.map (fun c =>
    (if c.sweep.isSome then [execSweepPassEnd c.id] else if 4 ≤ c.age then [execSweepPass c.id] else []) ++
    (if c.fills = [] then [] else [execCacheFill c.id 0 0 0]) ++
    (match c.lines.findIdx? (fun l => l.mask != 0 && decide (32767 ≤ (c.e - l.e).toNat)) with
      | some i => [execEpochWriteback c.id i]
      | none => []) ++
    (if c.conv.isSome then [execConversionComplete c.id] else []))).flatten

/-- Homes (R271-R274, R287, R163). -/
def homeWork (s : State) : List Job :=
  (enumerate 0 s.homes.reqs).map (fun x =>
    if x.2.acq then execHomeAcquire [x.1] else if x.2.rel then execHomeRelease [x.1] else execHomeAtomic [x.1]) ++
  (enumerate 0 s.homes.busy).map (fun x =>
    if x.2.recalling then execRecall x.2.agent x.2.line else if x.2.drained then execDrainDone x.1 else execDrain x.1) ++
  s.homes.changed.map execMonwWake ++
  (((s.homes.reqs.filter (·.watching)).map (fun r => r.pa / 128 * 128)).eraseDups.filter
    (fun l => !s.homes.watches.contains l)).map execMonwPoll

/-- Engines (R288-R300). -/
def engineWork (s : State) : List Job :=
  (s.cores.map (fun k =>
    (if k.mq = [] then [] else [execOperandFetch k.id, execMatrixTurn (k.id / 8), execEngineCompletion k.id false]) ++
    (if k.cq = [] then [] else [execCopyChunk k.id, execCpychAppend k.id, execEngineCompletion k.id true]))).flatten ++
  (s.homes.calReqs.map (·.pch)).eraseDups.map execCalendarSlot

/-- Waits that time ends, and waits on a hand-off's drain (R163, R192, R203, R206, R219, R316). -/
def waitWork (s : State) : List Job :=
  (allCtx s).filterMap (fun c => match c.run with
    | .parked (.cycles _) => some (execWaitcExpiry c.id)
    | .parked (.align _ _) => some (execAlignTimeout c.id)
    | .parked (.svc _ _) => some (execSvcServiceDone c.id)
    | .parked (.barrier _ _ _ (some _)) => some (execBarwtTimeout c.id)
    | .parked (.bank _) => some (execMonwTimeout c.id)
    | .parked .home => some (execMonwTimeout c.id)
    | .parked .translation => some (execTranslationLowered (clusterOf c.id))
    | .idle => some (execTaskPickup c.id)
    | _ => none) ++
  ((allCtx s).filter (·.handoff != [])).map (fun c => execCrossClusterHandoffDrain c.id)

/-- Faults at the leaf (R353, R354). -/
def leafWork (s : State) : List Job :=
  match s.inbox with
  | [] => []
  | m :: _ =>
    match leafAct s m with
    | .refill => [execL1pageRefill m.ctx]
    | .rollback => [execRollback (ctxOf s m.ctx).bind.launch]
    | _ => [execFaultHold]

/-- Has the dispatcher records or completion words that wait for room, a tag or a home? -/
def dispatchWaits (s : State) : Bool :=
  s.disp.cwWaiting.any (·.tag.isNone) || s.disp.queues.any (fun q => !q.busy && q.heldRec != [] && decide (q.store.length < 32))

/-- Slots that the packet engine may take (R394). -/
def netWork (s : State) : List Job :=
  (leftHeads s).map (fun x => execFrameTransmit x.launch x.chan) ++
  ((s.disp.launches.filter (fun l => l.phase == 3)).map (fun l => (enumerate 0 l.carved).filterMap (fun x =>
    if (netChan s l x.1).any (txReady l x.1) then some (execFrameTransmit l.id x.1) else none))).flatten

/-- Launches (R303-R313, R319). -/
def launchWork (s : State) : List Job :=
  (s.disp.launches.map (fun l => match l.phase with
    | 1 => [execResidencyStage l.id]
    | 2 => [execStageRelease l.id]
    | 3 => [execStageRelease l.id, execStepCut l.id]
    | _ => [])).flatten ++
  (if heads s = [] ∧ dispatchWaits s = false then [] else [fun s => execDispatch (foundPlace s) s]) ++
  (s.cores.filter (fun k => k.arrOver != [])).map (fun k => execOverflowListMove k.id)

/-- Fetch ports (R315). -/
def fetchWork (s : State) : List Job := (s.tiles.filter (fun t => t.fetchReqs != [])).map (fun t => execFetchRequest t.id)

/-- Everything that a unit has to do. -/
def work (s : State) : List Job :=
  bankWorkList s ++ fetchWork s ++ cacheWork s ++ flightWork s ++ homeWork s ++ engineWork s ++ waitWork s ++ leafWork s ++ launchWork s ++ netWork s

end Sys2Proof.Machine
end

