-- ==== Sys2Proof/Machine/Packed.lean ====
section
/-!
DEFINITION. Packed arithmetic (R115-R122) and complex Q15 arithmetic (R123-R125).
-/

namespace Sys2Proof.Machine

open Sys2Proof

/-! ### Lanes -/

/-- The lane width of a width field. -/
def laneBits (w : BitVec 2) : Nat := 8 * 2 ^ w.toNat

/-- Assemble lane results of width `w`, each with its flags (R111, R116). -/
def assemble (w : Nat) (rs : List (Int × Nat)) : Word64 × Nat :=
  (nat64 (packLanes w (rs.map (fun r => wrapN r.1 w))), orFlags (rs.map (·.2)))

/-- A lane function of unsigned and signed lane values, applied to each lane (R116). -/
def lanes2 (w : BitVec 2) (f : Nat → Nat → Nat → Int → Int → Int × Nat) (x y : Word64) : Word64 × Nat :=
  let n := laneBits w
  assemble n ((List.range (64 / n)).map (fun i =>
    let p := lane x.toNat n i
    let q := lane y.toNat n i
    f n p q (sext p n) (sext q n)))

/-- A lane function of one operand. -/
def lanes1 (w : BitVec 2) (f : Nat → Nat → Int → Int × Nat) (x : Word64) : Word64 × Nat :=
  lanes2 w (fun n p _ ps _ => f n p ps) x 0

/-- A packed member on two registers. -/
def packed2 (f : Nat → Nat → Nat → Int → Int → Int × Nat) (d a b : Reg) (w : BitVec 2) (s : State) : Out :=
  putF d (lanes2 w f (rd s a) (rd s b)) s

/-- A packed member on one register. -/
def packed1 (f : Nat → Nat → Int → Int × Nat) (d a : Reg) (w : BitVec 2) (s : State) : Out :=
  putF d (lanes1 w f (rd s a)) s

/-- No flag. -/
def quiet (x : Int) : Int × Nat := (x, 0)

/-- True and false lanes (R117). -/
def truth (b : Bool) : Int × Nat := (if b then -1 else 0, 0)

/-! ### PKA (R117) -/

def execPadd (d a b : Reg) (w : BitVec 2) (s : State) : Out := packed2 (fun _ _ _ x y => quiet (x + y)) d a b w s
def execPsub (d a b : Reg) (w : BitVec 2) (s : State) : Out := packed2 (fun _ _ _ x y => quiet (x - y)) d a b w s
def execPadds (d a b : Reg) (w : BitVec 2) (s : State) : Out := packed2 (fun n _ _ x y => satI (x + y) n) d a b w s
def execPsubs (d a b : Reg) (w : BitVec 2) (s : State) : Out := packed2 (fun n _ _ x y => satI (x - y) n) d a b w s
def execPaddns (d a b : Reg) (w : BitVec 2) (s : State) : Out :=
  packed2 (fun n p q _ _ => satN ((p : Int) + q) n) d a b w s
def execPsubns (d a b : Reg) (w : BitVec 2) (s : State) : Out :=
  packed2 (fun n p q _ _ => satN ((p : Int) - q) n) d a b w s
def execPavg (d a b : Reg) (w : BitVec 2) (s : State) : Out :=
  packed2 (fun _ _ _ x y => quiet ((x + y + 1) / 2)) d a b w s
def execPmin (d a b : Reg) (w : BitVec 2) (s : State) : Out := packed2 (fun _ _ _ x y => quiet (min x y)) d a b w s
def execPmax (d a b : Reg) (w : BitVec 2) (s : State) : Out := packed2 (fun _ _ _ x y => quiet (max x y)) d a b w s
def execPminn (d a b : Reg) (w : BitVec 2) (s : State) : Out :=
  packed2 (fun _ p q _ _ => quiet (min p q : Nat)) d a b w s
def execPmaxn (d a b : Reg) (w : BitVec 2) (s : State) : Out :=
  packed2 (fun _ p q _ _ => quiet (max p q : Nat)) d a b w s
def execPabs (d a : Reg) (w : BitVec 2) (s : State) : Out := packed1 (fun n _ x => satI x.natAbs n) d a w s
def execPneg (d a : Reg) (w : BitVec 2) (s : State) : Out := packed1 (fun n _ x => satI (-x) n) d a w s
def execPcmpeq (d a b : Reg) (w : BitVec 2) (s : State) : Out := packed2 (fun _ p q _ _ => truth (p == q)) d a b w s
def execPcmplt (d a b : Reg) (w : BitVec 2) (s : State) : Out :=
  packed2 (fun _ _ _ x y => truth (decide (x < y))) d a b w s
def execPcmpltn (d a b : Reg) (w : BitVec 2) (s : State) : Out :=
  packed2 (fun _ p q _ _ => truth (decide (p < q))) d a b w s
def execPsllv (d a b : Reg) (w : BitVec 2) (s : State) : Out :=
  packed2 (fun n p q _ _ => quiet (p * 2 ^ (q % n) : Nat)) d a b w s
def execPsrlv (d a b : Reg) (w : BitVec 2) (s : State) : Out :=
  packed2 (fun n p q _ _ => quiet (p / 2 ^ (q % n) : Nat)) d a b w s
def execPsrav (d a b : Reg) (w : BitVec 2) (s : State) : Out :=
  packed2 (fun n _ q x _ => quiet (x / ((2 ^ (q % n) : Nat) : Int))) d a b w s

/-- The sum of some integers. -/
def sumInt : List Int → Int
  | [] => 0
  | x :: xs => x + sumInt xs

/-- Signed and unsigned lanes of a register. -/
def signedLanes (x : Word64) (n : Nat) : List Int := (List.range (64 / n)).map (fun i => sext (lane x.toNat n i) n)
def unsignedLanes (x : Word64) (n : Nat) : List Int := (List.range (64 / n)).map (fun i => ((lane x.toNat n i : Nat) : Int))

def execPsum (d a : Reg) (w : BitVec 2) (s : State) : Out :=
  put d (wrap64 (sumInt (signedLanes (rd s a) (laneBits w)))) s
def execPsumn (d a : Reg) (w : BitVec 2) (s : State) : Out :=
  put d (wrap64 (sumInt (unsignedLanes (rd s a) (laneBits w)))) s

/-! ### PKM (R119) -/

def execPmul (d a b : Reg) (w : BitVec 2) (s : State) : Out := packed2 (fun _ _ _ x y => quiet (x * y)) d a b w s
def execPmulh (d a b : Reg) (w : BitVec 2) (s : State) : Out :=
  packed2 (fun n _ _ x y => quiet (x * y / ((2 ^ n : Nat) : Int))) d a b w s
def execPmulhn (d a b : Reg) (w : BitVec 2) (s : State) : Out :=
  packed2 (fun n p q _ _ => quiet (p * q / 2 ^ n : Nat)) d a b w s
def execPmulq (d a b : Reg) (w : BitVec 2) (s : State) : Out :=
  packed2 (fun n _ _ x y => satQ (x * y) (n - 1) n) d a b w s

/-- The sum of the lane products. -/
def dot (xs ys : List Int) : Int := sumInt ((xs.zip ys).map (fun p => p.1 * p.2))

def execPdot (d a b : Reg) (w : BitVec 2) (s : State) : Out :=
  let n := laneBits w
  let t := (rd s d).toInt + dot (signedLanes (rd s a) n) (signedLanes (rd s b) n)
  putF d (wrap64 t, (satI t 64).2) s
def execPdotn (d a b : Reg) (w : BitVec 2) (s : State) : Out :=
  let n := laneBits w
  let t := ((rd s d).toNat : Int) + dot (unsignedLanes (rd s a) n) (unsignedLanes (rd s b) n)
  putF d (wrap64 t, (satN t 64).2) s

/-! ### PKX (R121, R122) -/

def execPslli (d a : Reg) (w : BitVec 2) (i : BitVec 5) (s : State) : Out :=
  packed1 (fun _ p _ => quiet (p * 2 ^ i.toNat : Nat)) d a w s
def execPsrli (d a : Reg) (w : BitVec 2) (i : BitVec 5) (s : State) : Out :=
  packed1 (fun _ p _ => quiet (p / 2 ^ i.toNat : Nat)) d a w s
def execPsrai (d a : Reg) (w : BitVec 2) (i : BitVec 5) (s : State) : Out :=
  packed1 (fun _ _ x => quiet (x / ((2 ^ i.toNat : Nat) : Int))) d a w s
def execPsrari (d a : Reg) (w : BitVec 2) (i : BitVec 5) (s : State) : Out :=
  packed1 (fun _ _ x => quiet (roundQ x i.toNat)) d a w s

/-- Pack the w-bit lanes of a and then of b into lanes of half the width. -/
def pack (w : BitVec 2) (f : Nat → Nat → Int → Int × Nat) (x y : Word64) : Word64 × Nat :=
  let n := laneBits w
  let one := fun (z : Word64) => (List.range (64 / n)).map (fun i =>
    f (n / 2) (lane z.toNat n i) (sext (lane z.toNat n i) n))
  assemble (n / 2) (one x ++ one y)

def execPpacks (d a b : Reg) (w : BitVec 2) (s : State) : Out :=
  putF d (pack w (fun h _ x => satI x h) (rd s a) (rd s b)) s
def execPpackns (d a b : Reg) (w : BitVec 2) (s : State) : Out :=
  putF d (pack w (fun h _ x => satN x h) (rd s a) (rd s b)) s
def execPpack (d a b : Reg) (w : BitVec 2) (s : State) : Out :=
  putF d (pack w (fun _ p _ => quiet (p : Nat)) (rd s a) (rd s b)) s

/-- Unpack the half-width lanes from lane `first` (0, or L for the high half) to full width. -/
def unpack (w : BitVec 2) (high signed : Bool) (x : Word64) : Word64 :=
  let n := laneBits w
  let l := 64 / n
  (assemble n ((List.range l).map (fun i =>
    let p := lane x.toNat (n / 2) (if high then l + i else i)
    quiet (if signed then sext p (n / 2) else (p : Nat))))).1

def execPunpkl (d a : Reg) (w : BitVec 2) (s : State) : Out := put d (unpack w false true (rd s a)) s
def execPunpkh (d a : Reg) (w : BitVec 2) (s : State) : Out := put d (unpack w true true (rd s a)) s
def execPunpkln (d a : Reg) (w : BitVec 2) (s : State) : Out := put d (unpack w false false (rd s a)) s
def execPunpkhn (d a : Reg) (w : BitVec 2) (s : State) : Out := put d (unpack w true false (rd s a)) s

/-- PSHUF: each byte chosen by its control byte (R122). -/
def shuffle (x y : Word64) : Word64 :=
  nat64 (packLanes 8 ((List.range 8).map (fun i =>
    let c := lane y.toNat 8 i
    if 128 ≤ c then 0 else lane x.toNat 8 (c % 8))))

/-- PBCAST and PINS. -/
def broadcast (w : BitVec 2) (i : Nat) (x : Word64) : Word64 :=
  let n := laneBits w
  nat64 (packLanes n ((List.range (64 / n)).map (fun _ => lane x.toNat n i)))
def insertLane (w : BitVec 2) (i : Nat) (x y : Word64) : Word64 :=
  let n := laneBits w
  nat64 (packLanes n ((List.range (64 / n)).map (fun j => if j = i then lane y.toNat n 0 else lane x.toNat n j)))

def execPshuf (d a b : Reg) (s : State) : Out := put d (shuffle (rd s a) (rd s b)) s
def execPbcast (d a : Reg) (w : BitVec 2) (i : BitVec 5) (s : State) : Out :=
  put d (broadcast w i.toNat (rd s a)) s
def execPins (d a : Reg) (w : BitVec 2) (i : BitVec 5) (s : State) : Out :=
  put d (insertLane w i.toNat (rd s d) (rd s a)) s
def execPext (d a : Reg) (w : BitVec 2) (i : BitVec 5) (s : State) : Out :=
  put d (nat64 (lane (rd s a).toNat (laneBits w) i.toNat)) s
def execPsel (d a b : Reg) (s : State) : Out :=
  put d ((rd s a &&& rd s d) ||| (rd s b &&& ~~~(rd s d))) s

/-! ### CPLX (R123-R125) -/

/-- Component re (0) or im (1) of lane `k`. -/
def comp (x : Word64) (k c : Nat) : Int := sext (lane x.toNat 16 (2 * k + c)) 16

/-- Real and imaginary parts of lane `k`. -/
def cx (x : Word64) (k : Nat) : Int × Int := (comp x k 0, comp x k 1)

/-- P(k) and PJ(k) (R123). -/
def cprod (a b : Int × Int) : Int × Int := (a.1 * b.1 - a.2 * b.2, a.1 * b.2 + a.2 * b.1)
def cprodJ (a b : Int × Int) : Int × Int := (a.1 * b.1 + a.2 * b.2, a.2 * b.1 - a.1 * b.2)

/-- Write two complex lanes, each component clamped to 16 bits by `f`. -/
def cput (f : Int → Int × Nat) (d : Reg) (l0 l1 : Int × Int) (s : State) : Out :=
  putF d (assemble 16 [f l0.1, f l0.2, f l1.1, f l1.2]) s

/-- A lane by lane complex member. -/
def clanes (f : Int → Int × Nat) (g : Int × Int → Int × Int → Int × Int) (d a b : Reg) (s : State) : Out :=
  cput f d (g (cx (rd s a) 0) (cx (rd s b) 0)) (g (cx (rd s a) 1) (cx (rd s b) 1)) s

def sat16 (x : Int) : Int × Nat := satI x 16
def half16 (x : Int) : Int × Nat := satI (roundQ x 1) 16
def q15 (x : Int) : Int × Nat := satQ x 15 16

def cplus (x y : Int × Int) : Int × Int := (x.1 + y.1, x.2 + y.2)
def cminus (x y : Int × Int) : Int × Int := (x.1 - y.1, x.2 - y.2)

def execCadd (d a b : Reg) (s : State) : Out := clanes sat16 cplus d a b s
def execCsub (d a b : Reg) (s : State) : Out := clanes sat16 cminus d a b s
def execCaddh (d a b : Reg) (s : State) : Out := clanes half16 cplus d a b s
def execCsubh (d a b : Reg) (s : State) : Out := clanes half16 cminus d a b s
def execCmul (d a b : Reg) (s : State) : Out := clanes q15 cprod d a b s
def execCmulj (d a b : Reg) (s : State) : Out := clanes q15 cprodJ d a b s
def execCj (d a : Reg) (s : State) : Out := clanes sat16 (fun x _ => (x.1, -x.2)) d a 0 s
def execCmj (d a : Reg) (s : State) : Out := clanes sat16 (fun x _ => (-x.2, x.1)) d a 0 s

/-- CNORM's lane: 2 x |x|^2 as Q31. -/
def cnorm (x : Int × Int) : Int × Nat := satI (2 * (x.1 * x.1 + x.2 * x.2)) 32

def execCnorm (d a : Reg) (s : State) : Out :=
  putF d (assemble 32 [cnorm (cx (rd s a) 0), cnorm (cx (rd s a) 1)]) s

/-- CDOT and CDOTJ: a CQ31 accumulator. -/
def cdot (g : Int × Int → Int × Int → Int × Int) (x y z : Word64) : Word64 × Nat :=
  let p := cplus (g (cx x 0) (cx y 0)) (g (cx x 1) (cx y 1))
  assemble 32 [satI (sext (lane z.toNat 32 0) 32 + 2 * p.1) 32, satI (sext (lane z.toNat 32 1) 32 + 2 * p.2) 32]

def execCdot (d a b : Reg) (s : State) : Out := putF d (cdot cprod (rd s a) (rd s b) (rd s d)) s
def execCdotj (d a b : Reg) (s : State) : Out := putF d (cdot cprodJ (rd s a) (rd s b) (rd s d)) s

/-- One output of the butterfly (R125). -/
def bfly (x p : Int) : Int × Nat := satI (roundQ (x * 2 ^ 15 + p) 16) 16

def execCbfly (d a b : Reg) (s : State) : Out :=
  let x := cx (rd s a) 0
  let p := cprod (cx (rd s b) 0) (cx (rd s a) 1)
  putF d (assemble 16 [bfly x.1 p.1, bfly x.2 p.2, bfly x.1 (-p.1), bfly x.2 (-p.2)]) s

def execCscl (d a b : Reg) (s : State) : Out :=
  let k := comp (rd s b) 0 0
  clanes q15 (fun x _ => (x.1 * k, x.2 * k)) d a 0 s

/-- A CQ31 component rounded to Q15. -/
def crnd (x : Word64) (i : Nat) : Int × Nat := satQ (sext (lane x.toNat 32 i) 32) 16 16

def execCrnd (d a b : Reg) (s : State) : Out :=
  putF d (assemble 16 [crnd (rd s a) 0, crnd (rd s a) 1, crnd (rd s b) 0, crnd (rd s b) 1]) s

end Sys2Proof.Machine
end

