-- ==== Sys2Proof/Machine/Float.lean ====
section
/-!
DEFINITION. Floating-point instructions: FP (R126-R131), FMA (R132, R133), FPK (R134-R136) and FCVT
(R137, R138).
-/

namespace Sys2Proof.Machine

open Sys2Proof

/-- The F32 pattern of a register. -/
def fx (s : State) (a : Reg) : Nat := (rd s a).toNat % 2 ^ 32

/-- Write an F32 result with its flags; bits [63:32] are zero (R42). -/
def putX (d : Reg) (r : Nat × Nat) (s : State) : Out := putF d (nat64 r.1, r.2) s

/-! ### FP -/

def execFadd (d a b : Reg) (r : BitVec 3) (s : State) : Out := putX d (fadd (roundMode s r) (fx s a) (fx s b)) s
def execFsub (d a b : Reg) (r : BitVec 3) (s : State) : Out := putX d (fsub (roundMode s r) (fx s a) (fx s b)) s
def execFmul (d a b : Reg) (r : BitVec 3) (s : State) : Out := putX d (fmul (roundMode s r) (fx s a) (fx s b)) s
def execFdiv (d a b : Reg) (r : BitVec 3) (s : State) : Out := putX d (fdiv (roundMode s r) (fx s a) (fx s b)) s
def execFsqrt (d a : Reg) (r : BitVec 3) (s : State) : Out := putX d (fsqrt (roundMode s r) (fx s a)) s
def execFmin (d a b : Reg) (s : State) : Out := putX d (fminmax false (fx s a) (fx s b)) s
def execFmax (d a b : Reg) (s : State) : Out := putX d (fminmax true (fx s a) (fx s b)) s

/-- A sign change: a NaN becomes the canonical one, and no flag is set (R128). -/
def signed (x : Nat) (neg : Bool) : Nat × Nat :=
  (if (f32 x).isNaN then qnan else x % 2 ^ 31 + signBit 23 neg, 0)

/-- The sign bit of an F32 pattern. -/
def fneg32 (x : Nat) : Bool := x / 2 ^ 31 % 2 == 1

def execFabs (d a : Reg) (s : State) : Out := putX d (signed (fx s a) false) s
def execFneg (d a : Reg) (s : State) : Out := putX d (signed (fx s a) (!fneg32 (fx s a))) s
def execFsgnj (d a b : Reg) (s : State) : Out := putX d (signed (fx s a) (fneg32 (fx s b))) s
def execFcmpeq (d a b : Reg) (s : State) : Out := putX d (fcmp 0 (fx s a) (fx s b)) s
def execFcmplt (d a b : Reg) (s : State) : Out := putX d (fcmp 1 (fx s a) (fx s b)) s
def execFcmple (d a b : Reg) (s : State) : Out := putX d (fcmp 2 (fx s a) (fx s b)) s
def execFclass (d a : Reg) (s : State) : Out := putX d (fclass (fx s a), 0) s
def execFrnd (d a : Reg) (r : BitVec 3) (s : State) : Out := putX d (frnd (roundMode s r) (fx s a)) s

/-! ### FMA -/

def execFma (d a b c : Reg) (s : State) : Out := putX d (ffma (frm s) false false (fx s a) (fx s b) (fx s c)) s
def execFms (d a b c : Reg) (s : State) : Out := putX d (ffma (frm s) false true (fx s a) (fx s b) (fx s c)) s
def execFnma (d a b c : Reg) (s : State) : Out := putX d (ffma (frm s) true true (fx s a) (fx s b) (fx s c)) s
def execFnms (d a b c : Reg) (s : State) : Out := putX d (ffma (frm s) true false (fx s a) (fx s b) (fx s c)) s

/-- F32 lanes. -/
def fl (x : Word64) (i : Nat) : Nat := lane x.toNat 32 i

/-- Assemble lane patterns of width `w` with their flags. -/
def assembleF (w : Nat) (rs : List (Nat × Nat)) : Word64 × Nat :=
  (nat64 (packLanes w (rs.map (·.1))), orFlags (rs.map (·.2)))

/-- An F32 function on both lanes of two registers. -/
def flanes2 (f : Nat → Nat → Nat × Nat) (x y : Word64) : Word64 × Nat :=
  assembleF 32 [f (fl x 0) (fl y 0), f (fl x 1) (fl y 1)]

def execPfma (d a b c : Reg) (s : State) : Out :=
  let f := fun i => ffma (frm s) false false (fl (rd s a) i) (fl (rd s b) i) (fl (rd s c) i)
  putF d (assembleF 32 [f 0, f 1]) s
def execPbfdot (d a b c : Reg) (s : State) : Out :=
  putX d (pbfdot (frm s) (rd s a).toNat (rd s b).toNat (fx s c)) s

/-! ### FPK -/

def execPfadd (d a b : Reg) (s : State) : Out := putF d (flanes2 (fadd (frm s)) (rd s a) (rd s b)) s
def execPfsub (d a b : Reg) (s : State) : Out := putF d (flanes2 (fsub (frm s)) (rd s a) (rd s b)) s
def execPfmul (d a b : Reg) (s : State) : Out := putF d (flanes2 (fmul (frm s)) (rd s a) (rd s b)) s
def execPfmin (d a b : Reg) (s : State) : Out := putF d (flanes2 (fminmax false) (rd s a) (rd s b)) s
def execPfmax (d a b : Reg) (s : State) : Out := putF d (flanes2 (fminmax true) (rd s a) (rd s b)) s
def execPbfpack (d a b : Reg) (s : State) : Out :=
  putF d (assembleF 16 [toBf16 (frm s) (fl (rd s a) 0), toBf16 (frm s) (fl (rd s a) 1),
    toBf16 (frm s) (fl (rd s b) 0), toBf16 (frm s) (fl (rd s b) 1)]) s

/-- BF16 lanes `i` and `i + 1` to F32 lanes. -/
def unpackBf (x : Word64) (i : Nat) : Word64 × Nat :=
  assembleF 32 [ofBf16 (lane x.toNat 16 i), ofBf16 (lane x.toNat 16 (i + 1))]

def execPbfunpl (d a : Reg) (s : State) : Out := putF d (unpackBf (rd s a) 0) s
def execPbfunph (d a : Reg) (s : State) : Out := putF d (unpackBf (rd s a) 2) s
def execPtop2 (d a : Reg) (s : State) : Out := putX d (ptop2 (rd s a).toNat) s

/-! ### FCVT: the member's name is its destination and then its source in the row's own order -/

/-- From F32 to an integer or fixed type of `n` bits: `signed` sign-extends the result (R138). -/
def toInt (scale n : Nat) (uns sat : Bool) (d a : Reg) (r : BitVec 3) (s : State) : Out :=
  let x := toFixed (f32 (fx s a)) scale n uns sat (roundMode s r)
  putF d (if uns then nat64 (wrapN x.1 n) else wrap64 (sext (wrapN x.1 n) n), x.2) s

/-- From an integer or fixed value to F32. -/
def fromInt (scale : Nat) (v : Int) (d : Reg) (r : BitVec 3) (s : State) : Out :=
  putX d (ofFixed v scale (roundMode s r)) s

def execFcvtF32I32 (d a : Reg) (r : BitVec 3) (s : State) : Out := fromInt 0 (lo32 (rd s a)).toInt d r s
def execFcvtF32N32 (d a : Reg) (r : BitVec 3) (s : State) : Out := fromInt 0 (lo32 (rd s a)).toNat d r s
def execFcvtF32I64 (d a : Reg) (r : BitVec 3) (s : State) : Out := fromInt 0 (rd s a).toInt d r s
def execFcvtF32N64 (d a : Reg) (r : BitVec 3) (s : State) : Out := fromInt 0 (rd s a).toNat d r s
def execFcvtF32Q15 (d a : Reg) (r : BitVec 3) (s : State) : Out := fromInt 15 (comp (rd s a) 0 0) d r s
def execFcvtF32Q31 (d a : Reg) (r : BitVec 3) (s : State) : Out := fromInt 31 (lo32 (rd s a)).toInt d r s
def execFcvtI32F32 (d a : Reg) (r : BitVec 3) (s : State) : Out := toInt 0 32 false (satMode s) d a r s
def execFcvtN32F32 (d a : Reg) (r : BitVec 3) (s : State) : Out := toInt 0 32 true (satMode s) d a r s
def execFcvtI64F32 (d a : Reg) (r : BitVec 3) (s : State) : Out := toInt 0 64 false (satMode s) d a r s
def execFcvtN64F32 (d a : Reg) (r : BitVec 3) (s : State) : Out := toInt 0 64 true (satMode s) d a r s
def execFcvtQ15F32 (d a : Reg) (r : BitVec 3) (s : State) : Out := toInt 15 16 false true d a r s
def execFcvtQ31F32 (d a : Reg) (r : BitVec 3) (s : State) : Out := toInt 31 32 false true d a r s
def execFcvtBf16F32 (d a : Reg) (r : BitVec 3) (s : State) : Out := putX d (toBf16 (roundMode s r) (fx s a)) s

/-- BF16 to F32 is exact: the rounding field is ignored (R137). -/
def execFcvtF32Bf16 (d a : Reg) (_r : BitVec 3) (s : State) : Out := putX d (ofBf16 (lane (rd s a).toNat 16 0)) s

end Sys2Proof.Machine
end

