-- ==== Sys2Proof/Machine/Dispatch.lean ====
section
/-!
DEFINITION. exec: one arm per constructor of Instr, each one direct call of that instruction's
meaning.
-/

namespace Sys2Proof.Machine

def exec (instr : Instr) (st : State) : Host.Outcome State Fault Refusal :=
  match instr with
  | .illegal x => Sys2Proof.Machine.execIllegal x st
  | .add d a b => Sys2Proof.Machine.execAdd d a b st
  | .sub d a b => Sys2Proof.Machine.execSub d a b st
  | .and d a b => Sys2Proof.Machine.execAnd d a b st
  | .or d a b => Sys2Proof.Machine.execOr d a b st
  | .xor d a b => Sys2Proof.Machine.execXor d a b st
  | .andn d a b => Sys2Proof.Machine.execAndn d a b st
  | .sll d a b => Sys2Proof.Machine.execSll d a b st
  | .srl d a b => Sys2Proof.Machine.execSrl d a b st
  | .sra d a b => Sys2Proof.Machine.execSra d a b st
  | .ror d a b => Sys2Proof.Machine.execRor d a b st
  | .slt d a b => Sys2Proof.Machine.execSlt d a b st
  | .sltn d a b => Sys2Proof.Machine.execSltn d a b st
  | .seq d a b => Sys2Proof.Machine.execSeq d a b st
  | .min d a b => Sys2Proof.Machine.execMin d a b st
  | .max d a b => Sys2Proof.Machine.execMax d a b st
  | .minn d a b => Sys2Proof.Machine.execMinn d a b st
  | .maxn d a b => Sys2Proof.Machine.execMaxn d a b st
  | .mul d a b => Sys2Proof.Machine.execMul d a b st
  | .mulh d a b => Sys2Proof.Machine.execMulh d a b st
  | .mulhn d a b => Sys2Proof.Machine.execMulhn d a b st
  | .div d a b => Sys2Proof.Machine.execDiv d a b st
  | .divn d a b => Sys2Proof.Machine.execDivn d a b st
  | .rem d a b => Sys2Proof.Machine.execRem d a b st
  | .remn d a b => Sys2Proof.Machine.execRemn d a b st
  | .clz d a => Sys2Proof.Machine.execClz d a st
  | .ctz d a => Sys2Proof.Machine.execCtz d a st
  | .popc d a => Sys2Proof.Machine.execPopc d a st
  | .brev d a => Sys2Proof.Machine.execBrev d a st
  | .bswap d a => Sys2Proof.Machine.execBswap d a st
  | .addw d a b => Sys2Proof.Machine.execAddw d a b st
  | .subw d a b => Sys2Proof.Machine.execSubw d a b st
  | .mulw d a b => Sys2Proof.Machine.execMulw d a b st
  | .sllw d a b => Sys2Proof.Machine.execSllw d a b st
  | .srlw d a b => Sys2Proof.Machine.execSrlw d a b st
  | .sraw d a b => Sys2Proof.Machine.execSraw d a b st
  | .divw d a b => Sys2Proof.Machine.execDivw d a b st
  | .remw d a b => Sys2Proof.Machine.execRemw d a b st
  | .csel d a b c => Sys2Proof.Machine.execCsel d a b c st
  | .madd d a b c => Sys2Proof.Machine.execMadd d a b c st
  | .msub d a b c => Sys2Proof.Machine.execMsub d a b c st
  | .funnel d a b c => Sys2Proof.Machine.execFunnel d a b c st
  | .addi d a i => Sys2Proof.Machine.execAddi d a i st
  | .andi d a i => Sys2Proof.Machine.execAndi d a i st
  | .ori d a i => Sys2Proof.Machine.execOri d a i st
  | .xori d a i => Sys2Proof.Machine.execXori d a i st
  | .slti d a i => Sys2Proof.Machine.execSlti d a i st
  | .sltni d a i => Sys2Proof.Machine.execSltni d a i st
  | .lui d i => Sys2Proof.Machine.execLui d i st
  | .slli d a sh => Sys2Proof.Machine.execSlli d a sh st
  | .srli d a sh => Sys2Proof.Machine.execSrli d a sh st
  | .srai d a sh => Sys2Proof.Machine.execSrai d a sh st
  | .rori d a sh => Sys2Proof.Machine.execRori d a sh st
  | .sllwi d a sh => Sys2Proof.Machine.execSllwi d a sh st
  | .srlwi d a sh => Sys2Proof.Machine.execSrlwi d a sh st
  | .srawi d a sh => Sys2Proof.Machine.execSrawi d a sh st
  | .bfx d a p l => Sys2Proof.Machine.execBfx d a p l st
  | .bfxn d a p l => Sys2Proof.Machine.execBfxn d a p l st
  | .bfi d a p l => Sys2Proof.Machine.execBfi d a p l st
  | .mkp d a b => Sys2Proof.Machine.execMkp d a b st
  | .phd d a => Sys2Proof.Machine.execPhd d a st
  | .pof d a => Sys2Proof.Machine.execPof d a st
  | .addp d a b => Sys2Proof.Machine.execAddp d a b st
  | .subp d a b => Sys2Proof.Machine.execSubp d a b st
  | .pchk d a => Sys2Proof.Machine.execPchk d a st
  | .addpi d a i => Sys2Proof.Machine.execAddpi d a i st
  | .beq a b x => Sys2Proof.Machine.execBeq a b x st
  | .bne a b x => Sys2Proof.Machine.execBne a b x st
  | .blt a b x => Sys2Proof.Machine.execBlt a b x st
  | .bge a b x => Sys2Proof.Machine.execBge a b x st
  | .bltn a b x => Sys2Proof.Machine.execBltn a b x st
  | .bgen a b x => Sys2Proof.Machine.execBgen a b x st
  | .loop a x => Sys2Proof.Machine.execLoop a x st
  | .jmp x => Sys2Proof.Machine.execJmp x st
  | .call x => Sys2Proof.Machine.execCall x st
  | .jr a => Sys2Proof.Machine.execJr a st
  | .callr a => Sys2Proof.Machine.execCallr a st
  | .ld d a f x => Sys2Proof.Machine.execLd d a f x st
  | .ldacq d a f x => Sys2Proof.Machine.execLdacq d a f x st
  | .st d a f x => Sys2Proof.Machine.execSt d a f x st
  | .strel d a f x => Sys2Proof.Machine.execStrel d a f x st
  | .ldp d a x => Sys2Proof.Machine.execLdp d a x st
  | .stp d a x => Sys2Proof.Machine.execStp d a x st
  | .ldb d a n x => Sys2Proof.Machine.execLdb d a n x st
  | .stb d a n x => Sys2Proof.Machine.execStb d a n x st
  | .lde d a x => Sys2Proof.Machine.execLde d a x st
  | .ldc d a x => Sys2Proof.Machine.execLdc d a x st
  | .stf d a x => Sys2Proof.Machine.execStf d a x st
  | .sto d a x => Sys2Proof.Machine.execSto d a x st
  | .sete a x => Sys2Proof.Machine.execSete a x st
  | .setf a x => Sys2Proof.Machine.execSetf a x st
  | .feq d a x => Sys2Proof.Machine.execFeq d a x st
  | .amoadd d a b p w => Sys2Proof.Machine.execAmoadd d a b p w st
  | .amoand d a b p w => Sys2Proof.Machine.execAmoand d a b p w st
  | .amoor d a b p w => Sys2Proof.Machine.execAmoor d a b p w st
  | .amoxor d a b p w => Sys2Proof.Machine.execAmoxor d a b p w st
  | .amomin d a b p w => Sys2Proof.Machine.execAmomin d a b p w st
  | .amomax d a b p w => Sys2Proof.Machine.execAmomax d a b p w st
  | .amominn d a b p w => Sys2Proof.Machine.execAmominn d a b p w st
  | .amomaxn d a b p w => Sys2Proof.Machine.execAmomaxn d a b p w st
  | .amoswp d a b p w => Sys2Proof.Machine.execAmoswp d a b p w st
  | .cas d a b p w => Sys2Proof.Machine.execCas d a b p w st
  | .cas2 d a b p => Sys2Proof.Machine.execCas2 d a b p st
  | .fence => Sys2Proof.Machine.execFence st
  | .fenceSys => Sys2Proof.Machine.execFenceSys st
  | .fenceEng => Sys2Proof.Machine.execFenceEng st
  | .cwb a b => Sys2Proof.Machine.execCwb a b st
  | .cinv a b => Sys2Proof.Machine.execCinv a b st
  | .pref a => Sys2Proof.Machine.execPref a st
  | .monw d a b => Sys2Proof.Machine.execMonw d a b st
  | .chb d c => Sys2Proof.Machine.execChb d c st
  | .chld d c f n => Sys2Proof.Machine.execChld d c f n st
  | .chst d c f n => Sys2Proof.Machine.execChst d c f n st
  | .chadvp c n => Sys2Proof.Machine.execChadvp c n st
  | .chadvc c n => Sys2Proof.Machine.execChadvc c n st
  | .chwaitp c n => Sys2Proof.Machine.execChwaitp c n st
  | .chwaitc c n => Sys2Proof.Machine.execChwaitc c n st
  | .chcnt d c => Sys2Proof.Machine.execChcnt d c st
  | .chptrHd d c i => Sys2Proof.Machine.execChptrHd d c i st
  | .chptrTl d c i => Sys2Proof.Machine.execChptrTl d c i st
  | .padd d a b w => Sys2Proof.Machine.execPadd d a b w st
  | .psub d a b w => Sys2Proof.Machine.execPsub d a b w st
  | .padds d a b w => Sys2Proof.Machine.execPadds d a b w st
  | .psubs d a b w => Sys2Proof.Machine.execPsubs d a b w st
  | .paddns d a b w => Sys2Proof.Machine.execPaddns d a b w st
  | .psubns d a b w => Sys2Proof.Machine.execPsubns d a b w st
  | .pavg d a b w => Sys2Proof.Machine.execPavg d a b w st
  | .pmin d a b w => Sys2Proof.Machine.execPmin d a b w st
  | .pmax d a b w => Sys2Proof.Machine.execPmax d a b w st
  | .pminn d a b w => Sys2Proof.Machine.execPminn d a b w st
  | .pmaxn d a b w => Sys2Proof.Machine.execPmaxn d a b w st
  | .pabs d a w => Sys2Proof.Machine.execPabs d a w st
  | .pneg d a w => Sys2Proof.Machine.execPneg d a w st
  | .pcmpeq d a b w => Sys2Proof.Machine.execPcmpeq d a b w st
  | .pcmplt d a b w => Sys2Proof.Machine.execPcmplt d a b w st
  | .pcmpltn d a b w => Sys2Proof.Machine.execPcmpltn d a b w st
  | .psllv d a b w => Sys2Proof.Machine.execPsllv d a b w st
  | .psrlv d a b w => Sys2Proof.Machine.execPsrlv d a b w st
  | .psrav d a b w => Sys2Proof.Machine.execPsrav d a b w st
  | .psum d a w => Sys2Proof.Machine.execPsum d a w st
  | .psumn d a w => Sys2Proof.Machine.execPsumn d a w st
  | .pmul d a b w => Sys2Proof.Machine.execPmul d a b w st
  | .pmulh d a b w => Sys2Proof.Machine.execPmulh d a b w st
  | .pmulhn d a b w => Sys2Proof.Machine.execPmulhn d a b w st
  | .pmulq d a b w => Sys2Proof.Machine.execPmulq d a b w st
  | .pdot d a b w => Sys2Proof.Machine.execPdot d a b w st
  | .pdotn d a b w => Sys2Proof.Machine.execPdotn d a b w st
  | .pslli d a w i => Sys2Proof.Machine.execPslli d a w i st
  | .psrli d a w i => Sys2Proof.Machine.execPsrli d a w i st
  | .psrai d a w i => Sys2Proof.Machine.execPsrai d a w i st
  | .psrari d a w i => Sys2Proof.Machine.execPsrari d a w i st
  | .ppacks d a b w => Sys2Proof.Machine.execPpacks d a b w st
  | .ppackns d a b w => Sys2Proof.Machine.execPpackns d a b w st
  | .ppack d a b w => Sys2Proof.Machine.execPpack d a b w st
  | .punpkl d a w => Sys2Proof.Machine.execPunpkl d a w st
  | .punpkh d a w => Sys2Proof.Machine.execPunpkh d a w st
  | .punpkln d a w => Sys2Proof.Machine.execPunpkln d a w st
  | .punpkhn d a w => Sys2Proof.Machine.execPunpkhn d a w st
  | .pshuf d a b => Sys2Proof.Machine.execPshuf d a b st
  | .pbcast d a w i => Sys2Proof.Machine.execPbcast d a w i st
  | .pins d a w i => Sys2Proof.Machine.execPins d a w i st
  | .pext d a w i => Sys2Proof.Machine.execPext d a w i st
  | .psel d a b => Sys2Proof.Machine.execPsel d a b st
  | .cadd d a b => Sys2Proof.Machine.execCadd d a b st
  | .csub d a b => Sys2Proof.Machine.execCsub d a b st
  | .caddh d a b => Sys2Proof.Machine.execCaddh d a b st
  | .csubh d a b => Sys2Proof.Machine.execCsubh d a b st
  | .cmul d a b => Sys2Proof.Machine.execCmul d a b st
  | .cmulj d a b => Sys2Proof.Machine.execCmulj d a b st
  | .cj d a => Sys2Proof.Machine.execCj d a st
  | .cmj d a => Sys2Proof.Machine.execCmj d a st
  | .cnorm d a => Sys2Proof.Machine.execCnorm d a st
  | .cdot d a b => Sys2Proof.Machine.execCdot d a b st
  | .cdotj d a b => Sys2Proof.Machine.execCdotj d a b st
  | .cbfly d a b => Sys2Proof.Machine.execCbfly d a b st
  | .cscl d a b => Sys2Proof.Machine.execCscl d a b st
  | .crnd d a b => Sys2Proof.Machine.execCrnd d a b st
  | .fadd d a b r => Sys2Proof.Machine.execFadd d a b r st
  | .fsub d a b r => Sys2Proof.Machine.execFsub d a b r st
  | .fmul d a b r => Sys2Proof.Machine.execFmul d a b r st
  | .fdiv d a b r => Sys2Proof.Machine.execFdiv d a b r st
  | .fsqrt d a r => Sys2Proof.Machine.execFsqrt d a r st
  | .fmin d a b => Sys2Proof.Machine.execFmin d a b st
  | .fmax d a b => Sys2Proof.Machine.execFmax d a b st
  | .fabs d a => Sys2Proof.Machine.execFabs d a st
  | .fneg d a => Sys2Proof.Machine.execFneg d a st
  | .fsgnj d a b => Sys2Proof.Machine.execFsgnj d a b st
  | .fcmpeq d a b => Sys2Proof.Machine.execFcmpeq d a b st
  | .fcmplt d a b => Sys2Proof.Machine.execFcmplt d a b st
  | .fcmple d a b => Sys2Proof.Machine.execFcmple d a b st
  | .fclass d a => Sys2Proof.Machine.execFclass d a st
  | .frnd d a r => Sys2Proof.Machine.execFrnd d a r st
  | .fma d a b c => Sys2Proof.Machine.execFma d a b c st
  | .fms d a b c => Sys2Proof.Machine.execFms d a b c st
  | .fnma d a b c => Sys2Proof.Machine.execFnma d a b c st
  | .fnms d a b c => Sys2Proof.Machine.execFnms d a b c st
  | .pfma d a b c => Sys2Proof.Machine.execPfma d a b c st
  | .pbfdot d a b c => Sys2Proof.Machine.execPbfdot d a b c st
  | .pfadd d a b => Sys2Proof.Machine.execPfadd d a b st
  | .pfsub d a b => Sys2Proof.Machine.execPfsub d a b st
  | .pfmul d a b => Sys2Proof.Machine.execPfmul d a b st
  | .pfmin d a b => Sys2Proof.Machine.execPfmin d a b st
  | .pfmax d a b => Sys2Proof.Machine.execPfmax d a b st
  | .pbfpack d a b => Sys2Proof.Machine.execPbfpack d a b st
  | .pbfunpl d a => Sys2Proof.Machine.execPbfunpl d a st
  | .pbfunph d a => Sys2Proof.Machine.execPbfunph d a st
  | .ptop2 d a => Sys2Proof.Machine.execPtop2 d a st
  | .fcvtF32I32 d a r => Sys2Proof.Machine.execFcvtF32I32 d a r st
  | .fcvtF32N32 d a r => Sys2Proof.Machine.execFcvtF32N32 d a r st
  | .fcvtF32I64 d a r => Sys2Proof.Machine.execFcvtF32I64 d a r st
  | .fcvtF32N64 d a r => Sys2Proof.Machine.execFcvtF32N64 d a r st
  | .fcvtF32Q15 d a r => Sys2Proof.Machine.execFcvtF32Q15 d a r st
  | .fcvtF32Q31 d a r => Sys2Proof.Machine.execFcvtF32Q31 d a r st
  | .fcvtI32F32 d a r => Sys2Proof.Machine.execFcvtI32F32 d a r st
  | .fcvtN32F32 d a r => Sys2Proof.Machine.execFcvtN32F32 d a r st
  | .fcvtI64F32 d a r => Sys2Proof.Machine.execFcvtI64F32 d a r st
  | .fcvtN64F32 d a r => Sys2Proof.Machine.execFcvtN64F32 d a r st
  | .fcvtQ15F32 d a r => Sys2Proof.Machine.execFcvtQ15F32 d a r st
  | .fcvtQ31F32 d a r => Sys2Proof.Machine.execFcvtQ31F32 d a r st
  | .fcvtBf16F32 d a r => Sys2Proof.Machine.execFcvtBf16F32 d a r st
  | .fcvtF32Bf16 d a r => Sys2Proof.Machine.execFcvtF32Bf16 d a r st
  | .mmaI8 a b m n l sh z => Sys2Proof.Machine.execMmaI8 a b m n l sh z st
  | .mmaI16 a b m n l sh z => Sys2Proof.Machine.execMmaI16 a b m n l sh z st
  | .mmaCq15 a b m n l sh z => Sys2Proof.Machine.execMmaCq15 a b m n l sh z st
  | .mmaDp8 a b m n l sh z => Sys2Proof.Machine.execMmaDp8 a b m n l sh z st
  | .mzero a b => Sys2Proof.Machine.execMzero a b st
  | .mdrain a b => Sys2Proof.Machine.execMdrain a b st
  | .msca a => Sys2Proof.Machine.execMsca a st
  | .mstride a b => Sys2Proof.Machine.execMstride a b st
  | .mbmap a => Sys2Proof.Machine.execMbmap a st
  | .mstat d => Sys2Proof.Machine.execMstat d st
  | .mwaitq => Sys2Proof.Machine.execMwaitq st
  | .cpy d a b => Sys2Proof.Machine.execCpy d a b st
  | .cpy2d d a b => Sys2Proof.Machine.execCpy2d d a b st
  | .cpyg d a b => Sys2Proof.Machine.execCpyg d a b st
  | .cpys d a b => Sys2Proof.Machine.execCpys d a b st
  | .cpyf d a b => Sys2Proof.Machine.execCpyf d a b st
  | .cpych d a b => Sys2Proof.Machine.execCpych d a b st
  | .kinit a b => Sys2Proof.Machine.execKinit a b st
  | .ksel a => Sys2Proof.Machine.execKsel a st
  | .karr a b => Sys2Proof.Machine.execKarr a b st
  | .kwait d a b => Sys2Proof.Machine.execKwait d a b st
  | .ktest d a => Sys2Proof.Machine.execKtest d a st
  | .barw a => Sys2Proof.Machine.execBarw a st
  | .bara a => Sys2Proof.Machine.execBara a st
  | .barwt d a b => Sys2Proof.Machine.execBarwt d a b st
  | .wake a b => Sys2Proof.Machine.execWake a b st
  | .wfw d => Sys2Proof.Machine.execWfw d st
  | .wclr a => Sys2Proof.Machine.execWclr a st
  | .wrd d => Sys2Proof.Machine.execWrd d st
  | .spawn d a b => Sys2Proof.Machine.execSpawn d a b st
  | .spawnr d a b => Sys2Proof.Machine.execSpawnr d a b st
  | .migr a => Sys2Proof.Machine.execMigr a st
  | .join a => Sys2Proof.Machine.execJoin a st
  | .yield d => Sys2Proof.Machine.execYield d st
  | .exit => Sys2Proof.Machine.execExit st
  | .launch d a b => Sys2Proof.Machine.execLaunch d a b st
  | .rankq d a => Sys2Proof.Machine.execRankq d a st
  | .trap i => Sys2Proof.Machine.execTrap i st
  | .brk i => Sys2Proof.Machine.execBrk i st
  | .svc i => Sys2Proof.Machine.execSvc i st
  | .tfence => Sys2Proof.Machine.execTfence st
  | .srd d i => Sys2Proof.Machine.execSrd d i st
  | .swr a i => Sys2Proof.Machine.execSwr a i st
  | .srx d a i => Sys2Proof.Machine.execSrx d a i st
  | .waitc i => Sys2Proof.Machine.execWaitc i st
  | .tret => Sys2Proof.Machine.execTret st
  | .immx p => Sys2Proof.Machine.execImmx p st
  | .align i => Sys2Proof.Machine.execAlign i st
  | .brp p => Sys2Proof.Machine.execBrp p st
  | .prio n => Sys2Proof.Machine.execPrio n st
  | .stream p => Sys2Proof.Machine.execStream p st
  | .noph x => Sys2Proof.Machine.execNoph x st
  | .storeBufferDrain core index => Sys2Proof.Machine.execStoreBufferDrain core index st
  | .bankAccess bank present err => Sys2Proof.Machine.execBankAccess bank present err st
  | .waitListRetry bank => Sys2Proof.Machine.execWaitListRetry bank st
  | .overflowTableMove bank => Sys2Proof.Machine.execOverflowTableMove bank st
  | .refusedRepresentation tile => Sys2Proof.Machine.execRefusedRepresentation tile st
  | .selfTestEnd index lasting spare => Sys2Proof.Machine.execSelfTestEnd index lasting spare st
  | .cacheFill cluster index err source => Sys2Proof.Machine.execCacheFill cluster index err source st
  | .sweepPass cluster => Sys2Proof.Machine.execSweepPass cluster st
  | .sweepPassEnd cluster => Sys2Proof.Machine.execSweepPassEnd cluster st
  | .epochWriteback cluster index => Sys2Proof.Machine.execEpochWriteback cluster index st
  | .cacheConversion cluster frames => Sys2Proof.Machine.execCacheConversion cluster frames st
  | .cacheGrowth cluster frames => Sys2Proof.Machine.execCacheGrowth cluster frames st
  | .conversionComplete cluster => Sys2Proof.Machine.execConversionComplete cluster st
  | .writeback cluster index => Sys2Proof.Machine.execWriteback cluster index st
  | .homeRelease present => Sys2Proof.Machine.execHomeRelease present st
  | .homeAcquire present => Sys2Proof.Machine.execHomeAcquire present st
  | .homeAtomic present => Sys2Proof.Machine.execHomeAtomic present st
  | .drain index => Sys2Proof.Machine.execDrain index st
  | .drainDone index => Sys2Proof.Machine.execDrainDone index st
  | .drainBusy agent => Sys2Proof.Machine.execDrainBusy agent st
  | .agentDead agent => Sys2Proof.Machine.execAgentDead agent st
  | .agentReadmit agent => Sys2Proof.Machine.execAgentReadmit agent st
  | .monwPoll line => Sys2Proof.Machine.execMonwPoll line st
  | .monwWake line => Sys2Proof.Machine.execMonwWake line st
  | .monwTimeout ctx => Sys2Proof.Machine.execMonwTimeout ctx st
  | .wakeDelivery index => Sys2Proof.Machine.execWakeDelivery index st
  | .crossClusterHandoffDrain ctx => Sys2Proof.Machine.execCrossClusterHandoffDrain ctx st
  | .barrierArrival index => Sys2Proof.Machine.execBarrierArrival index st
  | .barwtTimeout ctx => Sys2Proof.Machine.execBarwtTimeout ctx st
  | .waitcExpiry ctx => Sys2Proof.Machine.execWaitcExpiry ctx st
  | .alignTimeout ctx => Sys2Proof.Machine.execAlignTimeout ctx st
  | .svcServiceDone ctx => Sys2Proof.Machine.execSvcServiceDone ctx st
  | .matrixTurn tile => Sys2Proof.Machine.execMatrixTurn tile st
  | .operandFetch core => Sys2Proof.Machine.execOperandFetch core st
  | .copyChunk core => Sys2Proof.Machine.execCopyChunk core st
  | .calendarSlot pch => Sys2Proof.Machine.execCalendarSlot pch st
  | .cpychAppend core => Sys2Proof.Machine.execCpychAppend core st
  | .engineCompletion core copy => Sys2Proof.Machine.execEngineCompletion core copy st
  | .knotCountUpdate index => Sys2Proof.Machine.execKnotCountUpdate index st
  | .translationMiss ctx => Sys2Proof.Machine.execTranslationMiss ctx st
  | .translationLowered cluster => Sys2Proof.Machine.execTranslationLowered cluster st
  | .moduleLoad id asid root codeAt bases file => Sys2Proof.Machine.execModuleLoad id asid root codeAt bases file st
  | .moduleLowering cluster id => Sys2Proof.Machine.execModuleLowering cluster id st
  | .translationInvalidate clusters id lo hi => Sys2Proof.Machine.execTranslationInvalidate clusters id lo hi st
  | .moduleUnload id => Sys2Proof.Machine.execModuleUnload id st
  | .fetchRequest tile => Sys2Proof.Machine.execFetchRequest tile st
  | .doorbell queue n => Sys2Proof.Machine.execDoorbell queue n st
  | .qctlTeardown queue => Sys2Proof.Machine.execQctlTeardown queue st
  | .qctlReset queue => Sys2Proof.Machine.execQctlReset queue st
  | .queueTeardownComplete queue => Sys2Proof.Machine.execQueueTeardownComplete queue st
  | .dependencySatisfied queue index entry => Sys2Proof.Machine.execDependencySatisfied queue index entry st
  | .dispatch place => Sys2Proof.Machine.execDispatch place st
  | .residencyStage id => Sys2Proof.Machine.execResidencyStage id st
  | .stageRelease id => Sys2Proof.Machine.execStageRelease id st
  | .stepCut id => Sys2Proof.Machine.execStepCut id st
  | .taskPickup ctx => Sys2Proof.Machine.execTaskPickup ctx st
  | .steal ctx => Sys2Proof.Machine.execSteal ctx st
  | .travellerArrival index => Sys2Proof.Machine.execTravellerArrival index st
  | .overflowListMove core => Sys2Proof.Machine.execOverflowListMove core st
  | .rankRelocate id rank ctx => Sys2Proof.Machine.execRankRelocate id rank ctx st
  | .deadlock id => Sys2Proof.Machine.execDeadlock id st
  | .strandThrottle strand low cycles => Sys2Proof.Machine.execStrandThrottle strand low cycles st
  | .strandUnthrottle strand peak cycles => Sys2Proof.Machine.execStrandUnthrottle strand peak cycles st
  | .strimbWindow strand devs => Sys2Proof.Machine.execStrimbWindow strand devs st
  | .strandPowerUp => Sys2Proof.Machine.execStrandPowerUp st
  | .preemptionRequest ctx => Sys2Proof.Machine.execPreemptionRequest ctx st
  | .yieldDeadline ctx => Sys2Proof.Machine.execYieldDeadline ctx st
  | .engineAcknowledge ctx engine => Sys2Proof.Machine.execEngineAcknowledge ctx engine st
  | .saveComplete ctx => Sys2Proof.Machine.execSaveComplete ctx st
  | .resuming ctx => Sys2Proof.Machine.execResuming ctx st
  | .faultHold => Sys2Proof.Machine.execFaultHold st
  | .hostCmdResume ctx => Sys2Proof.Machine.execHostCmdResume ctx st
  | .hostCmdEnd ctx => Sys2Proof.Machine.execHostCmdEnd ctx st
  | .faultHoldExpiry ctx => Sys2Proof.Machine.execFaultHoldExpiry ctx st
  | .rollback id => Sys2Proof.Machine.execRollback id st
  | .l1pageRefill ctx => Sys2Proof.Machine.execL1pageRefill ctx st
  | .frameEviction cluster frame => Sys2Proof.Machine.execFrameEviction cluster frame st
  | .tlbWalk cluster asid va ats addr => Sys2Proof.Machine.execTlbWalk cluster asid va ats addr st
  | .hostSnoop line write data => Sys2Proof.Machine.execHostSnoop line write data st
  | .recall cluster line => Sys2Proof.Machine.execRecall cluster line st
  | .hostLineGrant line exclusive => Sys2Proof.Machine.execHostLineGrant line exclusive st
  | .cxlMemRead addr size => Sys2Proof.Machine.execCxlMemRead addr size st
  | .cxlMemWrite addr mask data => Sys2Proof.Machine.execCxlMemWrite addr mask data st
  | .biasFlip v => Sys2Proof.Machine.execBiasFlip v st
  | .biasFlipDone => Sys2Proof.Machine.execBiasFlipDone st
  | .shootdown v => Sys2Proof.Machine.execShootdown v st
  | .shootdownDone => Sys2Proof.Machine.execShootdownDone st
  | .pcieCompletion tag status data => Sys2Proof.Machine.execPcieCompletion tag status data st
  | .priResponse tag ok => Sys2Proof.Machine.execPriResponse tag ok st
  | .frsizeWrite v => Sys2Proof.Machine.execFrsizeWrite v st
  | .frheadWrite v => Sys2Proof.Machine.execFrheadWrite v st
  | .frrplyDone tag => Sys2Proof.Machine.execFrrplyDone tag st
  | .frrplyFailed tag => Sys2Proof.Machine.execFrrplyFailed tag st
  | .elclr => Sys2Proof.Machine.execElclr st
  | .pcapWrite v => Sys2Proof.Machine.execPcapWrite v st
  | .dieClockWrite v => Sys2Proof.Machine.execDieClockWrite v st
  | .registerWrite offset v => Sys2Proof.Machine.execRegisterWrite offset v st
  | .governorTick power => Sys2Proof.Machine.execGovernorTick power st
  | .frequencyStep die code => Sys2Proof.Machine.execFrequencyStep die code st
  | .relockEnd die => Sys2Proof.Machine.execRelockEnd die st
  | .supplyRampDone die => Sys2Proof.Machine.execSupplyRampDone die st
  | .rtmSet v => Sys2Proof.Machine.execRtmSet v st
  | .powerGood => Sys2Proof.Machine.execPowerGood st
  | .bootStageComplete => Sys2Proof.Machine.execBootStageComplete st
  | .brownoutAssert => Sys2Proof.Machine.execBrownoutAssert st
  | .checkpointSealed => Sys2Proof.Machine.execCheckpointSealed st
  | .brownoutDeassert => Sys2Proof.Machine.execBrownoutDeassert st
  | .brownoutRestart => Sys2Proof.Machine.execBrownoutRestart st
  | .frameReceive lport bytes badFcs => Sys2Proof.Machine.execFrameReceive lport bytes badFcs st
  | .frameTransmit id chan => Sys2Proof.Machine.execFrameTransmit id chan st
  | .getVersion req => Sys2Proof.Machine.execGetVersion req st
  | .getCapabilities req => Sys2Proof.Machine.execGetCapabilities req st
  | .negotiateAlgorithms req => Sys2Proof.Machine.execNegotiateAlgorithms req st
  | .getDigests req => Sys2Proof.Machine.execGetDigests req st
  | .getCertificate req => Sys2Proof.Machine.execGetCertificate req st
  | .challenge req => Sys2Proof.Machine.execChallenge req st
  | .getMeasurements req => Sys2Proof.Machine.execGetMeasurements req st
  | .handleTableRewrite ctx h w0 w1 w2 => Sys2Proof.Machine.execHandleTableRewrite ctx h w0 w1 w2 st
  | .rtmSlew ppm => Sys2Proof.Machine.execRtmSlew ppm st
  | .supplyFailure => Sys2Proof.Machine.execSupplyFailure st
  | .ballastIssue core dev => Sys2Proof.Machine.execBallastIssue core dev st

end Sys2Proof.Machine
end

