-- ==== Sys2Proof/Machine/Sched.lean ====
section
/-!
DEFINITION. The parts of a step: time passing, the run of a word's instruction, and the turns of contexts and
units.  Step.lean only calls these.
-/

namespace Sys2Proof.Machine

open Sys2Proof

/-! ### Time -/

/-- Time passes: how much is free (log entry 3: DESIGN CHOICE, safe). -/
def passTime (s : State) : State :=
  { s with plat := { s.plat with moment := s.plat.moment + Config.elapsed s.steps }, steps := s.steps + 1 }

/-! ### The run of a word -/

/-- The meaning of a member, its fields read from the word. -/
def runMember (m : Member) (w : Word32) (st : State) : Out :=
  match m with
  | .illegal => Sys2Proof.Machine.execIllegal (w.extractLsb' 0 26) st
  | .add => Sys2Proof.Machine.execAdd (dOf w) (aOf w) (bOf w) st
  | .sub => Sys2Proof.Machine.execSub (dOf w) (aOf w) (bOf w) st
  | .and => Sys2Proof.Machine.execAnd (dOf w) (aOf w) (bOf w) st
  | .or => Sys2Proof.Machine.execOr (dOf w) (aOf w) (bOf w) st
  | .xor => Sys2Proof.Machine.execXor (dOf w) (aOf w) (bOf w) st
  | .andn => Sys2Proof.Machine.execAndn (dOf w) (aOf w) (bOf w) st
  | .sll => Sys2Proof.Machine.execSll (dOf w) (aOf w) (bOf w) st
  | .srl => Sys2Proof.Machine.execSrl (dOf w) (aOf w) (bOf w) st
  | .sra => Sys2Proof.Machine.execSra (dOf w) (aOf w) (bOf w) st
  | .ror => Sys2Proof.Machine.execRor (dOf w) (aOf w) (bOf w) st
  | .slt => Sys2Proof.Machine.execSlt (dOf w) (aOf w) (bOf w) st
  | .sltn => Sys2Proof.Machine.execSltn (dOf w) (aOf w) (bOf w) st
  | .seq => Sys2Proof.Machine.execSeq (dOf w) (aOf w) (bOf w) st
  | .min => Sys2Proof.Machine.execMin (dOf w) (aOf w) (bOf w) st
  | .max => Sys2Proof.Machine.execMax (dOf w) (aOf w) (bOf w) st
  | .minn => Sys2Proof.Machine.execMinn (dOf w) (aOf w) (bOf w) st
  | .maxn => Sys2Proof.Machine.execMaxn (dOf w) (aOf w) (bOf w) st
  | .mul => Sys2Proof.Machine.execMul (dOf w) (aOf w) (bOf w) st
  | .mulh => Sys2Proof.Machine.execMulh (dOf w) (aOf w) (bOf w) st
  | .mulhn => Sys2Proof.Machine.execMulhn (dOf w) (aOf w) (bOf w) st
  | .div => Sys2Proof.Machine.execDiv (dOf w) (aOf w) (bOf w) st
  | .divn => Sys2Proof.Machine.execDivn (dOf w) (aOf w) (bOf w) st
  | .rem => Sys2Proof.Machine.execRem (dOf w) (aOf w) (bOf w) st
  | .remn => Sys2Proof.Machine.execRemn (dOf w) (aOf w) (bOf w) st
  | .clz => Sys2Proof.Machine.execClz (dOf w) (aOf w) st
  | .ctz => Sys2Proof.Machine.execCtz (dOf w) (aOf w) st
  | .popc => Sys2Proof.Machine.execPopc (dOf w) (aOf w) st
  | .brev => Sys2Proof.Machine.execBrev (dOf w) (aOf w) st
  | .bswap => Sys2Proof.Machine.execBswap (dOf w) (aOf w) st
  | .addw => Sys2Proof.Machine.execAddw (dOf w) (aOf w) (bOf w) st
  | .subw => Sys2Proof.Machine.execSubw (dOf w) (aOf w) (bOf w) st
  | .mulw => Sys2Proof.Machine.execMulw (dOf w) (aOf w) (bOf w) st
  | .sllw => Sys2Proof.Machine.execSllw (dOf w) (aOf w) (bOf w) st
  | .srlw => Sys2Proof.Machine.execSrlw (dOf w) (aOf w) (bOf w) st
  | .sraw => Sys2Proof.Machine.execSraw (dOf w) (aOf w) (bOf w) st
  | .divw => Sys2Proof.Machine.execDivw (dOf w) (aOf w) (bOf w) st
  | .remw => Sys2Proof.Machine.execRemw (dOf w) (aOf w) (bOf w) st
  | .csel => Sys2Proof.Machine.execCsel (dOf w) (aOf w) (bOf w) (cOf w) st
  | .madd => Sys2Proof.Machine.execMadd (dOf w) (aOf w) (bOf w) (cOf w) st
  | .msub => Sys2Proof.Machine.execMsub (dOf w) (aOf w) (bOf w) (cOf w) st
  | .funnel => Sys2Proof.Machine.execFunnel (dOf w) (aOf w) (bOf w) (cOf w) st
  | .addi => Sys2Proof.Machine.execAddi (dOf w) (aOf w) (immOf w) st
  | .andi => Sys2Proof.Machine.execAndi (dOf w) (aOf w) (immOf w) st
  | .ori => Sys2Proof.Machine.execOri (dOf w) (aOf w) (immOf w) st
  | .xori => Sys2Proof.Machine.execXori (dOf w) (aOf w) (immOf w) st
  | .slti => Sys2Proof.Machine.execSlti (dOf w) (aOf w) (immOf w) st
  | .sltni => Sys2Proof.Machine.execSltni (dOf w) (aOf w) (immOf w) st
  | .lui => Sys2Proof.Machine.execLui (dOf w) (immOf w) st
  | .slli => Sys2Proof.Machine.execSlli (dOf w) (aOf w) (w.extractLsb' 0 6) st
  | .srli => Sys2Proof.Machine.execSrli (dOf w) (aOf w) (w.extractLsb' 0 6) st
  | .srai => Sys2Proof.Machine.execSrai (dOf w) (aOf w) (w.extractLsb' 0 6) st
  | .rori => Sys2Proof.Machine.execRori (dOf w) (aOf w) (w.extractLsb' 0 6) st
  | .sllwi => Sys2Proof.Machine.execSllwi (dOf w) (aOf w) (w.extractLsb' 0 5) st
  | .srlwi => Sys2Proof.Machine.execSrlwi (dOf w) (aOf w) (w.extractLsb' 0 5) st
  | .srawi => Sys2Proof.Machine.execSrawi (dOf w) (aOf w) (w.extractLsb' 0 5) st
  | .bfx => Sys2Proof.Machine.execBfx (dOf w) (aOf w) (w.extractLsb' 6 6) (w.extractLsb' 0 6) st
  | .bfxn => Sys2Proof.Machine.execBfxn (dOf w) (aOf w) (w.extractLsb' 6 6) (w.extractLsb' 0 6) st
  | .bfi => Sys2Proof.Machine.execBfi (dOf w) (aOf w) (w.extractLsb' 6 6) (w.extractLsb' 0 6) st
  | .mkp => Sys2Proof.Machine.execMkp (dOf w) (aOf w) (bOf w) st
  | .phd => Sys2Proof.Machine.execPhd (dOf w) (aOf w) st
  | .pof => Sys2Proof.Machine.execPof (dOf w) (aOf w) st
  | .addp => Sys2Proof.Machine.execAddp (dOf w) (aOf w) (bOf w) st
  | .subp => Sys2Proof.Machine.execSubp (dOf w) (aOf w) (bOf w) st
  | .pchk => Sys2Proof.Machine.execPchk (dOf w) (aOf w) st
  | .addpi => Sys2Proof.Machine.execAddpi (dOf w) (aOf w) (immOf w) st
  | .beq => Sys2Proof.Machine.execBeq (dOf w) (aOf w) (immOf w) st
  | .bne => Sys2Proof.Machine.execBne (dOf w) (aOf w) (immOf w) st
  | .blt => Sys2Proof.Machine.execBlt (dOf w) (aOf w) (immOf w) st
  | .bge => Sys2Proof.Machine.execBge (dOf w) (aOf w) (immOf w) st
  | .bltn => Sys2Proof.Machine.execBltn (dOf w) (aOf w) (immOf w) st
  | .bgen => Sys2Proof.Machine.execBgen (dOf w) (aOf w) (immOf w) st
  | .loop => Sys2Proof.Machine.execLoop (dOf w) (immOf w) st
  | .jmp => Sys2Proof.Machine.execJmp (w.extractLsb' 0 26) st
  | .call => Sys2Proof.Machine.execCall (w.extractLsb' 0 26) st
  | .jr => Sys2Proof.Machine.execJr (aOf w) st
  | .callr => Sys2Proof.Machine.execCallr (aOf w) st
  | .ld => Sys2Proof.Machine.execLd (dOf w) (aOf w) (fmtOf w) (dispOf w) st
  | .ldacq => Sys2Proof.Machine.execLdacq (dOf w) (aOf w) (fmtOf w) (dispOf w) st
  | .st => Sys2Proof.Machine.execSt (dOf w) (aOf w) (fmtOf w) (dispOf w) st
  | .strel => Sys2Proof.Machine.execStrel (dOf w) (aOf w) (fmtOf w) (dispOf w) st
  | .ldp => Sys2Proof.Machine.execLdp (w.extractLsb' 22 4) (aOf w) (dispOf w) st
  | .stp => Sys2Proof.Machine.execStp (w.extractLsb' 22 4) (aOf w) (dispOf w) st
  | .ldb => Sys2Proof.Machine.execLdb (dOf w) (aOf w) (w.extractLsb' 12 3) (dispOf w) st
  | .stb => Sys2Proof.Machine.execStb (dOf w) (aOf w) (w.extractLsb' 12 3) (dispOf w) st
  | .lde => Sys2Proof.Machine.execLde (dOf w) (aOf w) (dispOf w) st
  | .ldc => Sys2Proof.Machine.execLdc (dOf w) (aOf w) (dispOf w) st
  | .stf => Sys2Proof.Machine.execStf (dOf w) (aOf w) (dispOf w) st
  | .sto => Sys2Proof.Machine.execSto (dOf w) (aOf w) (dispOf w) st
  | .sete => Sys2Proof.Machine.execSete (aOf w) (dispOf w) st
  | .setf => Sys2Proof.Machine.execSetf (aOf w) (dispOf w) st
  | .feq => Sys2Proof.Machine.execFeq (dOf w) (aOf w) (dispOf w) st
  | .amoadd => Sys2Proof.Machine.execAmoadd (dOf w) (aOf w) (bOf w) (w.extractLsb' 5 2) (w.extractLsb' 4 1) st
  | .amoand => Sys2Proof.Machine.execAmoand (dOf w) (aOf w) (bOf w) (w.extractLsb' 5 2) (w.extractLsb' 4 1) st
  | .amoor => Sys2Proof.Machine.execAmoor (dOf w) (aOf w) (bOf w) (w.extractLsb' 5 2) (w.extractLsb' 4 1) st
  | .amoxor => Sys2Proof.Machine.execAmoxor (dOf w) (aOf w) (bOf w) (w.extractLsb' 5 2) (w.extractLsb' 4 1) st
  | .amomin => Sys2Proof.Machine.execAmomin (dOf w) (aOf w) (bOf w) (w.extractLsb' 5 2) (w.extractLsb' 4 1) st
  | .amomax => Sys2Proof.Machine.execAmomax (dOf w) (aOf w) (bOf w) (w.extractLsb' 5 2) (w.extractLsb' 4 1) st
  | .amominn => Sys2Proof.Machine.execAmominn (dOf w) (aOf w) (bOf w) (w.extractLsb' 5 2) (w.extractLsb' 4 1) st
  | .amomaxn => Sys2Proof.Machine.execAmomaxn (dOf w) (aOf w) (bOf w) (w.extractLsb' 5 2) (w.extractLsb' 4 1) st
  | .amoswp => Sys2Proof.Machine.execAmoswp (dOf w) (aOf w) (bOf w) (w.extractLsb' 5 2) (w.extractLsb' 4 1) st
  | .cas => Sys2Proof.Machine.execCas (dOf w) (aOf w) (bOf w) (w.extractLsb' 5 2) (w.extractLsb' 4 1) st
  | .cas2 => Sys2Proof.Machine.execCas2 (w.extractLsb' 22 4) (aOf w) (fmtOf w) (w.extractLsb' 5 2) st
  | .fence => Sys2Proof.Machine.execFence st
  | .fenceSys => Sys2Proof.Machine.execFenceSys st
  | .fenceEng => Sys2Proof.Machine.execFenceEng st
  | .cwb => Sys2Proof.Machine.execCwb (aOf w) (bOf w) st
  | .cinv => Sys2Proof.Machine.execCinv (aOf w) (bOf w) st
  | .pref => Sys2Proof.Machine.execPref (aOf w) st
  | .monw => Sys2Proof.Machine.execMonw (dOf w) (aOf w) (bOf w) st
  | .chb => Sys2Proof.Machine.execChb (dOf w) (w.extractLsb' 17 4) st
  | .chld => Sys2Proof.Machine.execChld (dOf w) (w.extractLsb' 17 4) (w.extractLsb' 9 4) (w.extractLsb' 0 9) st
  | .chst => Sys2Proof.Machine.execChst (dOf w) (w.extractLsb' 17 4) (w.extractLsb' 9 4) (w.extractLsb' 0 9) st
  | .chadvp => Sys2Proof.Machine.execChadvp (w.extractLsb' 17 4) (w.extractLsb' 0 9) st
  | .chadvc => Sys2Proof.Machine.execChadvc (w.extractLsb' 17 4) (w.extractLsb' 0 9) st
  | .chwaitp => Sys2Proof.Machine.execChwaitp (w.extractLsb' 17 4) (w.extractLsb' 0 9) st
  | .chwaitc => Sys2Proof.Machine.execChwaitc (w.extractLsb' 17 4) (w.extractLsb' 0 9) st
  | .chcnt => Sys2Proof.Machine.execChcnt (dOf w) (w.extractLsb' 17 4) st
  | .chptrHd => Sys2Proof.Machine.execChptrHd (dOf w) (w.extractLsb' 17 4) (w.extractLsb' 0 8) st
  | .chptrTl => Sys2Proof.Machine.execChptrTl (dOf w) (w.extractLsb' 17 4) (w.extractLsb' 0 8) st
  | .padd => Sys2Proof.Machine.execPadd (dOf w) (aOf w) (bOf w) (w.extractLsb' 9 2) st
  | .psub => Sys2Proof.Machine.execPsub (dOf w) (aOf w) (bOf w) (w.extractLsb' 9 2) st
  | .padds => Sys2Proof.Machine.execPadds (dOf w) (aOf w) (bOf w) (w.extractLsb' 9 2) st
  | .psubs => Sys2Proof.Machine.execPsubs (dOf w) (aOf w) (bOf w) (w.extractLsb' 9 2) st
  | .paddns => Sys2Proof.Machine.execPaddns (dOf w) (aOf w) (bOf w) (w.extractLsb' 9 2) st
  | .psubns => Sys2Proof.Machine.execPsubns (dOf w) (aOf w) (bOf w) (w.extractLsb' 9 2) st
  | .pavg => Sys2Proof.Machine.execPavg (dOf w) (aOf w) (bOf w) (w.extractLsb' 9 2) st
  | .pmin => Sys2Proof.Machine.execPmin (dOf w) (aOf w) (bOf w) (w.extractLsb' 9 2) st
  | .pmax => Sys2Proof.Machine.execPmax (dOf w) (aOf w) (bOf w) (w.extractLsb' 9 2) st
  | .pminn => Sys2Proof.Machine.execPminn (dOf w) (aOf w) (bOf w) (w.extractLsb' 9 2) st
  | .pmaxn => Sys2Proof.Machine.execPmaxn (dOf w) (aOf w) (bOf w) (w.extractLsb' 9 2) st
  | .pabs => Sys2Proof.Machine.execPabs (dOf w) (aOf w) (w.extractLsb' 9 2) st
  | .pneg => Sys2Proof.Machine.execPneg (dOf w) (aOf w) (w.extractLsb' 9 2) st
  | .pcmpeq => Sys2Proof.Machine.execPcmpeq (dOf w) (aOf w) (bOf w) (w.extractLsb' 9 2) st
  | .pcmplt => Sys2Proof.Machine.execPcmplt (dOf w) (aOf w) (bOf w) (w.extractLsb' 9 2) st
  | .pcmpltn => Sys2Proof.Machine.execPcmpltn (dOf w) (aOf w) (bOf w) (w.extractLsb' 9 2) st
  | .psllv => Sys2Proof.Machine.execPsllv (dOf w) (aOf w) (bOf w) (w.extractLsb' 9 2) st
  | .psrlv => Sys2Proof.Machine.execPsrlv (dOf w) (aOf w) (bOf w) (w.extractLsb' 9 2) st
  | .psrav => Sys2Proof.Machine.execPsrav (dOf w) (aOf w) (bOf w) (w.extractLsb' 9 2) st
  | .psum => Sys2Proof.Machine.execPsum (dOf w) (aOf w) (w.extractLsb' 9 2) st
  | .psumn => Sys2Proof.Machine.execPsumn (dOf w) (aOf w) (w.extractLsb' 9 2) st
  | .pmul => Sys2Proof.Machine.execPmul (dOf w) (aOf w) (bOf w) (w.extractLsb' 9 2) st
  | .pmulh => Sys2Proof.Machine.execPmulh (dOf w) (aOf w) (bOf w) (w.extractLsb' 9 2) st
  | .pmulhn => Sys2Proof.Machine.execPmulhn (dOf w) (aOf w) (bOf w) (w.extractLsb' 9 2) st
  | .pmulq => Sys2Proof.Machine.execPmulq (dOf w) (aOf w) (bOf w) (w.extractLsb' 9 2) st
  | .pdot => Sys2Proof.Machine.execPdot (dOf w) (aOf w) (bOf w) (w.extractLsb' 9 2) st
  | .pdotn => Sys2Proof.Machine.execPdotn (dOf w) (aOf w) (bOf w) (w.extractLsb' 9 2) st
  | .pslli => Sys2Proof.Machine.execPslli (dOf w) (aOf w) (w.extractLsb' 9 2) (w.extractLsb' 0 5) st
  | .psrli => Sys2Proof.Machine.execPsrli (dOf w) (aOf w) (w.extractLsb' 9 2) (w.extractLsb' 0 5) st
  | .psrai => Sys2Proof.Machine.execPsrai (dOf w) (aOf w) (w.extractLsb' 9 2) (w.extractLsb' 0 5) st
  | .psrari => Sys2Proof.Machine.execPsrari (dOf w) (aOf w) (w.extractLsb' 9 2) (w.extractLsb' 0 5) st
  | .ppacks => Sys2Proof.Machine.execPpacks (dOf w) (aOf w) (bOf w) (w.extractLsb' 9 2) st
  | .ppackns => Sys2Proof.Machine.execPpackns (dOf w) (aOf w) (bOf w) (w.extractLsb' 9 2) st
  | .ppack => Sys2Proof.Machine.execPpack (dOf w) (aOf w) (bOf w) (w.extractLsb' 9 2) st
  | .punpkl => Sys2Proof.Machine.execPunpkl (dOf w) (aOf w) (w.extractLsb' 9 2) st
  | .punpkh => Sys2Proof.Machine.execPunpkh (dOf w) (aOf w) (w.extractLsb' 9 2) st
  | .punpkln => Sys2Proof.Machine.execPunpkln (dOf w) (aOf w) (w.extractLsb' 9 2) st
  | .punpkhn => Sys2Proof.Machine.execPunpkhn (dOf w) (aOf w) (w.extractLsb' 9 2) st
  | .pshuf => Sys2Proof.Machine.execPshuf (dOf w) (aOf w) (bOf w) st
  | .pbcast => Sys2Proof.Machine.execPbcast (dOf w) (aOf w) (w.extractLsb' 9 2) (w.extractLsb' 0 5) st
  | .pins => Sys2Proof.Machine.execPins (dOf w) (aOf w) (w.extractLsb' 9 2) (w.extractLsb' 0 5) st
  | .pext => Sys2Proof.Machine.execPext (dOf w) (aOf w) (w.extractLsb' 9 2) (w.extractLsb' 0 5) st
  | .psel => Sys2Proof.Machine.execPsel (dOf w) (aOf w) (bOf w) st
  | .cadd => Sys2Proof.Machine.execCadd (dOf w) (aOf w) (bOf w) st
  | .csub => Sys2Proof.Machine.execCsub (dOf w) (aOf w) (bOf w) st
  | .caddh => Sys2Proof.Machine.execCaddh (dOf w) (aOf w) (bOf w) st
  | .csubh => Sys2Proof.Machine.execCsubh (dOf w) (aOf w) (bOf w) st
  | .cmul => Sys2Proof.Machine.execCmul (dOf w) (aOf w) (bOf w) st
  | .cmulj => Sys2Proof.Machine.execCmulj (dOf w) (aOf w) (bOf w) st
  | .cj => Sys2Proof.Machine.execCj (dOf w) (aOf w) st
  | .cmj => Sys2Proof.Machine.execCmj (dOf w) (aOf w) st
  | .cnorm => Sys2Proof.Machine.execCnorm (dOf w) (aOf w) st
  | .cdot => Sys2Proof.Machine.execCdot (dOf w) (aOf w) (bOf w) st
  | .cdotj => Sys2Proof.Machine.execCdotj (dOf w) (aOf w) (bOf w) st
  | .cbfly => Sys2Proof.Machine.execCbfly (dOf w) (aOf w) (bOf w) st
  | .cscl => Sys2Proof.Machine.execCscl (dOf w) (aOf w) (bOf w) st
  | .crnd => Sys2Proof.Machine.execCrnd (dOf w) (aOf w) (bOf w) st
  | .fadd => Sys2Proof.Machine.execFadd (dOf w) (aOf w) (bOf w) (w.extractLsb' 8 3) st
  | .fsub => Sys2Proof.Machine.execFsub (dOf w) (aOf w) (bOf w) (w.extractLsb' 8 3) st
  | .fmul => Sys2Proof.Machine.execFmul (dOf w) (aOf w) (bOf w) (w.extractLsb' 8 3) st
  | .fdiv => Sys2Proof.Machine.execFdiv (dOf w) (aOf w) (bOf w) (w.extractLsb' 8 3) st
  | .fsqrt => Sys2Proof.Machine.execFsqrt (dOf w) (aOf w) (w.extractLsb' 8 3) st
  | .fmin => Sys2Proof.Machine.execFmin (dOf w) (aOf w) (bOf w) st
  | .fmax => Sys2Proof.Machine.execFmax (dOf w) (aOf w) (bOf w) st
  | .fabs => Sys2Proof.Machine.execFabs (dOf w) (aOf w) st
  | .fneg => Sys2Proof.Machine.execFneg (dOf w) (aOf w) st
  | .fsgnj => Sys2Proof.Machine.execFsgnj (dOf w) (aOf w) (bOf w) st
  | .fcmpeq => Sys2Proof.Machine.execFcmpeq (dOf w) (aOf w) (bOf w) st
  | .fcmplt => Sys2Proof.Machine.execFcmplt (dOf w) (aOf w) (bOf w) st
  | .fcmple => Sys2Proof.Machine.execFcmple (dOf w) (aOf w) (bOf w) st
  | .fclass => Sys2Proof.Machine.execFclass (dOf w) (aOf w) st
  | .frnd => Sys2Proof.Machine.execFrnd (dOf w) (aOf w) (w.extractLsb' 8 3) st
  | .fma => Sys2Proof.Machine.execFma (dOf w) (aOf w) (bOf w) (cOf w) st
  | .fms => Sys2Proof.Machine.execFms (dOf w) (aOf w) (bOf w) (cOf w) st
  | .fnma => Sys2Proof.Machine.execFnma (dOf w) (aOf w) (bOf w) (cOf w) st
  | .fnms => Sys2Proof.Machine.execFnms (dOf w) (aOf w) (bOf w) (cOf w) st
  | .pfma => Sys2Proof.Machine.execPfma (dOf w) (aOf w) (bOf w) (cOf w) st
  | .pbfdot => Sys2Proof.Machine.execPbfdot (dOf w) (aOf w) (bOf w) (cOf w) st
  | .pfadd => Sys2Proof.Machine.execPfadd (dOf w) (aOf w) (bOf w) st
  | .pfsub => Sys2Proof.Machine.execPfsub (dOf w) (aOf w) (bOf w) st
  | .pfmul => Sys2Proof.Machine.execPfmul (dOf w) (aOf w) (bOf w) st
  | .pfmin => Sys2Proof.Machine.execPfmin (dOf w) (aOf w) (bOf w) st
  | .pfmax => Sys2Proof.Machine.execPfmax (dOf w) (aOf w) (bOf w) st
  | .pbfpack => Sys2Proof.Machine.execPbfpack (dOf w) (aOf w) (bOf w) st
  | .pbfunpl => Sys2Proof.Machine.execPbfunpl (dOf w) (aOf w) st
  | .pbfunph => Sys2Proof.Machine.execPbfunph (dOf w) (aOf w) st
  | .ptop2 => Sys2Proof.Machine.execPtop2 (dOf w) (aOf w) st
  | .fcvtF32I32 => Sys2Proof.Machine.execFcvtF32I32 (dOf w) (aOf w) (w.extractLsb' 0 3) st
  | .fcvtF32N32 => Sys2Proof.Machine.execFcvtF32N32 (dOf w) (aOf w) (w.extractLsb' 0 3) st
  | .fcvtF32I64 => Sys2Proof.Machine.execFcvtF32I64 (dOf w) (aOf w) (w.extractLsb' 0 3) st
  | .fcvtF32N64 => Sys2Proof.Machine.execFcvtF32N64 (dOf w) (aOf w) (w.extractLsb' 0 3) st
  | .fcvtF32Q15 => Sys2Proof.Machine.execFcvtF32Q15 (dOf w) (aOf w) (w.extractLsb' 0 3) st
  | .fcvtF32Q31 => Sys2Proof.Machine.execFcvtF32Q31 (dOf w) (aOf w) (w.extractLsb' 0 3) st
  | .fcvtI32F32 => Sys2Proof.Machine.execFcvtI32F32 (dOf w) (aOf w) (w.extractLsb' 0 3) st
  | .fcvtN32F32 => Sys2Proof.Machine.execFcvtN32F32 (dOf w) (aOf w) (w.extractLsb' 0 3) st
  | .fcvtI64F32 => Sys2Proof.Machine.execFcvtI64F32 (dOf w) (aOf w) (w.extractLsb' 0 3) st
  | .fcvtN64F32 => Sys2Proof.Machine.execFcvtN64F32 (dOf w) (aOf w) (w.extractLsb' 0 3) st
  | .fcvtQ15F32 => Sys2Proof.Machine.execFcvtQ15F32 (dOf w) (aOf w) (w.extractLsb' 0 3) st
  | .fcvtQ31F32 => Sys2Proof.Machine.execFcvtQ31F32 (dOf w) (aOf w) (w.extractLsb' 0 3) st
  | .fcvtBf16F32 => Sys2Proof.Machine.execFcvtBf16F32 (dOf w) (aOf w) (w.extractLsb' 0 3) st
  | .fcvtF32Bf16 => Sys2Proof.Machine.execFcvtF32Bf16 (dOf w) (aOf w) (w.extractLsb' 0 3) st
  | .mmaI8 => Sys2Proof.Machine.execMmaI8 (dOf w) (aOf w) (w.extractLsb' 14 2) (w.extractLsb' 8 6) (w.extractLsb' 2 6) (w.extractLsb' 1 1) (w.extractLsb' 0 1) st
  | .mmaI16 => Sys2Proof.Machine.execMmaI16 (dOf w) (aOf w) (w.extractLsb' 14 2) (w.extractLsb' 8 6) (w.extractLsb' 2 6) (w.extractLsb' 1 1) (w.extractLsb' 0 1) st
  | .mmaCq15 => Sys2Proof.Machine.execMmaCq15 (dOf w) (aOf w) (w.extractLsb' 14 2) (w.extractLsb' 8 6) (w.extractLsb' 2 6) (w.extractLsb' 1 1) (w.extractLsb' 0 1) st
  | .mmaDp8 => Sys2Proof.Machine.execMmaDp8 (dOf w) (aOf w) (w.extractLsb' 14 2) (w.extractLsb' 8 6) (w.extractLsb' 2 6) (w.extractLsb' 1 1) (w.extractLsb' 0 1) st
  | .mzero => Sys2Proof.Machine.execMzero (aOf w) (bOf w) st
  | .mdrain => Sys2Proof.Machine.execMdrain (aOf w) (bOf w) st
  | .msca => Sys2Proof.Machine.execMsca (aOf w) st
  | .mstride => Sys2Proof.Machine.execMstride (aOf w) (bOf w) st
  | .mbmap => Sys2Proof.Machine.execMbmap (aOf w) st
  | .mstat => Sys2Proof.Machine.execMstat (dOf w) st
  | .mwaitq => Sys2Proof.Machine.execMwaitq st
  | .cpy => Sys2Proof.Machine.execCpy (dOf w) (aOf w) (bOf w) st
  | .cpy2d => Sys2Proof.Machine.execCpy2d (dOf w) (aOf w) (bOf w) st
  | .cpyg => Sys2Proof.Machine.execCpyg (dOf w) (aOf w) (bOf w) st
  | .cpys => Sys2Proof.Machine.execCpys (dOf w) (aOf w) (bOf w) st
  | .cpyf => Sys2Proof.Machine.execCpyf (dOf w) (aOf w) (bOf w) st
  | .cpych => Sys2Proof.Machine.execCpych (dOf w) (aOf w) (bOf w) st
  | .kinit => Sys2Proof.Machine.execKinit (aOf w) (bOf w) st
  | .ksel => Sys2Proof.Machine.execKsel (aOf w) st
  | .karr => Sys2Proof.Machine.execKarr (aOf w) (bOf w) st
  | .kwait => Sys2Proof.Machine.execKwait (dOf w) (aOf w) (bOf w) st
  | .ktest => Sys2Proof.Machine.execKtest (dOf w) (aOf w) st
  | .barw => Sys2Proof.Machine.execBarw (aOf w) st
  | .bara => Sys2Proof.Machine.execBara (aOf w) st
  | .barwt => Sys2Proof.Machine.execBarwt (dOf w) (aOf w) (bOf w) st
  | .wake => Sys2Proof.Machine.execWake (aOf w) (bOf w) st
  | .wfw => Sys2Proof.Machine.execWfw (dOf w) st
  | .wclr => Sys2Proof.Machine.execWclr (aOf w) st
  | .wrd => Sys2Proof.Machine.execWrd (dOf w) st
  | .spawn => Sys2Proof.Machine.execSpawn (dOf w) (aOf w) (bOf w) st
  | .spawnr => Sys2Proof.Machine.execSpawnr (dOf w) (aOf w) (bOf w) st
  | .migr => Sys2Proof.Machine.execMigr (aOf w) st
  | .join => Sys2Proof.Machine.execJoin (aOf w) st
  | .yield => Sys2Proof.Machine.execYield (dOf w) st
  | .exit => Sys2Proof.Machine.execExit st
  | .launch => Sys2Proof.Machine.execLaunch (dOf w) (aOf w) (bOf w) st
  | .rankq => Sys2Proof.Machine.execRankq (dOf w) (aOf w) st
  | .trap => Sys2Proof.Machine.execTrap (w.extractLsb' 0 12) st
  | .brk => Sys2Proof.Machine.execBrk (w.extractLsb' 0 12) st
  | .svc => Sys2Proof.Machine.execSvc (w.extractLsb' 0 12) st
  | .tfence => Sys2Proof.Machine.execTfence st
  | .srd => Sys2Proof.Machine.execSrd (dOf w) (w.extractLsb' 0 12) st
  | .swr => Sys2Proof.Machine.execSwr (aOf w) (w.extractLsb' 0 12) st
  | .srx => Sys2Proof.Machine.execSrx (dOf w) (aOf w) (w.extractLsb' 0 12) st
  | .waitc => Sys2Proof.Machine.execWaitc (w.extractLsb' 0 12) st
  | .tret => Sys2Proof.Machine.execTret st
  | .immx => Sys2Proof.Machine.execImmx (w.extractLsb' 0 23) st
  | .align => Sys2Proof.Machine.execAlign (w.extractLsb' 0 23) st
  | .brp => Sys2Proof.Machine.execBrp (w.extractLsb' 0 7) st
  | .prio => Sys2Proof.Machine.execPrio (w.extractLsb' 0 5) st
  | .stream => Sys2Proof.Machine.execStream (w.extractLsb' 0 2) st
  | .noph => Sys2Proof.Machine.execNoph (w.extractLsb' 0 23) st

/-- Run the instruction that a word is in the issuing context's module, or its stub (R62, R63). -/
noncomputable def execFetched (rev : Nat) (w : Word32) (s : State) : Out :=
  match decodeAt rev w with
  | .ok i => exec i s
  | .error _ => stub w s

/-- The same, without building the instruction. -/
def runFetched (rev : Nat) (w : Word32) (s : State) : Out :=
  match memberAt rev w with
  | .ok m => runMember m w s
  | .error _ => stub w s

theorem runMember_eq (m : Member) (w : Word32) (s : State) : runMember m w s = exec (m.build w) s := by
  cases m <;> rfl

@[csimp] theorem execFetched_eq_runFetched : @execFetched = @runFetched := by
  funext rev w s
  unfold execFetched runFetched decodeAt
  cases memberAt rev w with
  | error e => rfl
  | ok m => exact (runMember_eq m w s).symm

/-- An outcome with a function of its next state. -/
def Out.mapNext (f : State → State) (o : Out) : Out :=
  match o with
  | .next t => .next (f t)
  | .fault x => .fault x
  | .refused x => .refused x

/-- Issue a word for the issuing context.  An access whose bank is not free is presented there; one whose odd bank is not
free waits while that bank has its cycle (R248, R251, R254). -/
def issueWord (late : Bool) (w : Word32) (s : State) : Out :=
  let x := wordAccess w s
  let id := s.cur.id
  match x.bind (fun x => (x.blocked s).map (fun b => (b, x.bank s))) with
  | some (b, own) => execBankAccess b (if b = own then [(portAt b (coreOf id), id, 3)] else []) 0 s
  | none =>
    (execFetched (myModule s).rev w (noteIssue w s)).mapNext (fun t => afterAccess w x s (afterIssue late w s t))

/-- One issue slot of a context. -/
def runCtx (late : Bool) (id : Nat) (s : State) : Out :=
  let s := switchTo id s
  match fetch s with
  | .ended => .next (raiseAt s.cur.a.pc .bounds s.cur.a.pc s)
  | .inside w => .next (raiseAt s.cur.a.pc .illegal (w.setWidth 64) s)
  | .barred t => .next (raiseAt (groupPc s) t.cause t.val s)
  | .word w => if hasBlock s s.cur then issueWord late w s else .next (missBlock s)

/-- A context's turn: it issues if it is ready and its core chooses it (R314). -/
def ctxTurn (late : Bool) (id : Nat) (s : State) : Out :=
  if ctxExists s id = false then .fault .noSuchContext
  else if ready s (ctxOf s id) && chooseIn s (coreAt s (coreOf id)) == some id then runCtx late id s
  else .next s

/-- A turn of the agenda. -/
def takeTurn (t : Turn) (s : State) : Out :=
  match t with
  | .ctx id => ctxTurn false id s
  | .late id => ctxTurn true id s
  | .post id i => if ctxExists s id = false then .fault .noSuchContext else performPost id i s
  | .error line source bad => homeError line source bad s
  | .badLog launch index source => spoilLog launch index source s
  | .dev i => if i.isWord then .next s else exec i s

/-- The turn the machine takes when the agenda is empty: one of what the cores and the units have to do, each in
its time; nothing when there is nothing to do. -/
def ownTurn (s : State) : Out :=
  let jobs := (ctxWork s).map (runCtx false) ++ work s
  match jobs[s.steps % jobs.length]? with
  | some job => job s
  | none => .next s

/-! ### Placing an instruction -/

/-- A launch of a one-instruction module on context 0: its code at physical address 4,096 of HBM. -/
def placedModule : Module := { id := 1, rev := 3, codeAt := 4096, codeSize := 4 }

/-- The translation of that module's one word: resident, and handle 2 over the word. -/
def placedBlock (s : State) : Block := { module := 1, entry := 0, rev := nativeRev s (clusterOf s.cur.id), words := 1, used := 0 }
def placedCode : HandleEntry := { length := 4, valid := true, x := true, space := 1 }

/-- The context at PC 0 of that module, the only one of its core that is ready. -/
def placedCtx (c : Ctx) : Ctx :=
  { c with
    a := { c.a with pc := 0, immx := [] }
    bind := { c.bind with module := 1, launch := 1 }
    handles := putBy (·.1) (2, placedCode) c.handles
    run := .running, pre := .running, blk := none, taken := false, half0 := true, half1 := true, busyUntil := 0
    waited := 8 }

/-- Store a word where the next step fetches; the boot is over (R405).
DESIGN CHOICE, safe (log entry 1). -/
def placeWord (w : Word32) (s : State) : State :=
  let cl := clusterAt s (clusterOf s.cur.id)
  { putCore { myCore s with last := (s.cur.id + 3) % 4 } (putCluster { cl with blocks := placedBlock s :: cl.blocks } s) with
    cur := placedCtx s.cur
    disp := { s.disp with modules := putBy Module.id placedModule s.disp.modules }
    mem := { s.mem with hbm := s.mem.hbm.writeBytes 4096 (bytesOfWord w) }
    plat := { s.plat with stage := 10 }
    agenda := [.ctx s.cur.id] }

end Sys2Proof.Machine
end

