-- ==== Sys2Proof/Machine/Step.lean ====
section
/-!
DEFINITION. One step of the machine, and the placing of an instruction where the next step fetches it.
-/

namespace Sys2Proof.Machine

open Sys2Proof

/-- One step: time passes; then the agenda's next turn, or, with an empty agenda, the machine's own
turn. -/
def step (s : State) : Host.Outcome State Fault Refusal :=
  let t := passTime s
  match t.agenda with
  | u :: us => takeTurn u { t with agenda := us }
  | [] => ownTurn t

/-- `s` with the instruction of a table row stored where step fetches next: the words of the row are 32
bits, and a row of no bits is a device step, which is no word. -/
def State.withFetchWord (s : State) (nbits w : Nat) : State :=
  placeWord (BitVec.ofNat 32 (w % 2 ^ nbits)) s

end Sys2Proof.Machine
end

