-- ==== Sys2Proof/Certificates/Slice0/Obligations.lean ====
section
/-!
DEFINITION. The statements about the model.
-/

namespace Sys2Proof.Claims

open Sys2Proof Sys2Proof.Machine

/-- Instruction `i` completes: G[d] := v, the PC moves to the next word, and nothing else changes. -/
def Gives (i : Instr) (s : State) (d : Reg) (v : Word64) : Prop := exec i s = .next (retire (wr d v s))

/-- The same, with the AFL bits `f` added. -/
def GivesF (i : Instr) (s : State) (d : Reg) (v : Word64) (f : Nat) : Prop :=
  exec i s = .next (retire (addFlags f (wr d v s)))

/-- Instruction `i` raises a fault on its own group, and nothing else changes (R353). -/
def Raises (i : Instr) (s : State) (c : Cause) (v : Word64) : Prop := exec i s = .next (raiseAt (groupPc s) c v s)

/-- Signed and unsigned values of a register (R89), and of its low 32 bits (R95). -/
def xs (s : State) (r : Reg) : Int := (rd s r).toInt
def xn (s : State) (r : Reg) : Nat := (rd s r).toNat
def ws (s : State) (r : Reg) : Int := ((rd s r).setWidth 32).toInt
def wn (s : State) (r : Reg) : Nat := (rd s r).toNat % 2 ^ 32

/-- Sext(Wrap(x, 32), 64) as a pattern. -/
def sx32 (x : Int) : Word64 := (BitVec.ofInt 32 x).signExtend 64

/-- 1 if the condition holds, else 0. -/
def one (p : Prop) [Decidable p] : Word64 := if p then 1 else 0

/-- The memories have their canonical form (StepKeepsMemory says that every step keeps it). -/
def Canon (s : State) : Prop := s.mem.l1.wf = true ∧ s.mem.hbm.wf = true ∧ s.mem.host.wf = true

end Sys2Proof.Claims

open Sys2Proof Sys2Proof.Machine Sys2Proof.Claims

/-! ### Encoding and stepping -/

/-- R57-R65: the decoder reads every well-formed instruction word back, with every operand. -/
def Obligations.EncodeThenDecode : Prop :=
  ∀ i : Instr, i.isWord = true → i.wf = true → decodeAt 3 (encodeWord i) = .ok i

/-- R57-R65: a word that decodes is the encoding of what it decodes to, which is well formed. -/
def Obligations.DecodeThenEncode : Prop :=
  ∀ (w : Word32) (i : Instr), decodeAt 3 w = .ok i → i.isWord = true ∧ i.wf = true ∧ encodeWord i = w

/-- R63: in a module of an earlier revision a later member's word is no instruction, and the ALIGN hint is NOPH. -/
def Obligations.RevisionStubs : Prop :=
  ∀ (i : Instr) (rev : Nat), i.isWord = true → i.wf = true →
    (rev < i.revision → decodeAt rev (encodeWord i) = .error .aboveRevision) ∧
    (∀ x, i = .align x → rev < 3 → decodeAt rev (encodeWord i) = .ok (.noph x))

/-- Words that the spec writes out decode to the instructions they stand for, one of each kind of encoding
(R96, R98, R99, R100, R149-R153, R155, R157, R158, R178, R179, R184, R188). -/
def Obligations.SpecWords : Prop :=
  decodeAt 3 0x08A63A01#32 = .ok (.madd 5 6 7 8) ∧
  decodeAt 3 0x0CA6FFFC#32 = .ok (.addi 5 6 0xFFFC) ∧
  decodeAt 3 0x28A62004#32 = .ok (.srai 5 6 4) ∧
  decodeAt 3 0x2CA60203#32 = .ok (.bfx 5 6 8 3) ∧
  decodeAt 3 0x81063003#32 = .ok (.ld 8 6 3 3) ∧
  decodeAt 3 0x84E66802#32 = .ok (.strel 7 6 6 2) ∧
  decodeAt 3 0x88C80002#32 = .ok (.ldp 3 8 2) ∧
  decodeAt 3 0x8D06B000#32 = .ok (.stb 8 6 3 0) ∧
  decodeAt 3 0x90A61001#32 = .ok (.ldc 5 6 1) ∧
  decodeAt 3 0x94A63850#32 = .ok (.amoadd 5 6 7 2 1) ∧
  decodeAt 3 0x98864061#32 = .ok (.cas2 2 6 4 3) ∧
  decodeAt 3 0x9CA63806#32 = .ok (.monw 5 6 7) ∧
  decodeAt 3 0xC4C78421#32 = .ok (.mmaI8 6 7 2 4 8 0 1) ∧
  decodeAt 3 0xD4063801#32 = .ok (.mdrain 6 7) ∧
  decodeAt 3 0xD8A63805#32 = .ok (.cpych 5 6 7) ∧
  decodeAt 3 0xDDA60003#32 = .ok (.kwait 13 6 0)

/-- The next turn is a context's, which is ready and which its core chooses (R314), and it issues at state `t`: time has
passed, the turn is taken off the agenda, and the context is the issuing one. -/
def Sys2Proof.Claims.Turning (late : Bool) (id : Nat) (us : List Turn) (s t : State) : Prop :=
  s.agenda = (if late then .late id else .ctx id) :: us ∧ t = switchTo id { passTime s with agenda := us } ∧
  ctxExists (passTime s) id = true ∧
  ready { passTime s with agenda := us } (ctxOf { passTime s with agenda := us } id) = true ∧
  chooseIn { passTime s with agenda := us } (coreAt { passTime s with agenda := us } (coreOf id)) = some id

/-- A step runs the instruction decoded at the PC, a stub of another revision, the end of the code, a translation
miss, a late load, or the device step that is next.  The turns are the model's (log entry 2), and which loads may be
read later is its reading (log entry 14). -/
def Obligations.StepRuns : Prop :=
  -- R66, R314: a context that issues a word which decodes, with its block resident and the bank of the word's access
  -- free, runs that instruction's meaning at the state in which the barrel has noted the issue.  Around it the step only
  -- notes what R86, R88, R142, R241, R248 and R250 say of an issue: result latency, the divider, late loads, the pointers of
  -- the bank, and the reserved cycles of a pair or a burst.
  (∀ (late : Bool) (id : Nat) (us : List Turn) (s t : State) (w : Word32) (i : Instr),
    Claims.Turning late id us s t → fetch t = .word w → hasBlock t t.cur = true →
    (wordAccess w t).bind (fun x => x.blocked t) = none → decodeAt (myModule t).rev w = .ok i →
    ∃ u, exec i (noteIssue w t) = .next u ∧
      step s = .next (afterAccess w (wordAccess w t) t (afterIssue late w t u))) ∧
  -- R62, R66: a word that is no instruction raises ILLEGAL on the first word of its group, with the word.
  (∀ (late : Bool) (id : Nat) (us : List Turn) (s t : State) (w : Word32) (e : DecodeReject),
    Claims.Turning late id us s t → fetch t = .word w → hasBlock t t.cur = true →
    decodeAt (myModule t).rev w = .error e →
    ∃ u, u = noteIssue w t ∧
      step s = .next (afterIssue late w t (raiseAt (groupPc u) .illegal (w.setWidth 64) u))) ∧
  -- R18, R28, R66: beyond the last word of the code section the step raises BOUNDS at the PC reached; where handle 2 does
  -- not admit the fetch, the fault of its check; inside an instruction group, ILLEGAL with the word there.
  (∀ (late : Bool) (id : Nat) (us : List Turn) (s t : State), Claims.Turning late id us s t →
    (fetch t = .ended → step s = .next (raiseAt t.cur.a.pc .bounds t.cur.a.pc t)) ∧
    (∀ x, fetch t = .barred x → step s = .next (raiseAt (groupPc t) x.cause x.val t)) ∧
    (∀ w, fetch t = .inside w → step s = .next (raiseAt t.cur.a.pc .illegal (w.setWidth 64) t))) ∧
  -- R342: a context outside every block, at a PC whose block is not resident, parks on a translation miss and runs
  -- nothing; its cluster's lowering engine gets the module, the PC and the context.
  (∀ (late : Bool) (id : Nat) (us : List Turn) (s t : State) (w : Word32),
    Claims.Turning late id us s t → fetch t = .word w → hasBlock t t.cur = false →
    ∃ u, step s = .next u ∧ u.cur = { t.cur with run := .parked .translation, blk := none } ∧
      (clusterAt u (clusterOf id)).misses =
        (clusterAt t (clusterOf id)).misses ++ [(t.cur.bind.module, t.cur.a.pc.toNat, id)] ∧
      u.mem = t.mem ∧ u.others = t.others) ∧
  -- R314: a context's turn at which it is not ready, or its core chooses another, passes without effect.
  (∀ (late : Bool) (id : Nat) (us : List Turn) (s t : State),
    s.agenda = (if late then .late id else .ctx id) :: us → t = { passTime s with agenda := us } →
    ctxExists (passTime s) id = true →
    ready t (ctxOf t id) = false ∨ chooseIn t (coreAt t (coreOf id)) ≠ some id → step s = .next t) ∧
  -- R142, R147, R217: a plain load still posted whose bank is free is performed at its turn, under the policy that it was
  -- issued with: its register takes the value read now, and a STREAM hint of a later instruction stays.
  (∀ (id i : Nat) (us : List Turn) (s t u v : State) (x : Post) (raw : Nat),
    s.agenda = .post id i :: us → t = switchTo id { passTime s with agenda := us } → ctxExists (passTime s) id = true →
    t.cur.posted[i]? = some x → postFree t x = true →
    u = { t with cur := { t.cur with posted := t.cur.posted.eraseIdx i, stream := none } } →
    plainLoad x.ptr x.entry x.n (.load x.d x.fmt) u = .ok raw v → x.fmt ≠ pairFmt →
    ∃ y, y = wr x.d (loadConv x.fmt raw).1 v ∧ step s = .next { y with cur := { y.cur with stream := t.cur.stream } }) ∧
  -- File 95: a device's turn is that device step's meaning, at the state in which time has passed.
  (∀ (s : State) (us : List Turn) (i : Instr),
    s.agenda = .dev i :: us → i.isWord = false → step s = exec i { passTime s with agenda := us }) ∧
  -- R368, R369: a turn of an error is the home's, or the log's, meeting it.
  (∀ (s : State) (us : List Turn) (line launch index source : Nat) (bad : Bool),
    (s.agenda = .error line source bad :: us → step s = homeError line source bad { passTime s with agenda := us }) ∧
    (s.agenda = .badLog launch index source :: us → step s = spoilLog launch index source { passTime s with agenda := us }))

/-- No instruction is refused or stops the machine, and a step answers unless the agenda names a context the part lacks. -/
def Obligations.StepAnswers : Prop :=
  -- The model refuses nothing: every instruction and every device step answers a next state (log entry 2).
  (∀ (i : Instr) (s : State), ∃ t, exec i s = .next t) ∧
  -- Only a turn of a context that the part does not have stops a run (R2).
  (∀ s : State, (∃ t, step s = .next t) ∨
    (step s = .fault .noSuchContext ∧ ∃ id us, ctxExists (passTime s) id = false ∧
      (s.agenda = .ctx id :: us ∨ s.agenda = .late id :: us ∨ ∃ i, s.agenda = .post id i :: us)))

/-! ### Scalar integers -/

/-- R65, R97, R98: the immediate members, whose immediate is the field alone or, with IMMX, the sign-extended
concatenation. -/
def Obligations.Immediates : Prop :=
  ∀ (d a : Reg) (i : BitVec 16) (s : State) (immS' immZ' : Int),
    (s.cur.a.immx = [] ∧ immS' = i.toInt ∧ immZ' = i.toNat ∨
      (∃ p, s.cur.a.immx = [p] ∧ immS' = (p ++ i).toInt ∧ immZ' = immS') ∨
      (∃ p q, s.cur.a.immx = [p, q] ∧ immS' = (p ++ q ++ i).toInt ∧ immZ' = immS')) →
    Gives (.addi d a i) s d (wrap64 (xs s a + immS')) ∧
    Gives (.andi d a i) s d (rd s a &&& wrap64 immZ') ∧
    Gives (.ori d a i) s d (rd s a ||| wrap64 immZ') ∧
    Gives (.xori d a i) s d (rd s a ^^^ wrap64 immZ') ∧
    Gives (.slti d a i) s d (one (xs s a < immS')) ∧
    Gives (.sltni d a i) s d (one (xn s a < (wrap64 immS').toNat)) ∧
    Gives (.lui d i) s d (wrap64 (immS' * 2 ^ 16))

/-- R99, R100: shifts by an amount, and bit fields. -/
def Obligations.ShiftsAndFields : Prop :=
  ∀ (d a : Reg) (n : BitVec 6) (m : BitVec 5) (p l : BitVec 6) (s : State),
    let len := l.toNat + 1
    let pos := p.toNat
    Gives (.slli d a n) s d (nat64 (xn s a * 2 ^ n.toNat)) ∧
    Gives (.srli d a n) s d (nat64 (xn s a / 2 ^ n.toNat)) ∧
    Gives (.srai d a n) s d (wrap64 (xs s a / 2 ^ n.toNat)) ∧
    Gives (.rori d a n) s d (nat64 (xn s a / 2 ^ n.toNat + xn s a * 2 ^ (64 - n.toNat))) ∧
    Gives (.sllwi d a m) s d (sx32 (wn s a * 2 ^ m.toNat : Nat)) ∧
    Gives (.srlwi d a m) s d (sx32 (wn s a / 2 ^ m.toNat : Nat)) ∧
    Gives (.srawi d a m) s d (sx32 (ws s a / 2 ^ m.toNat)) ∧
    (pos + len ≤ 64 →
      Gives (.bfx d a p l) s d (((rd s a).extractLsb' pos len).signExtend 64) ∧
      Gives (.bfxn d a p l) s d (((rd s a).extractLsb' pos len).setWidth 64) ∧
      ∃ v, Gives (.bfi d a p l) s d v ∧ ∀ k, k < 64 → v.getLsbD k =
        if pos ≤ k ∧ k < pos + len then (rd s a).getLsbD (k - pos) else (rd s d).getLsbD k)

/-- R29, R101-R104: pointer members, with the values on which MKP, ADDP, ADDPI and SUBP raise BOUNDS.  That SUBP gives
a negative difference where R29 could be read to fault is the model's reading (log entry 95). -/
def Obligations.Pointers : Prop :=
  ∀ (d a b : Reg) (i : BitVec 16) (s : State),
    let h := fun r => xn s r / 2 ^ 54
    let o := fun r => xn s r % 2 ^ 54
    (xn s a < 1024 ∧ xn s b < 2 ^ 54 → Gives (.mkp d a b) s d (nat64 (xn s a * 2 ^ 54 + xn s b))) ∧
    (1024 ≤ xn s a → Raises (.mkp d a b) s .bounds (rd s a)) ∧
    (xn s a < 1024 ∧ 2 ^ 54 ≤ xn s b → Raises (.mkp d a b) s .bounds (rd s b)) ∧
    Gives (.phd d a) s d (nat64 (h a)) ∧ Gives (.pof d a) s d (nat64 (o a)) ∧
    (∀ (j : Instr) (k : Int), (j = .addp d a b ∧ k = xs s b ∨ j = .addpi d a i ∧ k = immS s 16 i.toNat) →
      (0 ≤ (o a : Int) + k ∧ (o a : Int) + k < 2 ^ 54 →
        Gives j s d (nat64 (h a * 2 ^ 54 + ((o a : Int) + k).toNat))) ∧
      ((o a : Int) + k < 0 ∨ 2 ^ 54 ≤ (o a : Int) + k → Raises j s .bounds (rd s a))) ∧
    (h a = h b → Gives (.subp d a b) s d (wrap64 ((o a : Int) - o b))) ∧
    (h a ≠ h b → Raises (.subp d a b) s .bounds (rd s b)) ∧
    (let e := entryIn s.cur.handles (h a)
     (e.valid = true ∧ o a ≤ e.length → Gives (.pchk d a) s d (nat64 (e.length - o a))) ∧
     (e.valid = false ∨ e.length < o a → Gives (.pchk d a) s d (wrap64 (-1))))

/-- R89, R90, R93, R94: the two-register operations and the bit counts. -/
def Obligations.IntBasics : Prop :=
  -- R90: addition, logic, shifts, comparisons, minimum and maximum.
  (∀ (d a b : Reg) (s : State),
    let n := xn s b % 64
    Gives (.add d a b) s d (wrap64 (xs s a + xs s b)) ∧
    Gives (.sub d a b) s d (wrap64 (xs s a - xs s b)) ∧
    Gives (.and d a b) s d (nat64 (xn s a &&& xn s b)) ∧
    Gives (.or d a b) s d (nat64 (xn s a ||| xn s b)) ∧
    Gives (.xor d a b) s d (nat64 (xn s a ^^^ xn s b)) ∧
    Gives (.andn d a b) s d (nat64 (xn s a &&& (2 ^ 64 - 1 - xn s b))) ∧
    Gives (.sll d a b) s d (nat64 (xn s a * 2 ^ n)) ∧
    Gives (.srl d a b) s d (nat64 (xn s a / 2 ^ n)) ∧
    Gives (.sra d a b) s d (wrap64 (xs s a / 2 ^ n)) ∧
    Gives (.ror d a b) s d (nat64 (xn s a / 2 ^ n + xn s a * 2 ^ (64 - n))) ∧
    Gives (.slt d a b) s d (one (xs s a < xs s b)) ∧
    Gives (.sltn d a b) s d (one (xn s a < xn s b)) ∧
    Gives (.seq d a b) s d (one (xn s a = xn s b)) ∧
    Gives (.min d a b) s d (wrap64 (min (xs s a) (xs s b))) ∧
    Gives (.max d a b) s d (wrap64 (max (xs s a) (xs s b))) ∧
    Gives (.minn d a b) s d (nat64 (min (xn s a) (xn s b))) ∧
    Gives (.maxn d a b) s d (nat64 (max (xn s a) (xn s b)))) ∧
  -- R94: leading and trailing zeros, one bits, and reversals, bit by bit and byte by byte.
  (∀ (d a : Reg) (s : State),
    (∃ n, Gives (.clz d a) s d (nat64 n) ∧ n ≤ 64 ∧ (∀ i, 64 - n ≤ i → (rd s a).getLsbD i = false) ∧
      (n < 64 → (rd s a).getLsbD (63 - n) = true)) ∧
    (∃ n, Gives (.ctz d a) s d (nat64 n) ∧ n ≤ 64 ∧ (∀ i, i < n → (rd s a).getLsbD i = false) ∧
      (n < 64 → (rd s a).getLsbD n = true)) ∧
    Gives (.popc d a) s d (nat64 ((List.range 64).countP (fun i => (rd s a).getLsbD i))) ∧
    (∃ v, Gives (.brev d a) s d v ∧ ∀ i, i < 64 → v.getLsbD i = (rd s a).getLsbD (63 - i)) ∧
    (∃ v, Gives (.bswap d a) s d v ∧ ∀ i, i < 8 → fieldOf v (8 * i) 8 = fieldOf (rd s a) (8 * (7 - i)) 8))

/-- R91, R92: products, quotients and remainders. -/
def Obligations.MultipliesAndDivides : Prop :=
  -- R91: the three multiplies.
  (∀ (d a b : Reg) (s : State),
    Gives (.mul d a b) s d (wrap64 (xs s a * xs s b)) ∧
    Gives (.mul d a b) s d (nat64 (xn s a * xn s b)) ∧
    Gives (.mulh d a b) s d (wrap64 (xs s a * xs s b / 2 ^ 64)) ∧
    Gives (.mulhn d a b) s d (nat64 (xn s a * xn s b / 2 ^ 64))) ∧
  -- R92: quotients and remainders, with the divisor zero and the overflow case.
  (∀ (d a b : Reg) (s : State),
    (xn s b = 0 →
      GivesF (.div d a b) s d (wrap64 (-1)) fDZ ∧ GivesF (.divn d a b) s d (wrap64 (-1)) fDZ ∧
      GivesF (.rem d a b) s d (rd s a) fDZ ∧ GivesF (.remn d a b) s d (rd s a) fDZ) ∧
    (xs s a = -2 ^ 63 ∧ xs s b = -1 →
      GivesF (.div d a b) s d (rd s a) fOV ∧ GivesF (.rem d a b) s d 0 0) ∧
    (xn s b ≠ 0 ∧ ¬(xs s a = -2 ^ 63 ∧ xs s b = -1) →
      GivesF (.div d a b) s d (wrap64 ((xs s a).tdiv (xs s b))) 0 ∧
      GivesF (.rem d a b) s d (wrap64 ((xs s a).tmod (xs s b))) 0) ∧
    (xn s b ≠ 0 →
      GivesF (.divn d a b) s d (nat64 (xn s a / xn s b)) 0 ∧ GivesF (.remn d a b) s d (nat64 (xn s a % xn s b)) 0) ∧
    (wn s b = 0 → GivesF (.divw d a b) s d (wrap64 (-1)) fDZ ∧ GivesF (.remw d a b) s d (sx32 (ws s a)) fDZ) ∧
    (ws s a = -2 ^ 31 ∧ ws s b = -1 →
      GivesF (.divw d a b) s d (sx32 (ws s a)) fOV ∧ GivesF (.remw d a b) s d 0 0) ∧
    (wn s b ≠ 0 ∧ ¬(ws s a = -2 ^ 31 ∧ ws s b = -1) →
      GivesF (.divw d a b) s d (sx32 ((ws s a).tdiv (ws s b))) 0 ∧
      GivesF (.remw d a b) s d (sx32 ((ws s a).tmod (ws s b))) 0))

/-- R95, R96: the word forms and the members with four operands. -/
def Obligations.WordAndFourOperand : Prop :=
  -- R95: the W members form 32 bits and write them sign-extended.
  (∀ (d a b : Reg) (s : State),
    let n := xn s b % 32
    Gives (.addw d a b) s d (sx32 (ws s a + ws s b)) ∧
    Gives (.subw d a b) s d (sx32 (ws s a - ws s b)) ∧
    Gives (.mulw d a b) s d (sx32 (ws s a * ws s b)) ∧
    Gives (.sllw d a b) s d (sx32 (wn s a * 2 ^ n : Nat)) ∧
    Gives (.srlw d a b) s d (sx32 (wn s a / 2 ^ n : Nat)) ∧
    Gives (.sraw d a b) s d (sx32 (ws s a / 2 ^ n))) ∧
  -- R96: the four-register members read every operand before d is written.
  (∀ (d a b c : Reg) (s : State),
    Gives (.csel d a b c) s d (if xn s c ≠ 0 then rd s a else rd s b) ∧
    Gives (.madd d a b c) s d (wrap64 (xs s a * xs s b + xs s c)) ∧
    Gives (.msub d a b c) s d (wrap64 (xs s c - xs s a * xs s b)) ∧
    Gives (.funnel d a b c) s d (nat64 ((xn s a * 2 ^ 64 + xn s b) / 2 ^ (xn s c % 64))))

/-! ### Control transfers and hints -/

namespace Sys2Proof.Claims

/-- A branch hint is used up (R64). -/
def noBrp (s : State) : State := { s with cur := { s.cur with brp := none } }

/-- Where a direct transfer leads: the PC plus four times the displacement. -/
def direct (s : State) (disp : Int) : Int := (s.cur.a.pc.toNat : Int) + 4 * disp

/-- The exact integer lies in the code section. -/
def inCode (s : State) (t : Int) : Prop := 0 ≤ t ∧ t < (myModule s).codeSize

/-- Is the word a stub for the running module (R62, R63)? -/
def stubWord (s : State) (w : Word32) : Prop := ∃ e, decodeAt (myModule s).rev w = .error e

end Sys2Proof.Claims

/-- R105-R110: branches, LOOP, jumps and calls. -/
def Obligations.Transfers : Prop :=
  -- R105, R106: the six branches, with the target checked only when the branch is taken.
  (∀ (i : Instr) (a b : Reg) (x : BitVec 16) (s : State) (p : Prop),
    (i = .beq a b x ∧ (p ↔ xn s a = xn s b) ∨ i = .bne a b x ∧ (p ↔ xn s a ≠ xn s b) ∨
      i = .blt a b x ∧ (p ↔ xs s a < xs s b) ∨ i = .bge a b x ∧ (p ↔ xs s a ≥ xs s b) ∨
      i = .bltn a b x ∧ (p ↔ xn s a < xn s b) ∨ i = .bgen a b x ∧ (p ↔ xn s a ≥ xn s b)) →
    let t := direct s (immS s 16 x.toNat)
    (¬p → exec i s = .next (retire (noBrp s))) ∧
    (p ∧ inCode s t → exec i s = .next (setPc (wrap64 t) (noBrp s))) ∧
    (p ∧ ¬inCode s t → Raises i s .bounds (wrap64 t))) ∧
  -- R108: LOOP writes the decremented counter on both paths, and not where the target faults.
  (∀ (a : Reg) (x : BitVec 16) (s : State),
    let v := wrap64 (xs s a - 1)
    let t := direct s (immS s 16 x.toNat)
    (v = 0 → exec (.loop a x) s = .next (retire (noBrp (wr a v s)))) ∧
    (v ≠ 0 ∧ inCode s t → exec (.loop a x) s = .next (setPc (wrap64 t) (noBrp (wr a v s)))) ∧
    (v ≠ 0 ∧ ¬inCode s t → Raises (.loop a x) s .bounds (wrap64 t))) ∧
  -- R18, R109, R110: jumps and calls; a call leaves the address of the next word in g1.
  (∀ (x : BitVec 26) (a : Reg) (s : State),
    let t := direct s (immS s 26 x.toNat)
    let link := s.cur.a.pc + 4
    (inCode s t → exec (.jmp x) s = .next (setPc (wrap64 t) s) ∧
      exec (.call x) s = .next (setPc (wrap64 t) (wr 1 link s))) ∧
    (¬inCode s t → Raises (.jmp x) s .bounds (wrap64 t) ∧ Raises (.call x) s .bounds (wrap64 t)) ∧
    (xn s a < (myModule s).codeSize ∧ xn s a % 4 = 0 → exec (.jr a) s = .next (setPc (rd s a) s) ∧
      exec (.callr a) s = .next (setPc (rd s a) (wr 1 link s))) ∧
    ((myModule s).codeSize ≤ xn s a → Raises (.jr a) s .bounds (rd s a) ∧ Raises (.callr a) s .bounds (rd s a)) ∧
    (xn s a < (myModule s).codeSize ∧ xn s a % 4 ≠ 0 →
      Raises (.jr a) s .align (rd s a) ∧ Raises (.callr a) s .align (rd s a)))

/-- R64, R65, R316: hints, IMMX, ILLEGAL and ALIGN. -/
def Obligations.Controls : Prop :=
  -- R62, R64, R65: the hints change only what they hint at; a well placed IMMX joins its payload to the group,
  -- and any other one, like major 0, is a stub.
  (∀ (p : BitVec 23) (q : BitVec 7) (n : BitVec 5) (m : BitVec 2) (x : BitVec 26) (s : State),
    let pc := s.cur.a.pc.toNat
    let after := fun (w : Word32) => codeWord s (pc + 4) = some w ∨
      ∃ v, codeWord s (pc + 4) = some v ∧ v.extractLsb' 23 9 = 0x1F8#9 ∧ codeWord s (pc + 8) = some w
    Raises (.illegal x) s .illegal (nat64 x.toNat) ∧
    exec (.noph p) s = .next (retire s) ∧
    exec (.brp q) s = .next { retire s with cur := { (retire s).cur with brp := some q.toNat } } ∧
    exec (.prio n) s = .next { retire s with cur := { (retire s).cur with prio := n.toNat } } ∧
    exec (.stream m) s =
      .next { retire s with cur := { (retire s).cur with stream := if m.toNat = 3 then none else some m.toNat } } ∧
    (∀ w : Word32, after w → widenable w = true →
      (¬stubWord s w → ∃ t, exec (.immx p) s = .next t ∧ t.cur.a.immx = s.cur.a.immx ++ [p] ∧
        t.cur.a.pc = s.cur.a.pc + 4 ∧
        t = { s with cur := { s.cur with a := { s.cur.a with pc := t.cur.a.pc, immx := t.cur.a.immx } } }) ∧
      (stubWord s w → Raises (.immx p) s .illegal (w.setWidth 64))) ∧
    ((∀ w, after w → widenable w = false) →
      Raises (.immx p) s .illegal (nat64 (0xFC000000 + p.toNat)))) ∧
  -- R63, R316: ALIGN parks behind itself for at most 64 cycles; when every core of the tile that runs a task of
  -- the module is parked at the identifier, all of them go on.  Below revision 3 it is NOPH.
  (∀ (p : BitVec 23) (s : State),
    let here := fun (c : Ctx) => tileOf c.id = tileOf s.cur.id ∧ c.bind.module = s.cur.bind.module
    let at_ := fun (c : Ctx) => here c ∧ ∃ m, c.run = .parked (.align p.toNat m)
    let met := ∀ c ∈ s.others, here c → c.run ≠ .unbound → c.run ≠ .idle → ¬(c.run = .stopped ∧ c.issued = false) →
      coreOf c.id = coreOf s.cur.id ∨ ∃ d ∈ s.others, at_ d ∧ coreOf d.id = coreOf c.id
    ((myModule s).rev < 3 → exec (.align p) s = .next (retire s)) ∧
    (3 ≤ (myModule s).rev ∧ ¬met →
      exec (.align p) s = .next (park (.align p.toNat (cyc s s.cur.id + 64)) (retire s))) ∧
    (3 ≤ (myModule s).rev ∧ met → ∃ t, exec (.align p) s = .next t ∧
      t.cur = { (retire s).cur with run := .running } ∧ t.others.length = s.others.length ∧
      ∀ (k : Nat) (c d : Ctx), s.others[k]? = some c → t.others[k]? = some d →
        (at_ c → d = { c with run := .running }) ∧ (¬at_ c → d = c)))

/-! ### Packed and complex arithmetic -/

namespace Sys2Proof.Claims

/-- Signed and unsigned lane `k` of a register, for lanes of `n` bits (R39, R116). -/
def sl (s : State) (r : Reg) (n k : Nat) : Int := ((rd s r).extractLsb' (n * k) n).toInt
def nl (s : State) (r : Reg) (n k : Nat) : Int := ((rd s r).extractLsb' (n * k) n).toNat

/-- The nearest signed or unsigned number of `n` bits (SatI and SatN of R40), and no clamp. -/
def clampS (n : Nat) (x : Int) : Int := max (-2 ^ (n - 1)) (min x (2 ^ (n - 1) - 1))
def clampN (n : Nat) (x : Int) : Int := max 0 (min x (2 ^ n - 1))
def same (x : Int) : Int := x

/-- Division by 2^k, rounding half up (RoundQ of R40). -/
def roundHalf (x : Int) (k : Nat) : Int := (2 * x + 2 ^ k) / 2 ^ (k + 1)

/-- Instruction `i` writes to G[d] lanes of `n` bits, lane k the wrapped clamp of `x k`, and sets OV exactly when
a clamp changes a lane. -/
def LaneWise (i : Instr) (s : State) (d : Reg) (n : Nat) (clamp : Int → Int) (x : Nat → Int) : Prop :=
  ∃ (v : Word64) (f : Nat), GivesF i s d v f ∧
    (∀ k, k < 64 / n → v.extractLsb' (n * k) n = BitVec.ofInt n (clamp (x k))) ∧
    (f = fOV ∧ (∃ k, k < 64 / n ∧ clamp (x k) ≠ x k) ∨ f = 0 ∧ ∀ k, k < 64 / n → clamp (x k) = x k)

/-- A sum over the lanes. -/
def sumTo (f : Nat → Int) : Nat → Int
  | 0 => 0
  | k + 1 => sumTo f k + f k

/-- Real and imaginary part of complex lane `k` (R123). -/
def re (s : State) (r : Reg) (k : Nat) : Int := sl s r 16 (2 * k)
def im (s : State) (r : Reg) (k : Nat) : Int := sl s r 16 (2 * k + 1)

/-- The parts of two complex lanes in lane order. -/
def parts (r i : Nat → Int) (k : Nat) : Int := if k % 2 = 0 then r (k / 2) else i (k / 2)

end Sys2Proof.Claims

/-- R115-R117: packed addition, subtraction, averages, minima and maxima, lane by lane. -/
def Obligations.PackedSums : Prop :=
  ∀ (d a b : Reg) (w : BitVec 2) (s : State), w.toNat < 3 →
    let n := 8 * 2 ^ w.toNat
    let x := sl s a n
    let y := sl s b n
    let p := nl s a n
    let q := nl s b n
    LaneWise (.padd d a b w) s d n same (fun k => x k + y k) ∧
    LaneWise (.psub d a b w) s d n same (fun k => x k - y k) ∧
    LaneWise (.padds d a b w) s d n (clampS n) (fun k => x k + y k) ∧
    LaneWise (.psubs d a b w) s d n (clampS n) (fun k => x k - y k) ∧
    LaneWise (.paddns d a b w) s d n (clampN n) (fun k => p k + q k) ∧
    LaneWise (.psubns d a b w) s d n (clampN n) (fun k => p k - q k) ∧
    LaneWise (.pavg d a b w) s d n same (fun k => (x k + y k + 1) / 2) ∧
    LaneWise (.pmin d a b w) s d n same (fun k => min (x k) (y k)) ∧
    LaneWise (.pmax d a b w) s d n same (fun k => max (x k) (y k)) ∧
    LaneWise (.pminn d a b w) s d n same (fun k => min (p k) (q k)) ∧
    LaneWise (.pmaxn d a b w) s d n same (fun k => max (p k) (q k)) ∧
    LaneWise (.pabs d a w) s d n (clampS n) (fun k => |x k|) ∧
    LaneWise (.pneg d a w) s d n (clampS n) (fun k => -x k) ∧
    (∃ v, Gives (.psum d a w) s d v ∧ v = wrap64 (sumTo x (64 / n))) ∧
    (∃ v, Gives (.psumn d a w) s d v ∧ v = wrap64 (sumTo p (64 / n)))

/-- R117, R119-R121: packed comparisons, shifts and multiplies, lane by lane, and the dot products. -/
def Obligations.PackedProducts : Prop :=
  ∀ (d a b : Reg) (w : BitVec 2) (i : BitVec 5) (s : State), w.toNat < 3 →
    let n := 8 * 2 ^ w.toNat
    let x := sl s a n
    let y := sl s b n
    let p := nl s a n
    let q := nl s b n
    let sh := fun k => (q k % n).toNat
    LaneWise (.pcmpeq d a b w) s d n same (fun k => if p k = q k then -1 else 0) ∧
    LaneWise (.pcmplt d a b w) s d n same (fun k => if x k < y k then -1 else 0) ∧
    LaneWise (.pcmpltn d a b w) s d n same (fun k => if p k < q k then -1 else 0) ∧
    LaneWise (.psllv d a b w) s d n same (fun k => p k * 2 ^ sh k) ∧
    LaneWise (.psrlv d a b w) s d n same (fun k => p k / 2 ^ sh k) ∧
    LaneWise (.psrav d a b w) s d n same (fun k => x k / 2 ^ sh k) ∧
    LaneWise (.pmul d a b w) s d n same (fun k => x k * y k) ∧
    LaneWise (.pmulh d a b w) s d n same (fun k => x k * y k / 2 ^ n) ∧
    LaneWise (.pmulhn d a b w) s d n same (fun k => p k * q k / 2 ^ n) ∧
    LaneWise (.pmulq d a b w) s d n (clampS n) (fun k => roundHalf (x k * y k) (n - 1)) ∧
    (i.toNat < n →
      LaneWise (.pslli d a w i) s d n same (fun k => p k * 2 ^ i.toNat) ∧
      LaneWise (.psrli d a w i) s d n same (fun k => p k / 2 ^ i.toNat) ∧
      LaneWise (.psrai d a w i) s d n same (fun k => x k / 2 ^ i.toNat) ∧
      LaneWise (.psrari d a w i) s d n same (fun k => roundHalf (x k) i.toNat)) ∧
    (∀ t, t = xs s d + sumTo (fun k => x k * y k) (64 / n) →
      GivesF (.pdot d a b w) s d (wrap64 t) (if clampS 64 t = t then 0 else fOV)) ∧
    (∀ t, t = xn s d + sumTo (fun k => p k * q k) (64 / n) →
      GivesF (.pdotn d a b w) s d (wrap64 t) (if clampN 64 t = t then 0 else fOV))

/-- R121, R122: packing, unpacking and moving lanes. -/
def Obligations.LaneMoves : Prop :=
  ∀ (d a b : Reg) (w : BitVec 2) (i : BitVec 5) (s : State), w.toNat < 3 →
    let n := 8 * 2 ^ w.toNat
    let h := n / 2
    let l := 64 / n
    let both := fun (f : Reg → Nat → Int) (k : Nat) => if k < l then f a k else f b (k - l)
    (1 ≤ w.toNat →
      LaneWise (.ppacks d a b w) s d h (clampS h) (both (fun r k => sl s r n k)) ∧
      LaneWise (.ppackns d a b w) s d h (clampN h) (both (fun r k => sl s r n k)) ∧
      LaneWise (.ppack d a b w) s d h same (both (fun r k => nl s r n k)) ∧
      LaneWise (.punpkl d a w) s d n same (fun k => sl s a h k) ∧
      LaneWise (.punpkh d a w) s d n same (fun k => sl s a h (l + k)) ∧
      LaneWise (.punpkln d a w) s d n same (fun k => nl s a h k) ∧
      LaneWise (.punpkhn d a w) s d n same (fun k => nl s a h (l + k))) ∧
    (i.toNat < l →
      LaneWise (.pbcast d a w i) s d n same (fun _ => nl s a n i.toNat) ∧
      LaneWise (.pins d a w i) s d n same (fun k => if k = i.toNat then nl s a n 0 else nl s d n k) ∧
      Gives (.pext d a w i) s d (wrap64 (nl s a n i.toNat))) ∧
    LaneWise (.pshuf d a b) s d 8 same (fun k =>
      if 128 ≤ nl s b 8 k then 0 else nl s a 8 (nl s b 8 k % 8).toNat) ∧
    (∃ v, Gives (.psel d a b) s d v ∧ ∀ k, k < 64 →
      v.getLsbD k = if (rd s d).getLsbD k then (rd s a).getLsbD k else (rd s b).getLsbD k)

/-- R123-R125: complex arithmetic on two lanes of Q15 parts, and the CQ31 accumulators. -/
def Obligations.Complex : Prop :=
  ∀ (d a b : Reg) (s : State),
    let x := re s a
    let xi := im s a
    let y := re s b
    let yi := im s b
    let q := fun (f : Nat → Int) (k : Nat) => roundHalf (f k) 15
    let rr := fun k => x k * y k - xi k * yi k
    let ri := fun k => x k * yi k + xi k * y k
    let jr := fun k => x k * y k + xi k * yi k
    let ji := fun k => xi k * y k - x k * yi k
    let half := fun (f : Nat → Int) (k : Nat) => roundHalf (f k) 1
    LaneWise (.cadd d a b) s d 16 (clampS 16) (parts (fun k => x k + y k) (fun k => xi k + yi k)) ∧
    LaneWise (.csub d a b) s d 16 (clampS 16) (parts (fun k => x k - y k) (fun k => xi k - yi k)) ∧
    LaneWise (.caddh d a b) s d 16 (clampS 16) (parts (half fun k => x k + y k) (half fun k => xi k + yi k)) ∧
    LaneWise (.csubh d a b) s d 16 (clampS 16) (parts (half fun k => x k - y k) (half fun k => xi k - yi k)) ∧
    LaneWise (.cmul d a b) s d 16 (clampS 16) (parts (q rr) (q ri)) ∧
    LaneWise (.cmulj d a b) s d 16 (clampS 16) (parts (q jr) (q ji)) ∧
    LaneWise (.cj d a) s d 16 (clampS 16) (parts x (fun k => -xi k)) ∧
    LaneWise (.cmj d a) s d 16 (clampS 16) (parts (fun k => -xi k) x) ∧
    LaneWise (.cnorm d a) s d 32 (clampS 32) (fun k => 2 * (x k * x k + xi k * xi k)) ∧
    LaneWise (.cdot d a b) s d 32 (clampS 32)
      (fun k => sl s d 32 k + 2 * if k = 0 then rr 0 + rr 1 else ri 0 + ri 1) ∧
    LaneWise (.cdotj d a b) s d 32 (clampS 32)
      (fun k => sl s d 32 k + 2 * if k = 0 then jr 0 + jr 1 else ji 0 + ji 1) ∧
    (let pr := y 0 * x 1 - yi 0 * xi 1
     let pi := y 0 * xi 1 + yi 0 * x 1
     LaneWise (.cbfly d a b) s d 16 (clampS 16)
       (parts (fun k => roundHalf (x 0 * 2 ^ 15 + if k = 0 then pr else -pr) 16)
         (fun k => roundHalf (xi 0 * 2 ^ 15 + if k = 0 then pi else -pi) 16))) ∧
    LaneWise (.cscl d a b) s d 16 (clampS 16) (parts (q fun k => x k * y 0) (q fun k => xi k * y 0)) ∧
    LaneWise (.crnd d a b) s d 16 (clampS 16)
      (fun k => roundHalf (if k < 2 then sl s a 32 k else sl s b 32 (k - 2)) 16)

/-! ### Floating point -/

namespace Sys2Proof.Claims

/-- The F32 pattern of a register, and one of its F32 or BF16 lanes. -/
def fr (s : State) (r : Reg) : Nat := xn s r % 2 ^ 32
def fLane (s : State) (r : Reg) (k : Nat) : Nat := xn s r / 2 ^ (32 * k) % 2 ^ 32
def bLane (s : State) (r : Reg) (k : Nat) : Nat := xn s r / 2 ^ (16 * k) % 2 ^ 16

/-- Fields of an F32 pattern (R42), and the kinds of values (R44). -/
def fexp (x : Nat) : Nat := x / 2 ^ 23 % 256
def frac (x : Nat) : Nat := x % 2 ^ 23
abbrev fneg (x : Nat) : Prop := x / 2 ^ 31 % 2 = 1
def fin (x : Nat) : Prop := fexp x ≠ 255
def isNan (x : Nat) : Prop := fexp x = 255 ∧ frac x ≠ 0
def isSig (x : Nat) : Prop := isNan x ∧ frac x < 2 ^ 22
def isInf (x : Nat) : Prop := fexp x = 255 ∧ frac x = 0
def isZero (x : Nat) : Prop := fexp x = 0 ∧ frac x = 0

/-- The value of a finite F32 pattern (R42). -/
noncomputable def fval (x : Nat) : ℝ :=
  (if x / 2 ^ 31 % 2 = 1 then -1 else 1) *
    (if fexp x = 0 then (frac x : ℝ) * (2 : ℝ) ^ (-149 : Int)
      else (2 ^ 23 + (frac x : ℝ)) * (2 : ℝ) ^ ((fexp x : Int) - 150))

/-- The rounding mode of a field: 0 to 3, or TMR.frm for 7 (R126). -/
def modeOf (s : State) (r : BitVec 3) : Nat := if r.toNat = 7 then s.cur.a.sr.tmr.toNat % 4 else r.toNat

/-- `r` is the value that an IEEE rounding direction selects for the exact result `q` (R43): 0 nearest, ties to
even, 1 toward zero, 2 down, 3 up. -/
def Rounded (mode : Nat) (q : ℝ) (r : Nat) : Prop :=
  match mode with
  | 0 => ∀ z, z < 2 ^ 32 → fin z → |fval r - q| < |fval z - q| ∨
      (|fval r - q| = |fval z - q| ∧ (fval z = fval r ∨ r % 2 = 0))
  | 1 => |fval r| ≤ |q| ∧ 0 ≤ fval r * q ∧ ∀ z, z < 2 ^ 32 → fin z → |fval z| ≤ |q| → |fval z| ≤ |fval r|
  | 2 => fval r ≤ q ∧ ∀ z, z < 2 ^ 32 → fin z → fval z ≤ q → fval z ≤ fval r
  | _ => q ≤ fval r ∧ ∀ z, z < 2 ^ 32 → fin z → q ≤ fval z → fval r ≤ fval z

/-- Instruction `i` writes an F32 pattern to G[d]; one that is finite is the exact result `q` rounded, with NX exactly
when it differs from `q`, and it is finite at least up to the greatest finite magnitude. -/
def RoundsTo (i : Instr) (s : State) (d : Reg) (mode : Nat) (q : ℝ) : Prop :=
  ∃ v f, GivesF i s d (nat64 v) f ∧ v < 2 ^ 32 ∧ (|q| ≤ (2 ^ 24 - 1) * 2 ^ 104 → fin v) ∧
    (fin v → Rounded mode q v ∧ (f / 32 % 2 = 1 ↔ fval v ≠ q))

/-- The integer that a rounding direction selects (R47, R131). -/
def RoundedInt (mode : Nat) (q : ℝ) (k : Int) : Prop :=
  match mode with
  | 0 => |k - q| < 1 / 2 ∨ (|k - q| = 1 / 2 ∧ k % 2 = 0)
  | 1 => |(k : ℝ)| ≤ |q| ∧ |q| < |(k : ℝ)| + 1 ∧ 0 ≤ k * q
  | 2 => k ≤ q ∧ q < k + 1
  | _ => q ≤ k ∧ k < q + 1

/-- Instruction `i` converts the F32 value `x`, scaled by 2^scale, to an integer between `lo` and `hi` of `n` bits:
what it writes is `w` of that integer, and out of range the nearest bound, or the wrapped integer (R47). -/
def ConvertsTo (i : Instr) (s : State) (d : Reg) (mode : Nat) (x scale : Nat) (lo hi : Int) (sat : Prop)
    (w : Int → Word64) : Prop :=
  (isNan x → GivesF i s d 0 fNV) ∧
  (isInf x ∧ sat → GivesF i s d (w (if x / 2 ^ 31 % 2 = 1 then lo else hi)) fNV) ∧
  (isInf x ∧ ¬sat → GivesF i s d 0 fNV) ∧
  (fin x → ∃ k : Int, RoundedInt mode (fval x * 2 ^ scale) k ∧
    (lo ≤ k ∧ k ≤ hi → ∃ f, GivesF i s d (w k) f ∧ (f = 0 ∧ k = fval x * 2 ^ scale ∨ f = fNX ∧ k ≠ fval x * 2 ^ scale)) ∧
    (k < lo ∧ sat → GivesF i s d (w lo) fOV) ∧ (hi < k ∧ sat → GivesF i s d (w hi) fOV) ∧
    (¬(lo ≤ k ∧ k ≤ hi) ∧ ¬sat → GivesF i s d (w k) fNV))

/-- The patterns of zero and infinity with a sign. -/
def signedPat (m : Nat) (neg : Prop) [Decidable neg] : Nat := m + if neg then 2 ^ 31 else 0

end Sys2Proof.Claims

/-- R43, R127, R131, R132: sums, products, quotients, roots and fused forms of finite values are the exact result,
rounded once. -/
def Obligations.FloatRounding : Prop :=
  ∀ (d a b c : Reg) (r : BitVec 3) (s : State), r.toNat ≤ 3 ∨ r.toNat = 7 →
    let x := fr s a
    let y := fr s b
    let z := fr s c
    let m := modeOf s r
    let m7 := modeOf s 7
    (fin x ∧ fin y →
      RoundsTo (.fadd d a b r) s d m (fval x + fval y) ∧
      RoundsTo (.fsub d a b r) s d m (fval x - fval y) ∧
      RoundsTo (.fmul d a b r) s d m (fval x * fval y)) ∧
    (fin x ∧ fin y ∧ ¬isZero y → RoundsTo (.fdiv d a b r) s d m (fval x / fval y)) ∧
    (fin x ∧ (isZero x ∨ ¬fneg x) → RoundsTo (.fsqrt d a r) s d m (Real.sqrt (fval x))) ∧
    (fin x ∧ fin y ∧ fin z →
      RoundsTo (.fma d a b c) s d m7 (fval x * fval y + fval z) ∧
      RoundsTo (.fms d a b c) s d m7 (fval x * fval y - fval z) ∧
      RoundsTo (.fnma d a b c) s d m7 (-(fval x * fval y) - fval z) ∧
      RoundsTo (.fnms d a b c) s d m7 (-(fval x * fval y) + fval z)) ∧
    (fin x → ∃ v f k, GivesF (.frnd d a r) s d (nat64 v) f ∧ v < 2 ^ 32 ∧ fin v ∧ (fneg v ↔ fneg x) ∧
      RoundedInt m (fval x) k ∧ fval v = k ∧ (f = 0 ∧ fval v = fval x ∨ f = fNX ∧ fval v ≠ fval x)) ∧
    (isInf x → GivesF (.frnd d a r) s d (nat64 x) 0)

/-- R133-R136: the packed forms apply the scalar ones lane by lane and OR their flags; PBFDOT of finite lanes rounds
once; PTOP2 keeps the two lanes of the greatest magnitude. -/
def Obligations.FloatLanes : Prop :=
  ∀ (d a b c : Reg) (s : State),
    let m := modeOf s 7
    let two := fun (g : Nat → Nat × Nat) => nat64 ((g 0).1 + 2 ^ 32 * (g 1).1)
    let x := fLane s a
    let y := fLane s b
    let z := fLane s c
    let each := fun (i : Instr) (g : Nat → Nat × Nat) => GivesF i s d (two g) ((g 0).2 ||| (g 1).2)
    let bf := fun (r : Reg) (k : Nat) => bLane s r k * 2 ^ 16
    let down := fun (k : Nat) => toBf16 m (if k < 2 then x k else y (k - 2))
    each (.pfma d a b c) (fun k => ffma m false false (x k) (y k) (z k)) ∧
    each (.pfadd d a b) (fun k => fadd m (x k) (y k)) ∧
    each (.pfsub d a b) (fun k => fsub m (x k) (y k)) ∧
    each (.pfmul d a b) (fun k => fmul m (x k) (y k)) ∧
    each (.pfmin d a b) (fun k => fminmax false (x k) (y k)) ∧
    each (.pfmax d a b) (fun k => fminmax true (x k) (y k)) ∧
    GivesF (.pbfpack d a b) s d
      (nat64 ((down 0).1 + 2 ^ 16 * (down 1).1 + 2 ^ 32 * (down 2).1 + 2 ^ 48 * (down 3).1))
      ((down 0).2 ||| (down 1).2 ||| (down 2).2 ||| (down 3).2) ∧
    each (.pbfunpl d a) (fun k => ofBf16 (bLane s a k)) ∧
    each (.pbfunph d a) (fun k => ofBf16 (bLane s a (k + 2))) ∧
    ((∀ k < 4, fin (bf a k) ∧ fin (bf b k)) ∧ fin (fr s c) →
      RoundsTo (.pbfdot d a b c) s d m (fval (fr s c) + fval (bf a 0) * fval (bf b 0) + fval (bf a 1) * fval (bf b 1) +
        fval (bf a 2) * fval (bf b 2) + fval (bf a 3) * fval (bf b 3))) ∧
    ((∀ k < 4, fin (bf a k)) → ∃ j k, j < k ∧ k < 4 ∧
      GivesF (.ptop2 d a) s d (nat64 (bLane s a j + bLane s a k * 2 ^ 16 + (2 ^ j + 2 ^ k) * 2 ^ 32)) 0 ∧
      ∀ n < 4, n ≠ j → n ≠ k → ∀ h, (h = j ∨ h = k) →
        |fval (bf a n)| < |fval (bf a h)| ∨ |fval (bf a n)| = |fval (bf a h)| ∧ h < n)

/-- R46, R47, R137, R138: conversions between F32 and the integer, fixed and BF16 types. -/
def Obligations.Conversions : Prop :=
  ∀ (d a : Reg) (r : BitVec 3) (s : State), r.toNat ≤ 3 ∨ r.toNat = 7 →
    let x := fr s a
    let m := modeOf s r
    let sat := s.cur.a.sr.tmr.toNat / 4 % 2 = 1
    RoundsTo (.fcvtF32I32 d a r) s d m (ws s a) ∧ RoundsTo (.fcvtF32N32 d a r) s d m (wn s a) ∧
    RoundsTo (.fcvtF32I64 d a r) s d m (xs s a) ∧ RoundsTo (.fcvtF32N64 d a r) s d m (xn s a) ∧
    RoundsTo (.fcvtF32Q15 d a r) s d m (sl s a 16 0 / 2 ^ 15) ∧ RoundsTo (.fcvtF32Q31 d a r) s d m (ws s a / 2 ^ 31) ∧
    ConvertsTo (.fcvtI32F32 d a r) s d m x 0 (-2 ^ 31) (2 ^ 31 - 1) sat sx32 ∧
    ConvertsTo (.fcvtN32F32 d a r) s d m x 0 0 (2 ^ 32 - 1) sat (fun k => (BitVec.ofInt 32 k).setWidth 64) ∧
    ConvertsTo (.fcvtI64F32 d a r) s d m x 0 (-2 ^ 63) (2 ^ 63 - 1) sat wrap64 ∧
    ConvertsTo (.fcvtN64F32 d a r) s d m x 0 0 (2 ^ 64 - 1) sat wrap64 ∧
    ConvertsTo (.fcvtQ15F32 d a r) s d m x 15 (-2 ^ 15) (2 ^ 15 - 1) True wrap64 ∧
    ConvertsTo (.fcvtQ31F32 d a r) s d m x 31 (-2 ^ 31) (2 ^ 31 - 1) True wrap64 ∧
    (fin x → ∃ v f, GivesF (.fcvtBf16F32 d a r) s d (nat64 v) f ∧ v < 2 ^ 16 ∧
      (|fval x| ≤ 255 * 2 ^ 120 → fin (v * 2 ^ 16) ∧ (f / 32 % 2 = 1 ↔ fval (v * 2 ^ 16) ≠ fval x) ∧
        ∀ w, w < 2 ^ 16 → fin (w * 2 ^ 16) →
          (m = 0 → |fval (v * 2 ^ 16) - fval x| ≤ |fval (w * 2 ^ 16) - fval x|) ∧
          (m = 2 → fval (v * 2 ^ 16) ≤ fval x ∧ (fval (w * 2 ^ 16) ≤ fval x → fval (w * 2 ^ 16) ≤ fval (v * 2 ^ 16))) ∧
          (m = 3 → fval x ≤ fval (v * 2 ^ 16) ∧ (fval x ≤ fval (w * 2 ^ 16) → fval (v * 2 ^ 16) ≤ fval (w * 2 ^ 16))))) ∧
    (isNan x → GivesF (.fcvtBf16F32 d a r) s d 0x7FC0 (if x % 2 ^ 23 < 2 ^ 22 then fNV else 0)) ∧
    (¬isNan (bLane s a 0 * 2 ^ 16) → GivesF (.fcvtF32Bf16 d a r) s d (nat64 (bLane s a 0 * 2 ^ 16)) 0) ∧
    (isNan (bLane s a 0 * 2 ^ 16) →
      GivesF (.fcvtF32Bf16 d a r) s d 0x7FC00000 (if bLane s a 0 % 2 ^ 7 < 2 ^ 6 then fNV else 0))

/-- R126-R131: special values, comparison and classification. -/
def Obligations.FloatSpecials : Prop :=
  -- R43-R45, R127: NaNs and invalid operations give the canonical NaN, division by zero an infinity; the sign of an
  -- exact zero sum.
  (∀ (d a b c : Reg) (r : BitVec 3) (s : State),
    let x := fr s a
    let y := fr s b
    let z := fr s c
    (∀ i, i ∈ [Instr.fadd d a b r, .fsub d a b r, .fmul d a b r, .fdiv d a b r] →
      (isSig x ∨ isSig y → GivesF i s d 0x7FC00000 fNV) ∧
      ((isNan x ∨ isNan y) ∧ ¬isSig x ∧ ¬isSig y → GivesF i s d 0x7FC00000 0)) ∧
    (∀ i, i ∈ [Instr.fsqrt d a r, .frnd d a r] →
      (isSig x → GivesF i s d 0x7FC00000 fNV) ∧ (isNan x ∧ ¬isSig x → GivesF i s d 0x7FC00000 0)) ∧
    (∀ i, i ∈ [Instr.fma d a b c, .fms d a b c, .fnma d a b c, .fnms d a b c] →
      (isSig x ∨ isSig y ∨ isSig z ∨ isInf x ∧ isZero y ∨ isZero x ∧ isInf y → GivesF i s d 0x7FC00000 fNV) ∧
      ((isNan x ∨ isNan y ∨ isNan z) ∧ ¬(isSig x ∨ isSig y ∨ isSig z ∨ isInf x ∧ isZero y ∨ isZero x ∧ isInf y) →
        GivesF i s d 0x7FC00000 0)) ∧
    (isInf x ∧ isInf y →
      GivesF (.fadd d a b r) s d (nat64 (if fneg x ↔ fneg y then x else 0x7FC00000)) (if fneg x ↔ fneg y then 0 else fNV) ∧
      GivesF (.fsub d a b r) s d (nat64 (if fneg x ↔ fneg y then 0x7FC00000 else x)) (if fneg x ↔ fneg y then fNV else 0) ∧
      GivesF (.fdiv d a b r) s d 0x7FC00000 fNV) ∧
    (isInf x ∧ fin y → GivesF (.fadd d a b r) s d (nat64 x) 0 ∧ GivesF (.fsub d a b r) s d (nat64 x) 0 ∧
      GivesF (.fdiv d a b r) s d (nat64 (signedPat 0x7F800000 (fneg x ↔ ¬fneg y))) 0 ∧
      (¬isZero y → GivesF (.fmul d a b r) s d (nat64 (signedPat 0x7F800000 (fneg x ↔ ¬fneg y))) 0) ∧
      (isZero y → GivesF (.fmul d a b r) s d 0x7FC00000 fNV)) ∧
    (fin x ∧ isInf y → GivesF (.fdiv d a b r) s d (nat64 (signedPat 0 (fneg x ↔ ¬fneg y))) 0) ∧
    (isZero x ∧ isZero y → GivesF (.fdiv d a b r) s d 0x7FC00000 fNV) ∧
    (fin x ∧ ¬isZero x ∧ isZero y →
      GivesF (.fdiv d a b r) s d (nat64 (signedPat 0x7F800000 (fneg x ↔ ¬fneg y))) fDZ) ∧
    (fneg x ∧ ¬isNan x ∧ ¬isZero x → GivesF (.fsqrt d a r) s d 0x7FC00000 fNV) ∧
    (isZero x ∨ isInf x ∧ ¬fneg x → GivesF (.fsqrt d a r) s d (nat64 x) 0) ∧
    (fin x ∧ fin y ∧ fval x + fval y = 0 → GivesF (.fadd d a b r) s d
      (nat64 (signedPat 0 (fneg x ∧ fneg y ∨ ¬(fneg x ↔ fneg y) ∧ modeOf s r = 2))) 0)) ∧
  -- R128-R130: selection, signs, comparisons and classes.
  (∀ (d a b : Reg) (s : State),
    let x := fr s a
    let y := fr s b
    let flip := fun (p : Prop) (_ : Decidable p) => nat64 (signedPat (x % 2 ^ 31) p)
    (isSig x ∨ isSig y → GivesF (.fmin d a b) s d 0x7FC00000 fNV ∧ GivesF (.fmax d a b) s d 0x7FC00000 fNV) ∧
    (isNan x ∧ isNan y ∧ ¬isSig x ∧ ¬isSig y →
      GivesF (.fmin d a b) s d 0x7FC00000 0 ∧ GivesF (.fmax d a b) s d 0x7FC00000 0) ∧
    (isNan x ∧ ¬isSig x ∧ ¬isNan y → GivesF (.fmin d a b) s d (nat64 y) 0 ∧ GivesF (.fmax d a b) s d (nat64 y) 0) ∧
    (isNan y ∧ ¬isSig y ∧ ¬isNan x → GivesF (.fmin d a b) s d (nat64 x) 0 ∧ GivesF (.fmax d a b) s d (nat64 x) 0) ∧
    (fin x ∧ fin y ∧ (fval x < fval y ∨ isZero x ∧ isZero y ∧ fneg x ∧ ¬fneg y) →
      GivesF (.fmin d a b) s d (nat64 x) 0 ∧ GivesF (.fmax d a b) s d (nat64 y) 0 ∧
      GivesF (.fmin d b a) s d (nat64 x) 0 ∧ GivesF (.fmax d b a) s d (nat64 y) 0) ∧
    (isNan x → GivesF (.fabs d a) s d 0x7FC00000 0 ∧ GivesF (.fneg d a) s d 0x7FC00000 0 ∧
      GivesF (.fsgnj d a b) s d 0x7FC00000 0) ∧
    (¬isNan x → GivesF (.fabs d a) s d (flip False inferInstance) 0 ∧
      GivesF (.fneg d a) s d (flip (x < 2 ^ 31) inferInstance) 0 ∧
      GivesF (.fsgnj d a b) s d (flip (2 ^ 31 ≤ y) inferInstance) 0) ∧
    (isNan x ∨ isNan y → (∃ f, GivesF (.fcmpeq d a b) s d 0 f ∧ (f = fNV ∧ (isSig x ∨ isSig y) ∨ f = 0 ∧ ¬(isSig x ∨ isSig y))) ∧
      GivesF (.fcmplt d a b) s d 0 fNV ∧ GivesF (.fcmple d a b) s d 0 fNV) ∧
    (fin x ∧ fin y → ∃ e l m : Word64, GivesF (.fcmpeq d a b) s d e 0 ∧ GivesF (.fcmplt d a b) s d l 0 ∧
      GivesF (.fcmple d a b) s d m 0 ∧ (e = 1 ∧ fval x = fval y ∨ e = 0 ∧ fval x ≠ fval y) ∧
      (l = 1 ∧ fval x < fval y ∨ l = 0 ∧ ¬fval x < fval y) ∧ (m = 1 ∧ fval x ≤ fval y ∨ m = 0 ∧ ¬fval x ≤ fval y)) ∧
    (∃ k, GivesF (.fclass d a) s d (nat64 (k + 8 * (x / 2 ^ 31) + 16 * fexp x)) 0 ∧
      (k = 0 ∧ isZero x ∨ k = 1 ∧ fexp x = 0 ∧ frac x ≠ 0 ∨ k = 2 ∧ fin x ∧ fexp x ≠ 0 ∨ k = 3 ∧ isInf x ∨
        k = 4 ∧ isNan x ∧ ¬isSig x ∨ k = 5 ∧ isSig x)))

/-! ### Memory instructions -/

namespace Sys2Proof.Claims

/-- The effective address of a format M member (R148): `p` is G[a] moved by the scaled displacement. -/
def Eff (s : State) (a : Reg) (x : BitVec 10) (scale : Nat) (p : Word64) : Prop :=
  let o : Int := (xn s a % 2 ^ 54 : Nat) + immS s 10 x.toNat * scale
  0 ≤ o ∧ o < 2 ^ 54 ∧ p = nat64 (xn s a / 2 ^ 54 * 2 ^ 54 + o.toNat)

/-- Checks 1 to 6 of R28 hold of `n` bytes at a pointer to the space `sp`, as far as its handle says. -/
def Admits (s : State) (p : Word64) (n al : Nat) (need : Need) (sp : Nat) : Prop :=
  let e := entryOf s p
  e.valid = true ∧ p.toNat % 2 ^ 54 + n ≤ e.length ∧ need.ok e = true ∧ e.space = sp ∧ p.toNat % 2 ^ 54 % al = 0 ∧
  (e.lease = true → leasedIn (myLaunch s).leased (p.toNat / 2 ^ 54) (p.toNat % 2 ^ 54) n = true)

/-- They hold, and no page table bars the access (R385). -/
def Passes (s : State) (p : Word64) (n al : Nat) (need : Need) (sp : Nat) : Prop :=
  Admits s p n al need sp ∧ pageBars s (myCluster s) s.cur.bind.asid (entryOf s p) p n need = false

/-- The pointer passes the checks in LOCAL, and its page has a frame: the byte it names is at `key` (R246). -/
def Local (s : State) (p : Word64) (n al : Nat) (need : Need) (key : Nat) : Prop :=
  Passes s p n al need 0 ∧
  localKey s (myCluster s) s.cur.bind.area ((entryOf s p).base + p.toNat % 2 ^ 54) = some key

/-- The core has no store in its buffer, and the context has no release outstanding (R142, R144); the memories have
their canonical form. -/
def Idle (s : State) : Prop := Canon s ∧ (myCore s).sbuf = [] ∧ ∀ r ∈ s.homes.reqs, r.ctx ≠ s.cur.id

/-- No word that the bytes touch is poisoned (R247). -/
def Clean (s : State) (key n : Nat) : Prop := ∀ w ∈ s.mem.poison, w + 8 ≤ key ∨ key + n ≤ w

/-- A STREAM hint is used up (R64). -/
def used (s : State) : State := { s with cur := { s.cur with stream := none } }

/-- A memory instruction completes without a flag, and with one. -/
def finish (s : State) : State := used (retire s)

/-- What a load of a format leaves in the register, and its flags (R55). -/
def ldVal (f raw : Nat) : Word64 × Nat :=
  if f = 7 then (nat64 (ofBf16 raw).1, (ofBf16 raw).2)
  else if f = 9 then (nat64 (ofFixed ((BitVec.ofNat 16 raw).toInt) 15 0).1, 0)
  else if f = 1 ∨ f = 10 then ((BitVec.ofNat 8 raw).signExtend 64, 0)
  else if f = 3 ∨ f = 11 then ((BitVec.ofNat 16 raw).signExtend 64, 0)
  else if f = 5 ∨ f = 12 then ((BitVec.ofNat 32 raw).signExtend 64, 0)
  else (nat64 raw, 0)

/-- The size of a format (R55). -/
def fmtBytes (f : Nat) : Nat :=
  [1, 1, 2, 2, 4, 4, 8, 2, 4, 2, 1, 2, 4, 1, 2].getD f 8

/-- What a store of a format writes, for the formats that only truncate (R55), or clamp. -/
def stVal (s : State) (f : Nat) (v : Word64) : Nat × Nat :=
  let c := fun (x : Int) (lo hi : Int) (n : Nat) =>
    (((max lo (min x hi)) % 2 ^ n).toNat, if lo ≤ x ∧ x ≤ hi then 0 else fOV)
  if f = 7 then toBf16 (modeOf s 7) (v.toNat % 2 ^ 32)
  else if f = 9 then
    (((toFixed (f32 v.toNat) 15 16 false true (modeOf s 7)).1 % 2 ^ 16).toNat, (toFixed (f32 v.toNat) 15 16 false true (modeOf s 7)).2)
  else if f = 10 then c v.toInt (-2 ^ 7) (2 ^ 7 - 1) 8
  else if f = 11 then c v.toInt (-2 ^ 15) (2 ^ 15 - 1) 16
  else if f = 12 then c v.toInt (-2 ^ 31) (2 ^ 31 - 1) 32
  else if f = 13 then c v.toInt 0 (2 ^ 8 - 1) 8
  else if f = 14 then c v.toInt 0 (2 ^ 16 - 1) 16
  else (v.toNat % 2 ^ (8 * fmtBytes f), 0)

/-- `t` is `s` with the `n` bytes at `key` of L1 holding `v`, and every other byte of memory, every other context and
every core as before; the issuing context is `c`. -/
def Stored (s t : State) (key n v : Nat) (c : Ctx) : Prop :=
  t.cur = c ∧ t.mem.l1.readN key n = v % 2 ^ (8 * n) ∧
  (∀ a, a < key ∨ key + n ≤ a → t.mem.l1.read a = s.mem.l1.read a) ∧
  t.mem.hbm = s.mem.hbm ∧ t.mem.host = s.mem.host ∧ t.others = s.others ∧ t.cores = s.cores ∧ t.homes = s.homes

/-- The pair of registers of a number (R150). -/
def pairOf (s : State) (d : BitVec 4) : Nat := xn s (d ++ 0#1) + 2 ^ 64 * xn s (d ++ 1#1)
def setPair (d : BitVec 4) (v : Nat) (s : State) : State :=
  wr (d ++ 1#1) (nat64 (v / 2 ^ 64)) (wr (d ++ 0#1) (nat64 v) s)

/-- Words of a burst into registers, from the first on. -/
def burst (key : Nat → Nat) (d : Reg) : Nat → State → State
  | 0, s => s
  | k + 1, s => wr (d + BitVec.ofNat 5 k) (nat64 (s.mem.l1.readN (key k) 8)) (burst key d k s)

/-- The keys of the words of a burst. -/
def BurstKeys (s : State) (p : Word64) (count : Nat) (key : Nat → Nat) : Prop :=
  ∀ k, k < count →
    localKey s (myCluster s) s.cur.bind.area ((entryOf s p).base + p.toNat % 2 ^ 54 + 8 * k) = some (key k)

/-- What an access of an instruction is checked for: pointer, size, alignment, permission and space. -/
def access (s : State) : Instr → Option (Word64 × Nat × Nat × Need × Where)
  | .amoadd _ a _ _ w | .amoand _ a _ _ w | .amoor _ a _ _ w | .amoxor _ a _ _ w | .amomin _ a _ _ w
  | .amomax _ a _ _ w | .amominn _ a _ _ w | .amomaxn _ a _ _ w | .amoswp _ a _ _ w | .cas _ a _ _ w =>
    some (rd s a, if w = 1 then 4 else 8, if w = 1 then 4 else 8, .rw, .localGlobal)
  | .cas2 _ a _ _ => some (rd s a, 16, 16, .rw, .localGlobal)
  | .cwb a b | .cinv a b => some (rd s a, (rd s b).toNat, 1, .r, .global)
  | .monw _ a _ => some (rd s a, 8, 8, .r, .localGlobal)
  | .chb d _ => if rd s d = 0 then none else some (rd s d, 32, 32, .rw, .local)
  | .kinit a _ | .karr a _ => some (rd s a, 16, 16, .rw, .local)
  | .kwait _ a _ | .ktest _ a => some (rd s a, 16, 16, .r, .local)
  | .ksel a => if rd s a = 0 then none else some (rd s a, 16, 16, .rw, .local)
  | .mbmap a => some (rd s a, 8, 8, .r, .local)
  | .join a => some (rd s a, 8, 8, .r, .localGlobal)
  | .launch _ a _ => some (rd s a, 64, 64, .r, .localGlobal)
  | _ => none

/-- The same for the members with a displacement: register, displacement, scale, and the check. -/
def accessM : Instr → Option (Reg × BitVec 10 × Nat × Nat × Nat × Need × Where)
  | .ld _ a f x => some (a, x, fmtBytes f.toNat, fmtBytes f.toNat, fmtBytes f.toNat, .r, .any)
  | .st _ a f x => some (a, x, fmtBytes f.toNat, fmtBytes f.toNat, fmtBytes f.toNat, .w, .any)
  | .ldacq _ a f x => some (a, x, fmtBytes f.toNat, fmtBytes f.toNat, fmtBytes f.toNat, .r, .localGlobal)
  | .strel _ a f x => some (a, x, fmtBytes f.toNat, fmtBytes f.toNat, fmtBytes f.toNat, .w, .localGlobal)
  | .ldp _ a x => some (a, x, 16, 16, 16, .r, .any)
  | .stp _ a x => some (a, x, 16, 16, 16, .w, .any)
  | .ldb _ a n x => some (a, x, 8, 8 * (n.toNat + 1), 8, .r, .local)
  | .stb _ a n x => some (a, x, 8, 8 * (n.toNat + 1), 8, .w, .local)
  | .lde _ a x => some (a, x, 8, 8, 8, .r, .local)
  | .ldc _ a x => some (a, x, 8, 8, 8, .rw, .local)
  | .stf _ a x | .sto _ a x => some (a, x, 8, 8, 8, .w, .local)
  | .sete a x | .setf a x => some (a, x, 8, 8, 8, .w, .local)
  | .feq _ a x => some (a, x, 8, 8, 8, .r, .local)
  | _ => none

/-- The fault of a pointer that is not aligned: SPACE for a knot (R189), else ALIGN. -/
def misaligned : Instr → Cause
  | .kinit _ _ | .karr _ _ | .kwait _ _ _ | .ktest _ _ | .ksel _ => .space
  | _ => .align

/-- The first check of R28 that fails for an access gives its fault. -/
def FirstFault (s : State) (i : Instr) (p : Word64) (n al : Nat) (need : Need) (wh : Where) : Prop :=
  let e := entryOf s p
  let b := e.valid = true ∧ p.toNat % 2 ^ 54 + n ≤ e.length
  let leased := leasedIn (myLaunch s).leased (p.toNat / 2 ^ 54) (p.toNat % 2 ^ 54) n
  let may := need.ok e = true ∧ pageBars s (myCluster s) s.cur.bind.asid e p n need = false
  (¬b → Raises i s .bounds p) ∧
  (b ∧ ¬may → Raises i s .perm p) ∧
  (b ∧ may ∧ wh.ok e.space = false → Raises i s .space p) ∧
  (b ∧ may ∧ wh.ok e.space = true ∧ p.toNat % 2 ^ 54 % al ≠ 0 → Raises i s (misaligned i) p) ∧
  (b ∧ may ∧ wh.ok e.space = true ∧ p.toNat % 2 ^ 54 % al = 0 ∧ e.lease = true ∧ leased = false →
    Raises i s .notres p)

/-- The displacement and the scale of a member keep the offset below 2^54 (R148). -/
def effOk (s : State) (a : Reg) (x : BitVec 10) (scale : Nat) : Prop :=
  0 ≤ (xn s a % 2 ^ 54 : Nat) + immS s 10 x.toNat * scale ∧ (xn s a % 2 ^ 54 : Nat) + immS s 10 x.toNat * scale < 2 ^ 54

end Sys2Proof.Claims

/-- R28, R148, R189, R385: every access is checked in one order, the first check that fails gives the fault, with the object
pointer as its value, and nothing else changes. -/
def Obligations.AccessChecks : Prop :=
  (∀ (i : Instr) (s : State) (p : Word64) (n al : Nat) (need : Need) (wh : Where),
    access s i = some (p, n, al, need, wh) → FirstFault s i p n al need wh) ∧
  (∀ (i : Instr) (s : State) (a : Reg) (x : BitVec 10) (sc n al : Nat) (need : Need) (wh : Where) (p : Word64),
    i.wf = true → accessM i = some (a, x, sc, n, al, need, wh) →
      (Eff s a x sc p → FirstFault s i p n al need wh) ∧ (¬effOk s a x sc → Raises i s .bounds (rd s a)))

/-- R144, R149-R151, R250: a plain store of LOCAL enters the empty store buffer; a release is performed at its bank, and so is
the first word of a burst, whose other words reserve one cycle each, in order; no other byte changes.  That a burst is not
delayed as a store in the buffer is the model's choice (log entry 102). -/
def Obligations.LocalStores : Prop :=
  ∀ (d a : Reg) (e : BitVec 4) (f : BitVec 4) (x : BitVec 10) (p : Word64) (key : Nat) (s : State), Idle s →
    let n := fmtBytes f.toNat
    let v := stVal s f.toNat (rd s d)
    let entry := fun (n v : Nat) => ({ ctx := s.cur.id, isGlobal := false, asid := 0, addr := key, size := n, data := v, policy := 0 } : SBEntry)
    (f.toNat < 15 ∧ Eff s a x n p ∧ Local s p n n .w key →
      exec (.st d a f x) s = .next (finish (addFlags v.2 (putCore { myCore s with sbuf := [entry n v.1] } s))) ∧
      ∃ t, exec (.strel d a f x) s = .next t ∧ Stored s t key n v.1 (finish (addFlags v.2 s)).cur) ∧
    (Eff s a x 16 p ∧ Local s p 16 16 .w key →
      exec (.stp e a x) s = .next (finish (putCore { myCore s with sbuf := [entry 16 (pairOf s e)] } s))) ∧
    (∀ (m : BitVec 3) (ks : Nat → Nat), Eff s a x 8 p ∧ Passes s p (8 * (m.toNat + 1)) 8 .w 0 ∧
      BurstKeys s p (m.toNat + 1) ks ∧ d.toNat + m.toNat < 32 ∧
      (∀ k j, k < j → j ≤ m.toNat → ks k + 8 ≤ ks j ∨ ks j + 8 ≤ ks k) →
      ∃ t, exec (.stb d a m x) s = .next t ∧ t.cur = { (finish s).cur with burst := (if m = 0 then s.cur.burst else
          some { pc := groupPc s, ptr := p, g := s.cur.a.g, due := (List.range m.toNat).map (fun k => ks (k + 1)) }) } ∧
        t.mem.l1.readN (ks 0) 8 = xn s d ∧ (∀ y, y < ks 0 ∨ ks 0 + 8 ≤ y → t.mem.l1.read y = s.mem.l1.read y) ∧
        ∀ k, 1 ≤ k → k ≤ m.toNat → { due := bankCyc s (bankOf s (ks 0)) + k, key := ks k
                                     hold := .store s.cur.id (rd s (d + BitVec.ofNat 5 k)) } ∈ (bankAt t (bankOf s (ks k))).reserved)

/-- R153, R154: the full/empty members, each one bank operation where its condition holds; where it does not hold the
context parks on the word, with its registers as they were. Each one but STO meets a poisoned word with POISON (R247).
That STO, SETE, SETF and FEQ are performed at once is the model's choice (log entry 102). -/
def Obligations.FullEmpty : Prop :=
  ∀ (d a : Reg) (x : BitVec 10) (p : Word64) (key : Nat) (s : State), Idle s → Eff s a x 8 p →
    let full := key ∉ s.mem.empty
    let raw := nat64 (s.mem.l1.readN key 8)
    let bad := key / 8 * 8 ∈ s.mem.poison
    let frame := fun (t : State) => t.mem.l1 = s.mem.l1 ∧ t.mem.hbm = s.mem.hbm ∧ t.others = s.others ∧
      (∀ w, w ≠ key → (w ∈ t.mem.empty ↔ w ∈ s.mem.empty))
    let parks := fun (i : Instr) => ∃ t, exec i s = .next t ∧ t.cur = { s.cur with run := .parked (.bank key) } ∧ t.mem = s.mem
    (Local s p 8 8 .r key ∧ Clean s key 8 →
      (full → exec (.lde d a x) s = .next (finish (wr d raw s))) ∧ (¬full → parks (.lde d a x)) ∧
      exec (.feq d a x) s = .next (finish (wr d (one full) s))) ∧
    (Local s p 8 8 .r key ∧ bad → Raises (.lde d a x) s .poison p ∧ Raises (.feq d a x) s .poison p) ∧
    (Local s p 8 8 .rw key ∧ Clean s key 8 →
      (full → ∃ t, exec (.ldc d a x) s = .next t ∧ t.cur = (finish (wr d raw s)).cur ∧ frame t ∧ key ∈ t.mem.empty) ∧
      (¬full → parks (.ldc d a x))) ∧
    (Local s p 8 8 .rw key ∧ bad → Raises (.ldc d a x) s .poison p) ∧
    (Local s p 8 8 .w key →
      ∃ t, exec (.sto d a x) s = .next t ∧ t.cur = (finish s).cur ∧ key ∉ t.mem.empty ∧
        t.mem.l1.readN key 8 = xn s d ∧ ∀ y, y < key ∨ key + 8 ≤ y → t.mem.l1.read y = s.mem.l1.read y) ∧
    (Local s p 8 8 .w key ∧ Clean s key 8 →
      (full → parks (.stf d a x)) ∧
      (¬full → ∃ t, exec (.stf d a x) s = .next t ∧ t.cur = (finish s).cur ∧ key ∉ t.mem.empty ∧
        t.mem.l1.readN key 8 = xn s d ∧ ∀ y, y < key ∨ key + 8 ≤ y → t.mem.l1.read y = s.mem.l1.read y) ∧
      (∃ t, exec (.sete a x) s = .next t ∧ t.cur = (finish s).cur ∧ frame t ∧ key ∈ t.mem.empty) ∧
      (∃ t, exec (.setf a x) s = .next t ∧ t.cur = (finish s).cur ∧ frame t ∧ key ∉ t.mem.empty)) ∧
    (Local s p 8 8 .w key ∧ bad →
      Raises (.stf d a x) s .poison p ∧ Raises (.sete a x) s .poison p ∧ Raises (.setf a x) s .poison p)

/-- R155, R157: atomics on LOCAL read the old value, write f of it, and leave the old value in the register; a CAS
writes only where the old value is the expected one.  That an atomic of no ordering class is performed at once is the
model's choice (log entry 102). -/
def Obligations.LocalAtomics : Prop :=
  ∀ (d a b : Reg) (e g : BitVec 4) (o : BitVec 2) (w : BitVec 1) (key : Nat) (s : State), Idle s →
    let n := if w = 1 then 4 else 8
    let k := 8 * n
    let old := s.mem.l1.readN key n
    let v := xn s b % 2 ^ k
    let so := (BitVec.ofNat k old).toInt
    let sv := (BitVec.ofNat k v).toInt
    let does := fun (i : Instr) (new : Nat) (r : Word64) => ∃ t, exec i s = .next t ∧ Stored s t key n new (finish (wr d r s)).cur
    (Local s (rd s a) n n .rw key ∧ Clean s key n →
      does (.amoadd d a b o w) (old + v) (wrap64 so) ∧
      does (.amoand d a b o w) (old &&& v) (wrap64 so) ∧
      does (.amoor d a b o w) (old ||| v) (wrap64 so) ∧
      does (.amoxor d a b o w) (old ^^^ v) (wrap64 so) ∧
      does (.amomin d a b o w) (if so ≤ sv then old else v) (wrap64 so) ∧
      does (.amomax d a b o w) (if sv ≤ so then old else v) (wrap64 so) ∧
      does (.amominn d a b o w) (min old v) (if n = 4 then nat64 old else wrap64 so) ∧
      does (.amomaxn d a b o w) (max old v) (if n = 4 then nat64 old else wrap64 so) ∧
      does (.amoswp d a b o w) v (wrap64 so) ∧
      (old = xn s d % 2 ^ k → does (.cas d a b o w) v (wrap64 so)) ∧
      (old ≠ xn s d % 2 ^ k → exec (.cas d a b o w) s = .next (finish (wr d (wrap64 so) s)))) ∧
    (Local s (rd s a) 16 16 .rw key ∧ Clean s key 16 →
      let was := s.mem.l1.readN key 16
      (was = pairOf s e → ∃ t, exec (.cas2 e a g o) s = .next t ∧
        Stored s t key 16 (pairOf s g) (finish (setPair e was s)).cur) ∧
      (was ≠ pairOf s e → exec (.cas2 e a g o) s = .next (finish (setPair e was s))))

/-- R143, R144, R148-R151: loads of LOCAL, from the bank or from the store buffer; a store that finds it full waits.  That
a load reads at its own step, and perhaps once more later, is the model's reading (log entry 14). -/
def Obligations.LocalLoads : Prop :=
  -- R55, R149-R151: a load of LOCAL reads the bytes of its banks, converts them and writes the register; a pair and a
  -- burst write their registers in order.
  (∀ (d a : Reg) (e : BitVec 4) (f : BitVec 4) (m : BitVec 3) (x : BitVec 10) (p : Word64) (key : Nat) (ks : Nat → Nat)
    (s : State), Idle s →
    let n := fmtBytes f.toNat
    let raw := s.mem.l1.readN key n
    let v := ldVal f.toNat raw
    let count := m.toNat + 1
    (f.toNat < 15 ∧ Eff s a x n p ∧ Local s p n n .r key ∧ Clean s key n →
      exec (.ld d a f x) s = .next (finish (addFlags v.2 (wr d v.1 s))) ∧
      exec (.ldacq d a f x) s = .next (finish (addFlags v.2 (wr d v.1 s)))) ∧
    (Eff s a x 16 p ∧ Local s p 16 16 .r key ∧ Clean s key 16 →
      exec (.ldp e a x) s = .next (finish (setPair e (s.mem.l1.readN key 16) s))) ∧
    (Eff s a x 8 p ∧ Passes s p (8 * count) 8 .r 0 ∧ BurstKeys s p count ks ∧ (∀ k, k < count → Clean s (ks k) 8) ∧
      d.toNat + count ≤ 32 →
      exec (.ldb d a m x) s = .next (finish (burst ks d count s)))) ∧
  -- R143, R144: a load whose bytes the context's one buffered store covers takes them from it, and no memory changes.
  (∀ (d a : Reg) (f : BitVec 4) (x : BitVec 10) (p : Word64) (key : Nat) (y : SBEntry) (s : State),
    let n := fmtBytes f.toNat
    f.toNat < 15 → Eff s a x n p → Local s p n n .r key → (myCore s).sbuf = [y] → y.ctx = s.cur.id →
    y.isGlobal = false → y.addr ≤ key → key + n ≤ y.addr + y.size →
      let v := ldVal f.toNat (y.data / 2 ^ (8 * (key - y.addr)) % 2 ^ (8 * n))
      exec (.ld d a f x) s = .next (finish (addFlags v.2 (wr d v.1 s)))) ∧
  -- R144: a store that finds its core's store buffer full waits, with nothing changed.
  (∀ (d a : Reg) (e f : BitVec 4) (x : BitVec 10) (p : Word64) (key : Nat) (s : State), 16 ≤ (myCore s).sbuf.length →
    (f.toNat < 15 ∧ Eff s a x (fmtBytes f.toNat) p ∧ Local s p (fmtBytes f.toNat) (fmtBytes f.toNat) .w key →
      exec (.st d a f x) s = .next (park (.buffer true false 0 key (fmtBytes f.toNat)) s)) ∧
    (Eff s a x 16 p ∧ Local s p 16 16 .w key → exec (.stp e a x) s = .next (park (.buffer true false 0 key 16) s)))

namespace Sys2Proof.Claims

/-- A GLOBAL address of the issuing context: its virtual address (R26, R384). -/
def gva (s : State) (p : Word64) : Nat := ((entryOf s p).base + p.toNat % 2 ^ 54) % 2 ^ 57

/-- The cluster TLB holds an entry for the address that leads to a coherent HBM address of no host-biased or flipping
page, whose home's die does not relock, and the cluster holds no copy of the line. -/
def HbmAt (s : State) (p : Word64) (e : TlbEntry) (key : Nat) : Prop :=
  tlbFind s.cur.bind.asid (gva s p) (clusterAt s (myCluster s)).tlb = some e ∧ homeKey s e (gva s p) = key ∧ key < 2 ^ 60 ∧
  inHostBias s key = false ∧ flipping s key = false ∧ relocking s (placeOf s key).1 = false ∧
  lineOf (clusterAt s (myCluster s)) s.cur.bind.asid (gva s p) = none

/-- No hand-off of the context waits for its drain (R219). -/
def Settled (s : State) : Prop := Idle s ∧ s.cur.handoff = []

/-- The bytes of a range of a line, from the words of the cache frame that hold it (R257). -/
def copyBytes (s : State) (c : Nat) (l : Line) (va n : Nat) : Nat :=
  ((lineData s c l).extractLsb' (8 * (va % 128)) (8 * n)).toNat

/-- The lines of a cluster, in the order of their addresses, without repeats. -/
def Sorted (s : State) (c : Nat) : Prop := ((clusterAt s c).lines.map Line.key).Pairwise (· < ·)

end Sys2Proof.Claims

/-- R140, R147, R149, R218: plain accesses of GLOBAL: a copy of the line that may be used gives its bytes under every
policy, POISON where one of them is poisoned; a store enters the store buffer; without a copy, under UC both go to the
home. A page that does not admit the access, as one of code does not (R350), gives PERM. An IO store is held until the
step commits; once the step cannot roll back, the context's IO stores are sent in program order (R145).  That an IO
load gives a free value (log entry 5), a UC load a usable copy (log entry 84), and a store to a mapped page without W
PERM even where the line is cached (log entry 93) are the model's readings. -/
def Obligations.GlobalAccesses : Prop :=
  ∀ (d a : Reg) (f : BitVec 4) (x : BitVec 10) (p : Word64) (s : State), Settled s → myCluster s ∉ s.homes.dead →
    let n := fmtBytes f.toNat
    let va := gva s p
    let c := clusterAt s (myCluster s)
    let policy := s.cur.stream.getD (entryOf s p).policy
    let got := fun (raw : Nat) => (finish (addFlags (ldVal f.toNat raw).2 (wr d (ldVal f.toNat raw).1 s))).cur
    let v := stVal s f.toNat (rd s d)
    let put := (finish (addFlags v.2 s)).cur
    let mine := (myLaunch s).held.filter (fun y => y.ctx == s.cur.id)
    f.toNat < 15 → Eff s a x n p →
    (∀ l, Passes s p n n .r 1 ∧ lineOf c s.cur.bind.asid va = some l ∧ l.home + va % 128 < 2 ^ 61 ∧
        ((∀ k, k < n → l.mask.getLsbD (va % 128 + k) = true) ∨
          l.present = true ∧ tagValid c.v l.v s.cur.floor = true) →
      (Clean s (lineKey s (myCluster s) l + va % 128) n → ∃ t, exec (.ld d a f x) s = .next t ∧
        t.cur = got (copyBytes s (myCluster s) l va n) ∧ t.mem = s.mem ∧ t.homes = s.homes) ∧
      ((lineKey s (myCluster s) l + va % 128) / 8 * 8 ∈ s.mem.poison → Raises (.ld d a f x) s .poison p)) ∧
    (∀ e key, Passes s p n n .r 1 ∧ HbmAt s p e key ∧ pteR e.pte = true ∧ onCode s key = false ∧ policy = 2 →
      (key / 128 * 128 ∉ s.homes.poison → ∃ t, exec (.ld d a f x) s = .next t ∧ t.cur = got (s.mem.hbm.readN key n) ∧
        t.mem = s.mem ∧ t.homes = s.homes) ∧
      (key / 128 * 128 ∈ s.homes.poison → Raises (.ld d a f x) s .poison p)) ∧
    (∀ e key, Passes s p n n .w 1 ∧ HbmAt s p e key ∧ pteW e.pte = true ∧ onCode s key = false ∧ policy ≠ 2 →
      ∃ t, exec (.st d a f x) s = .next t ∧ t.cur = put ∧ t.mem = s.mem ∧ (myCore t).sbuf =
        [{ ctx := s.cur.id, isGlobal := true, asid := s.cur.bind.asid, addr := va, size := n, data := v.1, policy := policy, home := key }]) ∧
    (∀ e key, Passes s p n n .w 1 ∧ HbmAt s p e key ∧ pteW e.pte = true ∧ onCode s key = false ∧ policy = 2 →
      ∃ t, exec (.st d a f x) s = .next t ∧ t.cur = put ∧ t.mem.hbm.readN key n = v.1 % 2 ^ (8 * n) ∧
        t.mem.l1 = s.mem.l1 ∧ ∀ y, y < key ∨ key + n ≤ y → t.mem.hbm.read y = s.mem.hbm.read y) ∧
    (∀ e key, HbmAt s p e key →
      (Admits s p n n .r 1 ∧ (pteR e.pte = false ∨ onCode s key = true) → Raises (.ld d a f x) s .perm p) ∧
      (Admits s p n n .w 1 ∧ (pteW e.pte = false ∨ onCode s key = true) → Raises (.st d a f x) s .perm p)) ∧
    (Passes s p n n .w 2 →
      let io : IoStore := { ctx := s.cur.id, addr := (entryOf s p).base + p.toNat % 2 ^ 54, size := n, data := v.1 }
      ∃ t, exec (.st d a f x) s = .next t ∧ t.cur = put ∧ t.mem = s.mem ∧
        ((myLaunch s).nonRollback = true → t.host.ioSent = io :: (mine.reverse ++ s.host.ioSent)) ∧
        ((myLaunch s).nonRollback = false → (myLaunch t).held = (myLaunch s).held ++ [io] ∧ t.host = s.host)) ∧
    (Passes s p n n .r 2 → ∃ t raw, exec (.ld d a f x) s = .next t ∧ raw < 2 ^ (8 * n) ∧ t.cur = got raw ∧ t.mem = s.mem ∧
      (mine = [] → t.host = s.host) ∧
      (mine ≠ [] → t.host.ioSent = mine.reverse ++ s.host.ioSent ∧ (myLaunch t).nonRollback = true))

/-- R141, R142, R149, R155, R157, R162, R197: a synchronisation access of GLOBAL is posted to the home of its line with
its ordering class; all but a release store park until the home answers. -/
def Obligations.HomePosts : Prop :=
  ∀ (d a b : Reg) (e g f : BitVec 4) (x : BitVec 10) (o : BitVec 2) (w : BitVec 1) (p : Word64) (t : TlbEntry)
    (key : Nat) (s : State), Settled s → myCluster s ∉ s.homes.dead → HbmAt s p t key → pteR t.pte = true → pteW t.pte = true → onCode s key = false →
    let n := if w = 1 then 4 else 8
    let v := xn s b % 2 ^ (8 * n)
    let posted := fun (u : State) (r : HomeReq) => u.mem = s.mem ∧ u.homes.reqs = s.homes.reqs ++
      [{ r with ctx := s.cur.id, ptr := p, asid := s.cur.bind.asid, va := gva s p, pa := key
                slice := (placeOf s key).1, set := (placeOf s key).2 }]
    let req := fun (n : Nat) (op : HomeOp) (acq rel : Bool) =>
      ({ ctx := 0, ptr := 0, asid := 0, va := 0, size := n, op := op, acq := acq, rel := rel } : HomeReq)
    let posts := fun (i : Instr) (r : HomeReq) => ∃ u, exec i s = .next u ∧
      u.cur = { s.cur with run := .parked .home } ∧ posted u r
    let acq := o.getLsbD 0
    let rel := o.getLsbD 1
    let m := fmtBytes f.toNat
    (f.toNat < 15 ∧ Eff s a x m p ∧ Passes s p m m .r 1 → posts (.ldacq d a f x) (req m (.load d f.toNat) true false)) ∧
    (f.toNat < 15 ∧ Eff s a x m p ∧ Passes s p m m .w 1 →
      ∃ u, exec (.strel d a f x) s = .next u ∧ u.cur = (finish (addFlags (stVal s f.toNat (rd s d)).2 s)).cur ∧
        posted u (req m (.store (stVal s f.toNat (rd s d)).1) false true)) ∧
    (p = rd s a ∧ Passes s p n n .rw 1 →
      posts (.amoadd d a b o w) (req n (.rmw 0 v d) acq rel) ∧ posts (.amoand d a b o w) (req n (.rmw 1 v d) acq rel) ∧
      posts (.amoor d a b o w) (req n (.rmw 2 v d) acq rel) ∧ posts (.amoxor d a b o w) (req n (.rmw 3 v d) acq rel) ∧
      posts (.amomin d a b o w) (req n (.rmw 4 v d) acq rel) ∧ posts (.amomax d a b o w) (req n (.rmw 5 v d) acq rel) ∧
      posts (.amominn d a b o w) (req n (.rmw 6 v d) acq rel) ∧ posts (.amomaxn d a b o w) (req n (.rmw 7 v d) acq rel) ∧
      posts (.amoswp d a b o w) (req n (.rmw 8 v d) acq rel) ∧
      posts (.cas d a b o w) (req n (.cas (xn s d % 2 ^ (8 * n)) v d) acq rel)) ∧
    (p = rd s a ∧ Passes s p 16 16 .rw 1 →
      posts (.cas2 e a g o) (req 16 (.cas2 (pairOf s e) (pairOf s g) (e ++ 0#1)) acq rel)) ∧
    (p = rd s a ∧ Passes s p 8 8 .r 1 → posts (.join a) (req 8 .join true false) ∧
      posts (.monw d a b) (req 8 (.monw d (rd s d) (if xn s b = 0 then none else some (cyc s s.cur.id + xn s b))) true false))

/-- R246, R247, R384: a LOCAL page without a frame gives L1PAGE, a poisoned word read POISON, a GLOBAL page without a
mapping NOTRES; the object pointer is the fault value. -/
def Obligations.PlaceFaults : Prop :=
  ∀ (d a b : Reg) (f : BitVec 4) (x : BitVec 10) (o : BitVec 2) (w : BitVec 1) (p : Word64) (s : State), Settled s →
    let n := fmtBytes f.toNat
    let m := if w = 1 then 4 else 8
    let noFrame := localKey s (myCluster s) s.cur.bind.area ((entryOf s p).base + p.toNat % 2 ^ 54) = none
    let noPage := (translate (myCluster s) s.cur.bind.asid (gva s p) s).1 = none ∧
      lineOf (clusterAt s (myCluster s)) s.cur.bind.asid (gva s p) = none
    let poisoned := fun (key : Nat) => key / 8 * 8 ∈ s.mem.poison
    (f.toNat < 15 ∧ Eff s a x n p →
      (Passes s p n n .r 0 ∧ noFrame → Raises (.ld d a f x) s .l1page p ∧ Raises (.ldacq d a f x) s .l1page p) ∧
      (Passes s p n n .w 0 ∧ noFrame → Raises (.st d a f x) s .l1page p ∧ Raises (.strel d a f x) s .l1page p) ∧
      (∀ key, Local s p n n .r key ∧ poisoned key → Raises (.ld d a f x) s .poison p ∧ Raises (.ldacq d a f x) s .poison p) ∧
      (Passes s p n n .r 1 ∧ noPage → Raises (.ld d a f x) s .notres p ∧ Raises (.ldacq d a f x) s .notres p) ∧
      (Passes s p n n .w 1 ∧ noPage → Raises (.st d a f x) s .notres p ∧ Raises (.strel d a f x) s .notres p)) ∧
    (p = rd s a → ∀ i, i ∈ [Instr.amoadd d a b o w, .amoand d a b o w, .amoor d a b o w, .amoxor d a b o w, .amomin d a b o w,
        .amomax d a b o w, .amominn d a b o w, .amomaxn d a b o w, .amoswp d a b o w, .cas d a b o w] →
      (Passes s p m m .rw 0 ∧ noFrame → Raises i s .l1page p) ∧
      (∀ key, Local s p m m .rw key ∧ poisoned key → Raises i s .poison p) ∧
      (Passes s p m m .rw 1 ∧ noPage → Raises i s .notres p))

/-- R159-R163: fences, cache ranges, PREF and MONW. -/
def Obligations.FencesAndRanges : Prop :=
  ∀ (d a b : Reg) (s : State),
    let c := clusterAt s (myCluster s)
    let e := entryOf s (rd s a)
    let va := gva s (rd s a)
    let inRange := fun (l : Line) => l.asid = s.cur.bind.asid ∧ l.va < va + xn s b ∧ va < l.va + 128
    ((∀ r ∈ s.homes.reqs, r.ctx ≠ s.cur.id) ∧ (∀ y ∈ (myCore s).sbuf, stuckStore s y = false) ∧
        storesClash s (drainList s s.cur.id (fun _ => true)) = false →
      ∃ t, exec .fence s = .next t ∧ t.cur = (retire s).cur ∧ ∀ y ∈ (myCore t).sbuf, y.ctx ≠ s.cur.id) ∧
    ((∃ r ∈ s.homes.reqs, r.ctx = s.cur.id) → exec .fence s = .next (park .releases s) ∧
      exec .fenceSys s = .next (park .releases s) ∧ exec .fenceEng s = .next (park .releases s)) ∧
    (Idle s ∧ (∀ l ∈ c.lines, l.asid = s.cur.bind.asid → l.mask = 0) ∧ c.age < 8 ∧ s.cur.ports = [] →
      ∃ t, exec .fenceSys s = .next t ∧ t.mem = s.mem ∧ (clusterAt t (myCluster s)).v = c.v + 1 ∧
        t.cur = { (retire s).cur with floor := c.v + 1 }) ∧
    (Idle s ∧ (∀ y ∈ (myCore s).mq, y.ctx ≠ s.cur.id) ∧ (∀ y ∈ (myCore s).cq, y.ctx ≠ s.cur.id) ∧ s.cur.a.efault = none →
      ∃ t, exec .fenceEng s = .next t ∧ t.cur.a.eflags = [] ∧ t.cur.a.pc = s.cur.a.pc + 4 ∧
        t.cur.a.sr.afl = s.cur.a.sr.afl ||| nat64 (orFlags (s.cur.a.eflags.map (·.flags))) ∧
        t.cur.a.g = s.cur.a.g ∧ t.mem = s.mem) ∧
    (Settled s ∧ Passes s (rd s a) (xn s b) 1 .r 1 ∧ Sorted s (myCluster s) ∧ myCluster s ∉ s.homes.dead →
      (∃ t, exec (.cwb a b) s = .next t ∧ t.cur = (finish s).cur ∧
        (xn s b ≠ 0 → ∀ l ∈ (clusterAt t (myCluster s)).lines, inRange l → l.mask = 0)) ∧
      (∃ t, exec (.cinv a b) s = .next t ∧ t.cur = (finish s).cur ∧
        (xn s b ≠ 0 → ∀ l ∈ (clusterAt t (myCluster s)).lines, ¬inRange l))) ∧
    (∃ t, exec (.pref a) s = .next t ∧ t.cur = (finish s).cur ∧ t.mem = s.mem ∧ t.homes = s.homes ∧
      (e.valid = false ∨ e.space ≠ 1 → t = finish s)) ∧
    (∀ key, Idle s ∧ Local s (rd s a) 8 8 .r key ∧ Clean s key 8 →
      let v := nat64 (s.mem.l1.readN key 8)
      (v ≠ rd s d → exec (.monw d a b) s = .next (finish (wr d v s))) ∧
      (v = rd s d → ∃ t, exec (.monw d a b) s = .next t ∧ t.mem = s.mem ∧
        t.cur = { s.cur with run := .parked (.bank key) }))

/-- R32, R33, R165-R167: the channel members, by the queue control word that the handle is bound to. -/
def Obligations.Channels : Prop :=
  ∀ (d : Reg) (c f : BitVec 4) (n : BitVec 9) (i : BitVec 8) (s : State), Idle s →
    let bound := s.cur.a.c[c.toNat]'c.isLt
    let size := fmtBytes f.toNat
    let setC := fun (v : Option Word64) => { s with cur := { s.cur with a := { s.cur.a with c := s.cur.a.c.set c.toNat v c.isLt } } }
    (rd s d = 0 → exec (.chb d c) s = .next (retire (setC none))) ∧
    (rd s d ≠ 0 ∧ Passes s (rd s d) 32 32 .rw 0 → exec (.chb d c) s = .next (retire (setC (some (rd s d))))) ∧
    (bound = none → ∀ j, j ∈ [Instr.chld d c f n, .chst d c f n, .chadvp c n, .chadvc c n, .chwaitp c n, .chwaitc c n,
      .chcnt d c, .chptrHd d c i, .chptrTl d c i] → Raises j s .chan (nat64 c.toNat)) ∧
    (∀ q key, bound = some q → Local s q 32 32 .rw key → Clean s key 32 → (myLaunch s).carved = [] →
      let m := s.mem.l1
      let head := m.readN key 4
      let tail := m.readN (key + 4) 4
      let base := nat64 (m.readN (key + 8) 8)
      let depth := m.readN (key + 16) 2
      let bytes := m.readN (key + 18) 1 * 8
      let eng := (m.readN (key + 19) 1).testBit 7
      let wrap := depth * (2 ^ 32 / depth)
      let filled := (head + wrap - tail) % wrap
      let free := depth - filled
      let slot := fun (k p : Nat) (q : Word64) => base.toNat % 2 ^ 54 + (k + p) % depth * bytes < 2 ^ 54 ∧
        q = nat64 (base.toNat + (k + p) % depth * bytes)
      let parks := fun (j : Instr) => ∃ t, exec j s = .next t ∧ t.mem = s.mem ∧
        t.cur = { s.cur with run := .parked (.bank key) }
      ((qcwAt m key).ok = false → Raises (.chcnt d c) s .chan q ∧ Raises (.chadvp c n) s .chan q) ∧
      ((qcwAt m key).ok = true →
        exec (.chcnt d c) s = .next (finish (wr d (nat64 filled) s)) ∧
        (n.toNat ≤ free → exec (.chwaitp c n) s = .next (finish s)) ∧
        (n.toNat ≤ filled → exec (.chwaitc c n) s = .next (finish s)) ∧
        (free < n.toNat ∧ n.toNat ≤ depth → parks (.chwaitp c n)) ∧
        (filled < n.toNat ∧ n.toNat ≤ depth → parks (.chwaitc c n)) ∧
        (depth < n.toNat → Raises (.chwaitp c n) s .chan q ∧ Raises (.chwaitc c n) s .chan q) ∧
        (eng = true ∨ free < n.toNat → Raises (.chadvp c n) s .chan q) ∧
        (filled < n.toNat → Raises (.chadvc c n) s .chan q) ∧
        (eng = false ∧ n.toNat ≤ free → ∃ t, exec (.chadvp c n) s = .next t ∧
          Stored s t key 4 ((head + n.toNat) % wrap) (finish s).cur) ∧
        (n.toNat ≤ filled → ∃ t, exec (.chadvc c n) s = .next t ∧
          Stored s t (key + 4) 4 ((tail + n.toNat) % wrap) (finish s).cur) ∧
        (i.toNat < depth → ∀ y, (slot head i.toNat y → exec (.chptrHd d c i) s = .next (finish (wr d y s))) ∧
          (slot tail i.toNat y → exec (.chptrTl d c i) s = .next (finish (wr d y s)))) ∧
        (depth ≤ i.toNat → Raises (.chptrHd d c i) s .chan q ∧ Raises (.chptrTl d c i) s .chan q) ∧
        (f.toNat < 15 → ∀ y k,
          (n.toNat < filled ∧ slot tail n.toNat y ∧ Local s y size size .r k ∧ Clean s k size →
            let v := ldVal f.toNat (m.readN k size)
            exec (.chld d c f n) s = .next (finish (addFlags v.2 (wr d v.1 s)))) ∧
          (eng = false ∧ n.toNat < free ∧ slot head n.toNat y ∧ Local s y size size .w k →
            let v := stVal s f.toNat (rd s d)
            ∃ t, exec (.chst d c f n) s = .next t ∧ Stored s t k size v.1 (finish (addFlags v.2 s)).cur) ∧
          (eng = false ∧ free ≤ n.toNat ∧ n.toNat < depth ∧ slot head n.toNat y ∧ Local s y size size .w k →
            parks (.chst d c f n)))))

/-! ### Engines and knots -/

namespace Sys2Proof.Claims

/-- The commands of the context's core that wait in the matrix (`true`) or the copy queue (R170). -/
def waiting (s : State) (matrix : Bool) : Nat :=
  ((if matrix then (myCore s).mq else (myCore s).cq).filter (fun c => !c.started)).length

/-- R170: the queue has a free entry, and KSEL is 0 or its knot passes its check. -/
def CanIssue (s : State) (matrix : Bool) : Prop :=
  waiting s matrix < 2 ∧ (s.cur.a.sr.ksel = 0 ∨ Passes s s.cur.a.sr.ksel 16 16 .rw 0)

/-- The instruction has completed with the command `c` at the end of its core's queue. -/
def issued (s : State) (matrix : Bool) (c : Cmd) : State :=
  retire (putCore (if matrix then { myCore s with mq := (myCore s).mq ++ [c] } else { myCore s with cq := (myCore s).cq ++ [c] }) s)

/-- R170: the command holds the operands and the state latched at issue, and nothing of it has begun. -/
def Latched (s : State) (c : Cmd) (i : Instr) (k : CmdKind) (gd ga gb : Word64) (desc : List Word64) : Prop :=
  let sr := s.cur.a.sr
  c.kind = k ∧ c.ctx = s.cur.id ∧ c.word = encodeWord i ∧ c.pc = groupPc s ∧ c.gd = gd ∧ c.ga = ga ∧ c.gb = gb ∧
  c.ksel = sr.ksel ∧ c.mstra = sr.mstra.toNat % 2 ^ 32 ∧ c.mstrb = sr.mstrb.toNat % 2 ^ 32 ∧ c.mbm = sr.mbm ∧
  c.frm = modeOf s 7 ∧ c.timed = sr.cpyc.getLsbD 0 ∧ c.desc = desc ∧ c.started = false ∧ c.next = 0 ∧
  (sr.ksel = 0 ∧ c.knot = none ∨ sr.ksel ≠ 0 ∧ c.knot = some ((entryOf s sr.ksel).base + sr.ksel.toNat % 2 ^ 54))

/-- The base and the count of the context's slots in the accumulator file (R171). -/
def partBase (s : State) : Nat := s.cur.a.sr.mpart.toNat % 64
def partCount (s : State) : Nat := s.cur.a.sr.mpart.toNat / 2 ^ 8 % 256

/-- The words of a descriptor at a LOCAL pointer. -/
def Desc (s : State) (p : Word64) (count : Nat) (ks : Nat → Nat) (ws : List Word64) : Prop :=
  Passes s p (8 * count) 8 .r 0 ∧ BurstKeys s p count ks ∧ (∀ k, k < count → Clean s (ks k) 8) ∧
  ws = (List.range count).map (fun k => nat64 (s.mem.l1.readN (ks k) 8))

/-- Word 0 of a knot: phase, arrived and expected count (R34). -/
def knotWord (phase arrived expected : Nat) : Nat := phase * 2 ^ 63 + arrived * 2 ^ 32 + expected

end Sys2Proof.Claims

/-- R170, R183-R187: a copy member completes with its command in the copy queue, and waits while the queue is full.  That CPY2D
waits before it reads its descriptor is the model's reading (log entry 20). -/
def Obligations.CopyIssue : Prop :=
  ∀ (d a b : Reg) (s : State),
    let x := rd s d
    let y := rd s a
    let z := rd s b
    (CanIssue s false →
      (∃ c, exec (.cpy d a b) s = .next (issued s false c) ∧ Latched s c (.cpy d a b) .cpy x y z []) ∧
      (∃ c, exec (.cpyg d a b) s = .next (issued s false c) ∧ Latched s c (.cpyg d a b) .cpyg x y z []) ∧
      (∃ c, exec (.cpys d a b) s = .next (issued s false c) ∧ Latched s c (.cpys d a b) .cpys x y z []) ∧
      (∃ c, exec (.cpyf d a b) s = .next (issued s false c) ∧ Latched s c (.cpyf d a b) .cpyf x y z []) ∧
      (∃ c, exec (.cpych d a b) s = .next (issued s false c) ∧ Latched s c (.cpych d a b) .cpych x y z []) ∧
      (∀ ks w0 w1, Idle s ∧ Desc s x 2 ks [w0, w1] →
        ∃ c, exec (.cpy2d d a b) s = .next (issued s false c) ∧ Latched s c (.cpy2d d a b) .cpy2d x y z [w0, w1])) ∧
    (2 ≤ waiting s false → ∀ i ∈ [Instr.cpy d a b, .cpyg d a b, .cpys d a b, .cpyf d a b, .cpych d a b, .cpy2d d a b],
      exec i s = .next (park (.engineQueue false) s)) ∧
    (waiting s false < 2 ∧ s.cur.a.sr.ksel ≠ 0 ∧ Passes s s.cur.a.sr.ksel 16 1 .rw 0 ∧ s.cur.a.sr.ksel.toNat % 16 ≠ 0 →
      Raises (.cpy d a b) s .space s.cur.a.sr.ksel)

/-- R34, R188-R191: knots: initialisation, selection, a contribution, the test and the wait of a phase. -/
def Obligations.Knots : Prop :=
  ∀ (d a b : Reg) (key : Nat) (s : State), Idle s →
    let w := s.mem.l1.readN key 8
    let phase := w / 2 ^ 63
    let arrived := w / 2 ^ 32 % 2 ^ 31
    let expected := w % 2 ^ 32
    let off := (entryOf s (rd s a)).base + xn s a % 2 ^ 54
    (rd s a = 0 → exec (.ksel a) s = .next (retire (modSr (fun sr => { sr with ksel := 0 }) s))) ∧
    (rd s a ≠ 0 ∧ Passes s (rd s a) 16 16 .rw 0 →
      exec (.ksel a) s = .next (retire (modSr (fun sr => { sr with ksel := rd s a }) s))) ∧
    (Local s (rd s a) 16 16 .rw key ∧ Clean s key 8 →
      (xn s b < 2 ^ 31 → ∃ t, exec (.kinit a b) s = .next t ∧ Stored s t key 8 (knotWord phase 0 (xn s b)) (retire s).cur) ∧
      (2 ^ 31 ≤ xn s b → Raises (.kinit a b) s .bounds (rd s b)) ∧
      (0 < expected → let v := arrived + wn s b
        ∃ t, exec (.karr a b) s = .next t ∧
          Stored s t key 8 (knotWord ((phase + v / expected) % 2) (v % expected % 2 ^ 31) expected) (retire s).cur) ∧
      (expected = 0 → ∃ t, exec (.karr a b) s = .next t ∧ Stored s t key 8 (knotWord (1 - phase) arrived 0) (retire s).cur)) ∧
    (Local s (rd s a) 16 16 .r key ∧ Clean s key 8 →
      Gives (.ktest d a) s d (nat64 w) ∧
      (phase ≠ xn s b % 2 ∧ s.cur.a.efault = none ∧ (∀ e ∈ s.cur.a.eflags, e.knot ≠ some off) →
        Gives (.kwait d a b) s d (nat64 w)) ∧
      (phase = xn s b % 2 ∧ s.cur.a.efault = none → ∃ t, exec (.kwait d a b) s = .next t ∧ t.mem = s.mem ∧
        t.cur = { s.cur with run := .parked (.bank key) }))

/-- R170-R172, R175, R179-R182: the MMA and the other matrix members.  That MMA, MZERO and MDRAIN test the partition before
they wait for a place in a full queue, and MSCA reads its descriptor after, is the model's choice (log entries
20, 115). -/
def Obligations.MatrixMembers : Prop :=
  -- R170, R175: an MMA member whose slots lie in the partition completes with its command in the matrix queue, waits
  -- while the queue is full, and raises ACCSLOT where its slots lie outside.
  (∀ (a b : Reg) (m : BitVec 2) (n l : BitVec 6) (sp z : BitVec 1) (s : State),
    let i8 := Instr.mmaI8 a b m n l sp z
    let i16 := Instr.mmaI16 a b m n l sp z
    let cq15 := Instr.mmaCq15 a b m n l sp z
    let dp8 := Instr.mmaDp8 a b m n l sp z
    let inside := l.toNat + 2 ^ m.toNat * n.toNat ≤ partCount s
    let x := rd s a
    let y := rd s b
    (inside ∧ CanIssue s true →
      (∃ c, exec (.mmaI8 a b m n l sp z) s = .next (issued s true c) ∧ Latched s c i8 .mmaI8 0 x y []) ∧
      (∃ c, exec (.mmaI16 a b m n l sp z) s = .next (issued s true c) ∧ Latched s c i16 .mmaI16 0 x y []) ∧
      (∃ c, exec (.mmaCq15 a b m n l sp z) s = .next (issued s true c) ∧ Latched s c cq15 .mmaCq15 0 x y []) ∧
      (∃ c, exec (.mmaDp8 a b m n l sp z) s = .next (issued s true c) ∧ Latched s c dp8 .mmaDp8 0 x y [])) ∧
    (inside ∧ 2 ≤ waiting s true → ∀ i ∈ [i8, i16, cq15, dp8], exec i s = .next (park (.engineQueue true) s)) ∧
    (¬inside → ∀ i ∈ [i8, i16, cq15, dp8], Raises i s .accslot ((encodeWord i).setWidth 64))) ∧
  -- R170, R179-R182: the matrix control members: MZERO, MDRAIN and MSCA complete with their commands queued; MSTRIDE,
  -- MBMAP and MSTAT act at once; MWAITQ completes when no command of the core waits.
  (∀ (d a b : Reg) (s : State),
    let mc := myCore s
    let shape := xn s b
    let legal := fun (m n slot : Nat) => m ≠ 3 ∧ n ≠ 0 ∧ slot + 2 ^ m * n ≤ partCount s
    let sh := legal (shape / 2 ^ 14 % 4) (shape / 2 ^ 8 % 64) (shape / 4 % 64) ∧ shape % 4 = 0 ∧ shape < 2 ^ 16
    let wrapped := ∃ x ∈ (tileAt s (tileOf s.cur.id)).slots, x.wrap = true ∧ partBase s ≤ x.id ∧ x.id < partBase s + partCount s
    (xn s a + xn s b ≤ partCount s ∧ CanIssue s true →
      ∃ c, exec (.mzero a b) s = .next (issued s true c) ∧ Latched s c (.mzero a b) .mzero 0 (rd s a) (rd s b) []) ∧
    (xn s a + xn s b ≤ partCount s ∧ 2 ≤ waiting s true → exec (.mzero a b) s = .next (park (.engineQueue true) s)) ∧
    (partCount s < xn s a + xn s b → Raises (.mzero a b) s .accslot (rd s a)) ∧
    (sh ∧ CanIssue s true →
      ∃ c, exec (.mdrain a b) s = .next (issued s true c) ∧ Latched s c (.mdrain a b) .mdrain 0 (rd s a) (rd s b) []) ∧
    (sh ∧ 2 ≤ waiting s true → exec (.mdrain a b) s = .next (park (.engineQueue true) s)) ∧
    (¬sh → Raises (.mdrain a b) s .accslot (rd s b)) ∧
    (2 ≤ waiting s true → exec (.msca a) s = .next (park (.engineQueue true) s)) ∧
    (∀ ks w0 w1 w2 w3, Idle s ∧ waiting s true < 2 ∧ Desc s (rd s a) 4 ks [w0, w1, w2, w3] →
      let w := w3.toNat
      let ok := w / 2 ^ 12 % 64 = 0 ∧ w / 2 ^ 8 % 8 < 6 ∧ legal (w / 2 ^ 30 % 4) (w / 2 ^ 24 % 64) (w / 2 ^ 18 % 64)
      (ok ∧ CanIssue s true → ∃ c, exec (.msca a) s = .next (issued s true c) ∧
        Latched s c (.msca a) .msca 0 (rd s a) 0 [w0, w1, w2, w3]) ∧
      (¬ok → Raises (.msca a) s .accslot (rd s a))) ∧
    (exec (.mstride a b) s = .next (retire (modSr (fun sr => { sr with mstra := nat64 (wn s a), mstrb := nat64 (wn s b) }) s))) ∧
    (Passes s (rd s a) 8 8 .r 0 → exec (.mbmap a) s = .next (retire (modSr (fun sr => { sr with mbm := rd s a }) s))) ∧
    (∃ busy wrap : Nat, (busy = 1 ∧ (∃ c ∈ mc.mq, c.ctx = s.cur.id) ∨ busy = 0 ∧ ¬∃ c ∈ mc.mq, c.ctx = s.cur.id) ∧
      (wrap = 1 ∧ wrapped ∨ wrap = 0 ∧ ¬wrapped) ∧
      exec (.mstat d) s =
        .next (retire (wr d (nat64 (waiting s true + 4 * busy + 8 * wrap + 256 * (mc.weight % 16))) s))) ∧
    (waiting s true = 0 → exec .mwaitq s = .next (retire s)) ∧
    (waiting s true ≠ 0 → exec .mwaitq s = .next (park .matrixQueue s)))

/-! ### Barriers, wakes, tasks and system members -/

namespace Sys2Proof.Claims

/-- The hand-off of a release of the issuing context: what it still has to drain itself, then the number of its cluster
and the epoch (R219, R269). -/
def handOff (s : State) : List (Nat × BitVec 16) := s.cur.handoff ++ [(myCluster s, (clusterAt s (myCluster s)).e)]

/-- No dirty line of the issuing cluster is so old that taking the epoch writes it back (R276). -/
def Young (s : State) : Prop :=
  ∀ l ∈ (clusterAt s (myCluster s)).lines, l.mask ≠ 0 → ((clusterAt s (myCluster s)).e + 1 - l.e).toNat < 32768

/-- No other context is parked at an ALIGN. -/
def NoAlign (s : State) : Prop := ∀ c ∈ s.others, ∀ i m, c.run ≠ .parked (.align i m)

/-- The physical unit and the phase that stand for a declared barrier number (R192). -/
def BarrierAt (s : State) (n : Nat) (u : BarUnit) : Prop :=
  n < 64 ∧ n < (myModule s).barriers.length ∧
  (clusterAt s (myCluster s)).bars.find? (fun b => b.launch == s.cur.bind.launch && b.number == n) = some u

/-- The child traveller of a spawn (R31, R194). -/
def child (s : State) (a b : Reg) (far : Bool) : Traveller :=
  nat64 (s.cur.bind.rank % 65536 * 2 ^ 48 + (if rd s b = 0 then 0 else 2 ^ 39) + (if far then 2 ^ 37 else 0) +
    s.cur.a.sr.tmr.toNat % 8 * 2 ^ 33 + xn s a % 2 ^ 32) ::
  [rd s 3, rd s 4, rd s 5, rd s 6, rd s 7, rd s 8, rd s 9, rd s 10] ++ [rd s b]

/-- One more child is counted (R195). -/
def counted (s : State) : State :=
  modSr (fun sr => { sr with spcnt := nat64 ((sr.spcnt.toNat + 1) % 65536) }) s

/-- The trap is delivered (R202): the handler bit is set, the PC goes to TVEC, and TPC, TCAUSE and TVAL are written. -/
def Delivered (i : Instr) (s : State) (c : Cause) (v : Word64) : Prop :=
  exec i s = .next { s with cur := { dropHints s.cur with a := { s.cur.a with
    pc := s.cur.a.sr.tvec, immx := [], handler := true
    sr := { s.cur.a.sr with tpc := groupPc s, tcause := nat64 c.code, tval := v } } } }

/-- A code address that a register may lead to (R18). -/
def codeAddr (s : State) (v : Word64) : Prop := v.toNat < (myModule s).codeSize ∧ v.toNat % 4 = 0

end Sys2Proof.Claims

/-- R192, R193, R219: barriers and wakes; WFW takes the hand-offs of the wakes it returns. -/
def Obligations.BarriersAndWakes : Prop :=
  ∀ (d a b : Reg) (u : BarUnit) (s : State), Idle s →
    let n := xn s a
    let sent := fun (t : State) (f : Flight) => t.disp.flight = s.disp.flight ++ [f] ∧ t.mem = s.mem
    let after := fun (k : Nat) => if k = 0 then none else some (cyc s s.cur.id + k)
    (BarrierAt s n u →
      (s.cur.a.kept = none →
        (∃ t, exec (.barw a) s = .next t ∧ sent t (.arrival (myCluster s) u.unit s.cur.id true) ∧
          t.cur = { s.cur with run := .parked (.barrier u.unit u.phase none none) }) ∧
        (∃ t, exec (.barwt d a b) s = .next t ∧ sent t (.arrival (myCluster s) u.unit s.cur.id true) ∧
          t.cur = { s.cur with run := .parked (.barrier u.unit u.phase (some d) (after (xn s b))) })) ∧
      (∀ ph x, s.cur.a.kept = some (u.unit, ph) → unitAt s (myCluster s) u.unit = some x → x.phase ≠ ph →
        ∃ t, exec (.barw a) s = .next t ∧ t.cur.a.kept = none ∧ t.cur.a.pc = s.cur.a.pc + 4 ∧ t.mem = s.mem) ∧
      (∃ t, exec (.bara a) s = .next t ∧ sent t (.arrival (myCluster s) u.unit s.cur.id false) ∧ t.cur = (retire s).cur)) ∧
    ((myModule s).barriers.length ≤ n ∨ 64 ≤ n → Raises (.barw a) s .bounds (rd s a) ∧
      Raises (.bara a) s .bounds (rd s a) ∧ Raises (.barwt d a b) s .bounds (rd s a)) ∧
    ((myLaunch s).ranks.length ≤ n → Raises (.wake a b) s .bounds (rd s a)) ∧
    (n < (myLaunch s).ranks.length →
      (rd s b = 0 → exec (.wake a b) s = .next (retire s)) ∧
      (rd s b ≠ 0 → ∃ t, exec (.wake a b) s = .next t ∧ t.cur = (retire s).cur ∧ (Young s → t.mem = s.mem) ∧
        t.disp.flight = s.disp.flight ++ [.wake s.cur.id s.cur.bind.launch n ((rd s b).setWidth 16) (handOff s)])) ∧
    (s.cur.a.wake ≠ 0 → ∃ t, exec (.wfw d) s = .next t ∧ t.cur.a.wake = 0 ∧ t.cur.a.pc = s.cur.a.pc + 4 ∧ t.mem = s.mem ∧
      t.cur.a.g = (wr d (s.cur.a.wake.setWidth 64) s).cur.a.g ∧ t.cur.wakeFrom = [] ∧
      t.cur.handoff = s.cur.handoff ++ s.cur.wakeFrom.filter (fun h => h.1 != myCluster s)) ∧
    (s.cur.a.wake = 0 → exec (.wfw d) s = .next (park .wake s)) ∧
    (∃ t, exec (.wclr a) s = .next t ∧ t.cur.a.g = s.cur.a.g ∧ t.cur.a.pc = s.cur.a.pc + 4 ∧ t.mem = s.mem ∧
      ∀ k, k < 16 → t.cur.a.wake.getLsbD k = (s.cur.a.wake.getLsbD k && !(rd s a).getLsbD k)) ∧
    Gives (.wrd d) s d (s.cur.a.wake.setWidth 64)

/-- R194, R195: spawns: the checks of the target and the rank, the two refusals by status, the increment of the join
word, and the child.  The order of the checks is the model's reading (log entry 26). -/
def Obligations.Spawns : Prop :=
  ∀ (d a b : Reg) (key : Nat) (s : State), Idle s →
    let r := xn s d % 65536
    let k := myCore s
    let count := k.deque.length + spawning s (coreOf s.cur.id)
    let oldest := match k.deque with
      | x :: _ => x.launch
      | [] => s.cur.bind.launch
    let full := 16 ≤ count ∧ 80 ≤ count + (k.dequeRing.filter (fun e => e.launch == oldest)).length
    let pushed := fun (t : State) => (myCore t).deque.getLast? =
      some { launch := s.cur.bind.launch, parent := (s.cur.id, s.cur.task), trav := child s a b false }
    let room := s.cur.a.sr.spcnt.toNat < s.cur.a.sr.splim.toNat
    let flown := fun (t : State) => t.disp.flight = s.disp.flight ++ [.trav s.cur.id
      { rank := r, launch := s.cur.bind.launch, trav := child s a b true, handoff := handOff s
        parent := some (s.cur.id, s.cur.task) }]
    ((myModule s).codeSize ≤ xn s a → Raises (.spawn d a b) s .bounds (rd s a) ∧ Raises (.spawnr d a b) s .bounds (rd s a)) ∧
    (xn s a < (myModule s).codeSize ∧ xn s a % 4 ≠ 0 →
      Raises (.spawn d a b) s .align (rd s a) ∧ Raises (.spawnr d a b) s .align (rd s a)) ∧
    (codeAddr s (rd s a) →
      (¬room → Gives (.spawn d a b) s d 1) ∧ (room ∧ full → Gives (.spawn d a b) s d 2) ∧
      (room ∧ ¬full ∧ rd s b = 0 → ∃ t, exec (.spawn d a b) s = .next t ∧ t.cur = (retire (wr d 0 (counted s))).cur ∧
        pushed t ∧ (k.deque.length < 16 → t.mem = s.mem ∧ (myCore t).dequeRing = k.dequeRing) ∧
        (16 ≤ k.deque.length → (myCore t).dequeRing.length = k.dequeRing.length + 1 ∧ (myCore t).deque.length = k.deque.length)) ∧
      (room ∧ ¬full ∧ rd s b ≠ 0 ∧ Local s (rd s b) 8 8 .rw key ∧ Clean s key 8 →
        ∃ t, exec (.spawn d a b) s = .next t ∧ t.cur = (retire (wr d 0 (counted s))).cur ∧
          pushed t ∧ (k.deque.length < 16 → t.mem.l1.readN key 8 = (s.mem.l1.readN key 8 + 1) % 2 ^ 64 ∧
            ∀ y, y < key ∨ key + 8 ≤ y → t.mem.l1.read y = s.mem.l1.read y)) ∧
      ((myLaunch s).ranks.length ≤ r → Raises (.spawnr d a b) s .bounds (rd s d)) ∧
      (r < (myLaunch s).ranks.length ∧ room ∧ rd s b = 0 → ∃ t, exec (.spawnr d a b) s = .next t ∧
        t.cur = (retire (wr d 0 (counted s))).cur ∧ flown t ∧ (Young s → t.mem = s.mem)))

/-- R196-R200: migration, JOIN, EXIT, YIELD, LAUNCH and RANKQ.  That JOIN and LAUNCH leave a STREAM hint alone is the model's
choice (log entry 107). -/
def Obligations.TaskMembers : Prop :=
  ∀ (d a b : Reg) (key : Nat) (s : State), Idle s →
    let r := xn s a
    let ranks := (myLaunch s).ranks
    let free := (∀ y ∈ (myCore s).mq, y.ctx ≠ s.cur.id) ∧ (∀ y ∈ (myCore s).cq, y.ctx ≠ s.cur.id) ∧
      s.cur.a.efault = none ∧ s.cur.a.eflags = []
    let idle := { dropHints (retire s).cur with run := .idle }
    let old := s.mem.l1.readN key 8
    (ranks.length ≤ r → Raises (.migr a) s .bounds (rd s a) ∧ Gives (.rankq d a) s d (wrap64 (-1))) ∧
    (r < ranks.length ∧ free → ∃ t trav, exec (.migr a) s = .next t ∧ t.cur = idle ∧ (Young s → t.mem = s.mem) ∧
      t.disp.flight = s.disp.flight ++ [.trav s.cur.id { rank := r, launch := s.cur.bind.launch, trav := trav, handoff := handOff s }] ∧
      travPc trav = nat64 ((s.cur.a.pc + 4).toNat % 2 ^ 32) ∧ travMig trav = true ∧ travJoin trav = s.cur.a.sr.joinp ∧
      trav.extract 1 9 = [rd s 3, rd s 4, rd s 5, rd s 6, rd s 7, rd s 8, rd s 9, rd s 10]) ∧
    (∀ e, ranks[r]? = some e → (e.transit = false → Gives (.rankq d a) s d (nat64 e.ctx)) ∧
      (e.transit = true → exec (.rankq d a) s = .next (park (.rank r) s))) ∧
    (Local s (rd s a) 8 8 .r key ∧ Clean s key 8 →
      (old = 0 → exec (.join a) s = .next (retire s)) ∧
      (old ≠ 0 → ∃ t, exec (.join a) s = .next t ∧ t.mem = s.mem ∧ t.cur = { s.cur with run := .parked (.bank key) })) ∧
    (free ∧ s.cur.a.sr.joinp = 0 → ∃ t, exec .exit s = .next t ∧ t.cur = idle ∧ t.mem = s.mem) ∧
    (free ∧ s.cur.a.sr.joinp ≠ 0 ∧ Local s s.cur.a.sr.joinp 8 8 .rw key ∧ Clean s key 8 →
      ∃ t, exec .exit s = .next t ∧ t.cur = idle ∧ (NoAlign s → Stored s t key 8 (old + 2 ^ 64 - 1) idle)) ∧
    let asked := s.cur.pre = .requested ∧ ∀ t, s.cur.deadline = some t → rtm s ≤ t
    (¬asked → Gives (.yield d) s d 0) ∧
    (asked → exec (.yield d) s = .next { retire s with
      cur := { (retire s).cur with pre := .suspending, coop := some d, deadline := none } }) ∧
    (64 ≤ xn s b ∧ Passes s (rd s a) 64 64 .r 0 → Raises (.launch d a b) s .bounds (rd s b)) ∧
    (xn s b < 64 ∧ Local s (rd s a) 64 64 .r key ∧ Clean s key 64 →
      let q := queueAt s (xn s b)
      let words := (List.range 8).map (fun k => nat64 (s.mem.l1.readN (key + 8 * k) 8))
      let answers := fun (v : Word64) (f : State → Prop) => ∃ t, exec (.launch d a b) s = .next t ∧
        t.cur = (retire (wr d v s)).cur ∧ f t
      let joins := fun (es fs : List QEntry) => ∃ e, fs = es ++ [e] ∧ e.heldBy = some (myLaunch s).id ∧ e.words = words ∧
        e.handoff = handOff s
      (tearing s (myLaunch s) = true → answers 0 (fun t => (queueAt t (xn s b)).store = q.store)) ∧
      (tearing s (myLaunch s) = false ∧ q.busy = false →
        (32 ≤ q.store.length + q.heldRec.length → answers 1 (fun t => queueAt t (xn s b) = q)) ∧
        (q.store.length + q.heldRec.length < 32 → answers 0 (fun t => joins q.store (queueAt t (xn s b)).store ∧
          ∀ e ∈ (queueAt t (xn s b)).store.getLast?, e.seq = q.nextSeq))) ∧
      (tearing s (myLaunch s) = false ∧ q.busy = true →
        answers 0 (fun t => joins q.heldRec (queueAt t (xn s b)).heldRec)))

/-- R20-R23, R171, R205, R312: SRD, SWR and SRX of every state register: which ones can be read and written, and the
bits that a write changes.  The fault value of an illegal number is the model's reading (log entry 25). -/
def Obligations.StateRegisters : Prop :=
  ∀ (d a : Reg) (i : BitVec 12) (s : State),
    let sr := s.cur.a.sr
    let x := xn s a
    let k := myCore s
    let die := dieAt s (dieOf s.cur.id)
    let st := strandAt s (strandOf s.cur.id)
    let ro : List (Nat × Word64) := [(0x000, nat64 (s.cur.bind.rank % 65536)), (0x001, nat64 (s.cur.id % 65536)),
      (0x002, nat64 (s.cur.bind.queue % 64 * 2 ^ 48 + s.cur.bind.serial % 65536 * 2 ^ 32 + s.cur.bind.asid % 65536 * 2 ^ 16 + s.cur.id % 65536)),
      (0x010, nat64 (cyc s s.cur.id)), (0x011, nat64 (s.plat.moment / 111384)), (0x012, nat64 die.fsrt),
      (0x013, nat64 die.fsrc), (0x014, nat64 die.fsrf), (0x035, sr.efr0), (0x036, sr.efr1), (0x037, sr.efr2),
      (0x038, sr.efr3), (0x041, sr.mpart), (0x051, sr.spcnt), (0x052, sr.arq), (0x054, nat64 (k.arrc - s.cur.arrc0)),
      (0x055, nat64 (k.arsp - s.cur.arsp0)), (0x056, nat64 (k.arov - s.cur.arov0)), (0x057, nat64 (k.dqsp - s.cur.dqsp0)),
      (0x060, nat64 (st.strimb % 65536 + st.strimbTile % 128 * 65536)), (0x061, nat64 st.balc),
      (0x062, nat64 (st.thrc + if st.throttled then cyc s s.cur.id - st.since else 0)), (0x070, sr.step), (0x071, sr.stepk)]
    let rw : List (Nat × Word64 × SRegs) := [(0x020, sr.afl, { sr with afl := nat64 (x % 2 ^ 7) }),
      (0x021, sr.afen, { sr with afen := nat64 (x % 2 ^ 7) }), (0x022, sr.tmr, { sr with tmr := nat64 (x % 2 ^ 3) }),
      (0x030, sr.tvec, { sr with tvec := rd s a }), (0x031, sr.tpc, { sr with tpc := rd s a }),
      (0x032, sr.tcause, { sr with tcause := nat64 (x % 2 ^ 8) }), (0x033, sr.tval, { sr with tval := rd s a }),
      (0x034, sr.tsave, { sr with tsave := rd s a }), (0x040, sr.ksel, { sr with ksel := rd s a }),
      (0x042, sr.mstra, { sr with mstra := nat64 (x % 2 ^ 32) }), (0x043, sr.mstrb, { sr with mstrb := nat64 (x % 2 ^ 32) }),
      (0x044, sr.mbm, { sr with mbm := rd s a }), (0x045, sr.cpyc, { sr with cpyc := nat64 (x % 2) }),
      (0x050, sr.splim, { sr with splim := nat64 (x % 2 ^ 16) }), (0x053, sr.joinp, { sr with joinp := rd s a })]
    let bad := fun (w : Nat) (j : Instr) => Raises j s .illegal (nat64 (0xE8000000 + w + i.toNat))
    (∀ v, (i.toNat, v) ∈ ro → Gives (.srd d i) s d v ∧ bad (a.toNat * 2 ^ 16 + 5 * 2 ^ 12) (.swr a i) ∧
      bad (d.toNat * 2 ^ 21 + a.toNat * 2 ^ 16 + 6 * 2 ^ 12) (.srx d a i)) ∧
    (∀ v n, (i.toNat, v, n) ∈ rw → Gives (.srd d i) s d v ∧ exec (.swr a i) s = .next (retire (modSr (fun _ => n) s)) ∧
      exec (.srx d a i) s = .next (retire (wr d v (modSr (fun _ => n) s)))) ∧
    ((∀ v, (i.toNat, v) ∉ ro) ∧ (∀ v n, (i.toNat, v, n) ∉ rw) → bad (d.toNat * 2 ^ 21 + 4 * 2 ^ 12) (.srd d i) ∧
      bad (a.toNat * 2 ^ 16 + 5 * 2 ^ 12) (.swr a i) ∧ bad (d.toNat * 2 ^ 21 + a.toNat * 2 ^ 16 + 6 * 2 ^ 12) (.srx d a i))

/-- R201-R203, R206: TRAP, BRK, TRET, SVC and WAITC.  That ARITH is raised at TFENCE alone, and which causes go to TVEC, is the
model's reading (log entry 76). -/
def Obligations.TrapsAndWaits : Prop :=
  -- R202-R204: traps, breakpoints and TFENCE are delivered to TVEC, or, with no vector or within the handler, stop the
  -- task; TRET returns.
  (∀ (i : BitVec 12) (s : State),
    let sr := s.cur.a.sr
    let v := wrap64 (immZ s 12 i.toNat)
    let ready := sr.tvec ≠ 0 ∧ s.cur.a.handler = false
    (ready ∧ codeAddr s sr.tvec → Delivered (.trap i) s .trap v ∧ Delivered (.brk i) s .brk v) ∧
    (ready ∧ (myModule s).codeSize ≤ sr.tvec.toNat → Raises (.trap i) s .bounds sr.tvec ∧ Raises (.brk i) s .bounds sr.tvec) ∧
    (ready ∧ sr.tvec.toNat < (myModule s).codeSize ∧ sr.tvec.toNat % 4 ≠ 0 →
      Raises (.trap i) s .align sr.tvec ∧ Raises (.brk i) s .align sr.tvec) ∧
    (¬ready → Raises (.trap i) s .trap v ∧ Raises (.brk i) s .brk v) ∧
    (s.cur.a.eflags = [] ∧ s.cur.a.efault = none →
      (sr.afl &&& sr.afen = 0 → exec .tfence s = .next (retire s)) ∧
      (sr.afl &&& sr.afen ≠ 0 ∧ ready ∧ codeAddr s sr.tvec → Delivered .tfence s .arith (sr.afl &&& sr.afen)) ∧
      (sr.afl &&& sr.afen ≠ 0 ∧ ¬ready → Raises .tfence s .arith (sr.afl &&& sr.afen))) ∧
    (s.cur.a.handler = true ∧ codeAddr s sr.tpc → exec .tret s = .next { s with
      cur := { s.cur with a := { s.cur.a with handler := false, pc := sr.tpc, immx := [] } } }) ∧
    (s.cur.a.handler = true ∧ (myModule s).codeSize ≤ sr.tpc.toNat → Raises .tret s .bounds sr.tpc) ∧
    (s.cur.a.handler = true ∧ sr.tpc.toNat < (myModule s).codeSize ∧ sr.tpc.toNat % 4 ≠ 0 → Raises .tret s .align sr.tpc) ∧
    (s.cur.a.handler = false → Raises .tret s .illegal 0xE8008000)) ∧
  -- R203, R206: SVC parks for the leaf's service, WAITC for its cycles.
  (∀ (i : BitVec 12) (s : State),
    let n := immZ s 12 i.toNat
    (Idle s → exec (.svc i) s = .next (park (.svc (wrap64 n) (cyc s s.cur.id + 200)) s)) ∧
    (n ≤ 0 → exec (.waitc i) s = .next (retire s)) ∧
    (0 < n → exec (.waitc i) s = .next (park (.cycles (cyc s s.cur.id + n.toNat)) s)))

/-! ### Device steps: banks, cache, homes, waits, engines (file 95) -/

namespace Sys2Proof.Claims

/-- The step answers a next state, of which the property holds. -/
def Does (i : Instr) (s : State) (P : State → Prop) : Prop := ∃ t, exec i s = .next t ∧ P t

/-- A die does not relock (R399). -/
def dieGoes (s : State) (die : Nat) : Prop := (dieAt s die).relock = none

/-- No die relocks. -/
def AllGo (s : State) : Prop := ∀ d, dieGoes s d

/-- No L1 byte of `s` but those of a range has changed. -/
def OnlyL1 (s t : State) (key n : Nat) : Prop := ∀ a, a < key ∨ key + n ≤ a → t.mem.l1.read a = s.mem.l1.read a

/-- A byte of a line. -/
def byteOf (x : BitVec 1024) (k : Nat) : BitVec 8 := x.extractLsb' (8 * k) 8

/-- The cycle of the bank that holds a word is neither reserved nor owed to a retry (R248, R254), and nothing is presented
there; for a pair of 16 bytes the cycle of the odd bank is not reserved or owed either (R251). -/
def BankFree (s : State) (key n : Nat) : Prop :=
  owedAt s (bankOf s key) = false ∧ (bankAt s (bankOf s key)).pending = [] ∧
  (n = 16 → owedAt s (bankOf s (key / 16 * 16 + 8)) = false)

/-- Every line of the cluster is clean. -/
def AllClean (s : State) (c : Nat) : Prop := ∀ l ∈ (clusterAt s c).lines, l.mask = 0

end Sys2Proof.Claims

/-- R144, R247-R254, R262, R291, R370: the store buffer drains, a bank serves the port that comes first from its pointer and
with it every read of the same word, and the others wait, a reserved cycle and a retry come before any port, an uncorrectable
word is poisoned, parked operations are retried, and a self-test ends.  What is presented to a bank and
which word is in error are the step's arguments, the model's choice (log entries 2, 87, 116); what a poisoned burst leaves, and what
a taken-up acquire evicts, are its readings (log entries 89, 103). -/
def Obligations.BankSteps : Prop :=
  ∀ (s : State) (core index bank c1 c2 k1 k2 : Nat) (ps : List (Nat × Nat × Nat)) (x : SBEntry) (lasting spare : Bool), Canon s →
    let b := bankAt s bank
    let goes := dieGoes s (bank / 16384)
    let word := fun (k : Nat) => nat64 (s.mem.l1.readN k 8)
    let read := fun (c k : Nat) => (portAt bank c, c * 2 ^ 32 + k, 0)
    let wants := fun (c k : Nat) => bankOf s k = bank ∧ k < 2 ^ 32 ∧ k ∈ matrixWants s c ∧
      ∀ g ∈ (coreAt s c).got, ¬(g.unit = 1 ∧ g.key = k)
    let got := fun (t : State) (c k : Nat) => (coreAt t c).got = (coreAt s c).got ++
      [{ unit := 1, key := k, n := 8, value := s.mem.l1.readN k 8, bad := l1Poisoned s k 8 }]
    let free := goes ∧ owedAt s bank = false ∧ b.pending = [] ∧ b.ptr < 9
    let ran := { s with cur := { s.cur with run := .running } }
    ((coreAt s core).sbuf[index]? = some x ∧ x.isGlobal = false ∧ dieGoes s (core / 4096) ∧ BankFree s x.addr x.size ∧
        (∀ (j : Nat) (y : SBEntry), j < index → (coreAt s core).sbuf[j]? = some y → y.ctx = x.ctx → y.isGlobal = false →
          y.addr + y.size ≤ x.addr ∨ x.addr + x.size ≤ y.addr) →
      Does (.storeBufferDrain core index) s fun t => t.mem.l1.readN x.addr x.size = x.data % 2 ^ (8 * x.size) ∧
        OnlyL1 s t x.addr x.size ∧ (coreAt t core).sbuf = (coreAt s core).sbuf.eraseIdx index ∧ t.cur = s.cur ∧
        (coreOf x.ctx = core → (bankAt t (bankOf s x.addr)).ptr = (portAt (bankOf s x.addr) core + 1) % 9) ∧
        (x.size = 16 → ∃ r ∈ (bankAt t (bankOf s (x.addr / 16 * 16 + 8))).reserved,
          r.hold = .busy ∧ r.key = x.addr / 16 * 16 + 8)) ∧
    (∀ r, goes ∧ b.reserved = [r] ∧ r.due ≤ bankCyc s bank →
      let past := fun (t : State) => (bankAt t bank).reserved = [] ∧ (bankAt t bank).ptr = b.ptr
      (r.hold = .busy → Does (.bankAccess bank ps 0) s fun t => past t ∧ t.mem = s.mem) ∧
      (∀ v, r.hold = .store s.cur.id v → Does (.bankAccess bank [] 0) s fun t => past t ∧
        t.mem.l1.readN r.key 8 = v.toNat ∧ OnlyL1 s t r.key 8) ∧
      (∀ d y, r.hold = .word [(s.cur.id, d)] ∧ s.cur.burst = some y ∧ y.due = [r.key] →
        (l1Poisoned s r.key 8 = false → Does (.bankAccess bank [] 0) s fun t => past t ∧ t.mem = s.mem ∧
          t.cur = { (wr d (word r.key) s).cur with burst := none }) ∧
        (l1Poisoned s r.key 8 = true → Does (.bankAccess bank [] 0) s fun t => past t ∧ t.mem = s.mem ∧
          t.cur.run = .stopped ∧ t.cur.fcause = 8 ∧ t.cur.fval = y.ptr ∧ t.cur.a.pc = y.pc ∧ t.cur.a.g = y.g))) ∧
    (goes ∧ heldNow s bank = false ∧ (b.retry ≠ [] ∨ b.once ≠ []) ∧ b.pending = [] →
      exec (.bankAccess bank [] 0) s = exec (.waitListRetry bank) (putBank b s)) ∧
    (free ∧ wants c1 k1 → Does (.bankAccess bank [read c1 k1] 0) s fun t => (bankAt t bank).ptr = (portAt bank c1 + 1) % 9 ∧
      (bankAt t bank).served = [(portAt bank c1, word k1)] ∧ (bankAt t bank).pending = [] ∧ t.mem = s.mem ∧ got t c1 k1) ∧
    (free ∧ wants c1 k1 ∧ wants c2 k2 ∧ (portAt bank c1 + 9 - b.ptr) % 9 < (portAt bank c2 + 9 - b.ptr) % 9 →
      Does (.bankAccess bank [read c2 k2, read c1 k1] 0) s fun t => (bankAt t bank).ptr = (portAt bank c1 + 1) % 9 ∧
        got t c1 k1 ∧
        (k1 ≠ k2 → (bankAt t bank).served = [(portAt bank c1, word k1)] ∧ (coreAt t c2).got = (coreAt s c2).got ∧
          (bankAt t bank).pending = [(s.steps, read c2 k2)]) ∧
        (k1 = k2 → got t c2 k2 ∧ (portAt bank c1, word k1) ∈ (bankAt t bank).served ∧
          (portAt bank c2, word k1) ∈ (bankAt t bank).served ∧ (bankAt t bank).pending = [])) ∧
    (free ∧ wants c1 k1 → Does (.bankAccess bank [read c1 k1] 2) s fun t => k1 ∈ t.mem.poison ∧ t.mem.l1 = s.mem.l1 ∧
        (∃ g ∈ (coreAt t c1).got, g.unit = 1 ∧ g.key = k1 ∧ g.bad = true) ∧
        ∃ n, (bank, n) ∈ t.host.tests ∧ t.host.errs = putBy (·.1) (bank, (errOf s bank).1, (errOf s bank).2 + 1) s.host.errs) ∧
    (∀ w ws pk d, goes ∧ b.retry = w :: ws ∧ b.waiters = [pk] ∧ pk.key = w ∧ bankOf s w = bank ∧ pk.op = .lde d ∧
        pk.ctx = s.cur.id ∧ w ∉ s.mem.empty ∧ Clean s w 8 ∧ w % 8 = 0 →
      Does (.waitListRetry bank) s fun t => (bankAt t bank).retry = ws ∧ (bankAt t bank).waiters = [] ∧ t.mem = s.mem ∧
        t.cur = (acquired s.cur.id (finish (wr d (nat64 (s.mem.l1.readN w 8)) ran))).cur) ∧
    (∀ pk, goes ∧ (tileAt s (bank / 32)).table = [pk] ∧ bankOf s pk.key = bank ∧ b.waiters.length < 8 →
      Does (.overflowTableMove bank) s fun t => (bankAt t bank).waiters = b.waiters ++ [pk] ∧
        (bankAt t bank).once = b.once ++ [pk] ∧ (tileAt t (bank / 32)).table = []) ∧
    (∀ tile n pk d, dieGoes s (tile / 512) ∧ (tileAt s tile).refused = [(n, pk)] ∧ pk.op = .lde d ∧ Clean s pk.key 8 →
      (pk.key ∈ s.mem.empty ∧ 8 ≤ (bankAt s (bankOf s pk.key)).waiters.length ∧ (tileAt s tile).table.length < 64 ∧
          bankOf s pk.key / 32 = tile →
        Does (.refusedRepresentation tile) s fun t => (tileAt t tile).refused = [] ∧
          (tileAt t tile).table = (tileAt s tile).table ++ [pk] ∧ t.mem = s.mem) ∧
      (pk.key ∉ s.mem.empty ∧ pk.ctx = s.cur.id →
        Does (.refusedRepresentation tile) s fun t => (tileAt t tile).refused = [] ∧ t.mem = s.mem ∧
          t.cur = (acquired s.cur.id (finish (wr d (nat64 (s.mem.l1.readN pk.key 8)) ran))).cur)) ∧
    (∀ src i e, s.host.tests[index]? = some (src, some i) ∧ s.host.elog[i]? = some e ∧ src < 0x10000 →
      Does (.selfTestEnd index lasting spare) s fun t => t.host.tests = s.host.tests.eraseIdx index ∧
        (masked s 65 = false → t.host.fired = 65 :: s.host.fired) ∧ (masked s 65 = true → 65 ∈ t.host.pba) ∧
        ∃ a, t.host.elog[i]? = some { e with lasting := lasting, action := a, done := true } ∧
        (lasting = false → a = 0) ∧
        (lasting = true ∧ 0 < (bankAt s src).spares → a = 1 ∧ (bankAt t src).spares = (bankAt s src).spares - 1) ∧
        (lasting = true ∧ (bankAt s src).spares = 0 → a = 5 ∧ (clusterAt t (src / 4096)).outNext = true))

/-- R218, R256-R260, R267, R268, R275, R276: fills, sweep passes, writebacks, and the size of a cluster cache.  Which
lines WRITEBACK and SWEEP_PASS may take is the model's reading (log entries 27, 28). -/
def Obligations.CacheSteps : Prop :=
  ∀ (s : State) (c index frames : Nat) (l : Line), Canon s →
    let cl := clusterAt s c
    let V := cl.v
    let old := fun (v : BitVec 4) => 8 ≤ (V - v).toNat
    let home := fun (t : State) (k : Nat) => t.mem.hbm.read (l.home / 128 * 128 + k)
    (∀ asid va v fr pol e key, AllGo s ∧ cl.fills[index]? = some (asid, va, v, fr, pol) ∧ tlbFind asid va cl.tlb = some e ∧
        homeKey s e va = key ∧ key < 2 ^ 60 ∧ inHostBias s key = false ∧ flipping s key = false ∧ c ∉ s.homes.dead ∧
        key / 128 * 128 ∉ s.homes.poison ∧ 0 < allocFrames cl ∧ lineOf cl asid va = some l ∧ l.present = false ∧
        l.home < 2 ^ 60 ∧ converting cl l = false →
      let at_ := lineKey s c l
      Does (.cacheFill c index 0 0) s fun t => t.mem.hbm = s.mem.hbm ∧ (clusterAt t c).fills = cl.fills.eraseIdx index ∧
        (∃ m, lineOf (clusterAt t c) asid va = some m ∧ m.present = true ∧ m.v = v ∧ m.mask = l.mask) ∧ OnlyL1 s t at_ 128 ∧
        ∀ k, k < 128 → t.mem.l1.read (at_ + k) = if l.mask.getLsbD k then s.mem.l1.read (at_ + k) else home s k) ∧
    (cl.sweep = none ∧ 0 < cl.age ∧ dieGoes s (c / 4) → Does (.sweepPass c) s fun t => (clusterAt t c).sweep = some 0 ∧ t.mem = s.mem ∧
      (∀ m, m ∈ (clusterAt t c).lines ↔ m ∈ cl.lines ∧ ¬old m.v ∨ ∃ n ∈ cl.lines, old n.v ∧ n.mask ≠ 0 ∧ m = { n with present := false }) ∧
      (∀ x ∈ allCtx t ++ t.disp.savedCtx, clusterOf x.id = c → (V - x.floor).toNat ≤ 7) ∧
      (V - (clusterAt t c).floor).toNat ≤ 7) ∧
    (∀ n, cl.sweep = some n → Does (.sweepPassEnd c) s fun t => (clusterAt t c).sweep = none ∧ (clusterAt t c).age = n ∧
      (clusterAt t c).lines = cl.lines ∧ t.mem = s.mem) ∧
    (cl.lines[index]? = some l ∧ l.mask ≠ 0 ∧ l.home < 2 ^ 60 ∧ c ∉ s.homes.dead ∧ Sorted s c →
      let wrote := fun (t : State) => (∀ k, k < 128 → home t k = if l.mask.getLsbD k then byteOf (lineData s c l) k else home s k) ∧
        (∀ y, y < l.home / 128 * 128 ∨ l.home / 128 * 128 + 128 ≤ y → t.mem.hbm.read y = s.mem.hbm.read y)
      (32767 ≤ (cl.e - l.e).toNat ∧ dieGoes s (c / 4) → Does (.epochWriteback c index) s fun t => wrote t ∧
        ∃ m ∈ (clusterAt t c).lines, m.asid = l.asid ∧ m.va = l.va ∧ m.mask = 0) ∧
      ((pickWay cl.lines (cacheSets (allocFrames cl)) (l.va / 128 % cacheSets (allocFrames cl)) 15).2 = some l ∧ l.va % 128 = 0 →
        Does (.writeback c index) s fun t => wrote t ∧ ∀ m ∈ (clusterAt t c).lines, ¬(m.asid = l.asid ∧ m.va = l.va))) ∧
    (frames % 256 = 0 ∧ frames < cl.frames ∧ frames ≤ 2048 ∧ cl.conv = none → Does (.cacheConversion c frames) s fun t =>
      (clusterAt t c).conv = some { newFrames := frames, stage := 1 } ∧ (clusterAt t c).lines = cl.lines ∧ t.mem = s.mem) ∧
    (frames % 256 = 0 ∧ cl.frames < frames ∧ frames ≤ 2048 ∧ cl.conv = none ∧ cl.lines = [] ∧
        (freeFrames cl (frames - cl.frames)).length = frames - cl.frames ∧ fits s 64 c [] (frames - cl.frames) = true ∧
        (∀ t, t < 128 → tileRoom cl t 0 (frames - cl.frames) = true) →
      Does (.cacheGrowth c frames) s fun t => (clusterAt t c).frames = frames ∧
        (clusterAt t c).cacheFrames = cl.cacheFrames ++ freeFrames cl (frames - cl.frames) ∧ t.mem = s.mem) ∧
    (∀ st, cl.conv = some { newFrames := frames, stage := st } ∧ cl.fills = [] ∧ cl.lines = [] →
      Does (.conversionComplete c) s fun t => (clusterAt t c).conv = none ∧ (clusterAt t c).frames = frames ∧
        (clusterAt t c).cacheFrames = cl.cacheFrames.take frames ∧
        ∀ f ∈ cl.cacheFrames.drop frames, ∀ k, k < 65536 → t.mem.l1.read (l1Key c f k) = 0)

/-- R155, R269-R274, R278-R280, R286: releases, acquires and atomics at a home, drains, and dead agents.  That an acquire
also drains earlier releasers of its line (log entry 88), and that a copy port may be declared dead at any time (log
entry 92), are the model's choices; what an acquire of the record's own cluster evicts is its reading (log entries 88, 89). -/
def Obligations.HomeSteps : Prop :=
  ∀ (s : State) (r : HomeReq) (x : Rec) (b : Busy) (index agent line : Nat), Canon s →
    let c := clusterOf r.ctx
    let ln := r.pa / 128 * 128
    let cl := clusterAt s c
    let here := AllGo s ∧ s.homes.reqs = [r] ∧ r.watching = false ∧ r.zlr = false ∧ r.pa < 2 ^ 60 ∧
      inHostBias s r.pa = false ∧ flipping s r.pa = false ∧ c ∉ s.homes.dead ∧ ln ∉ s.homes.poison ∧ AllClean s c ∧
      (cl.lines.all (fun l => !(l.asid == r.asid && l.va == r.va / 128 * 128))) = true ∧
      (s.homes.recs.filter (fun y => y.slice == r.slice && y.set == r.set)).length < 8 ∧ r.slice < 256 ∧ s.homes.watches = []
    let alone := here ∧ s.homes.busy = []
    let old := s.mem.hbm.readN r.pa r.size
    let bumped := fun (t : State) => (clusterAt t c).v = cl.v + 1 ∧ (ctxOf t r.ctx).floor = cl.v + 1
    let kept := fun (t : State) => (clusterAt t c).v = cl.v
    let ran := { s.cur with run := .running }
    (∀ v, alone ∧ r.op = .store v ∧ r.rel = true ∧ r.acq = false → Does (.homeRelease [0]) s fun t =>
      t.mem.hbm.readN r.pa r.size = v % 2 ^ (8 * r.size) ∧ t.homes.reqs = [] ∧ (clusterAt t c).e = cl.e + 1 ∧
      ∃ y, recOf t ln = some y ∧ y.valid = true ∧ y.dr = false ∧ y.agent = c ∧ y.rel = cl.e ∧ kept t) ∧
    (∀ d f, here ∧ r.op = .load d f ∧ f < 15 ∧ r.acq = true ∧ r.rel = false ∧ r.ctx = s.cur.id ∧ cl.age < 8 →
      let got := fun (t : State) => t.mem = s.mem ∧ t.homes.reqs = [] ∧
        t.cur.a.g = (wr d (ldVal f old).1 s).cur.a.g ∧ t.cur.run = .running ∧ t.cur.a.pc = s.cur.a.pc + 4
      let drains := fun (b : Busy) => Does (.homeAcquire [0]) s fun t => t.homes.reqs = [r] ∧ t.cur = s.cur ∧
        t.homes.busy = [b] ∧ t.homes.awaiting = s.homes.awaiting ++ [(b.agent, s.plat.moment)]
      (s.homes.busy = [] ∧ recOf s ln = none → Does (.homeAcquire [0]) s fun t => got t ∧ bumped t) ∧
      (s.homes.busy = [] ∧ recOf s ln = some x ∧ x.valid = true ∧ x.inc = incOf s x.agent ∧ x.agent ∉ s.homes.dead →
        (x.owed = [] →
          (x.agent = c → Does (.homeAcquire [0]) s fun t => got t ∧ kept t) ∧
          (x.agent ≠ c ∧ x.dr = true → Does (.homeAcquire [0]) s fun t => got t ∧ bumped t) ∧
          (x.agent ≠ c ∧ x.dr = false → drains { line := ln, agent := x.agent, rel := x.rel, ctx := r.ctx })) ∧
        (∀ a n, x.owed = [(a, n, false)] ∧ a ≠ c ∧ a < 16 ∧ a ∉ s.homes.dead →
          drains { line := ln, agent := a, rel := n, ctx := r.ctx, owed := true }) ∧
        (∀ a n, x.owed = [(a, n, true)] ∧ x.agent = c → Does (.homeAcquire [0]) s fun t => got t ∧ kept t ∧
          ∀ l ∈ (clusterAt t c).lines, l.present = false)) ∧
      (s.homes.busy = [b] ∧ recOf s ln = some x ∧ x.valid = true ∧ x.agent = b.agent ∧ x.rel = b.rel ∧ b.line = ln ∧
          b.ctx = r.ctx ∧ b.drained = true ∧ b.evict = false ∧ b.recalling = false ∧ b.owed = false →
        Does (.drainDone 0) s fun t => got t ∧ bumped t ∧ t.homes.busy = [] ∧ ∃ y, recOf t ln = some y ∧ y.dr = true) ∧
      (s.homes.busy = [] ∧ recOf s ln = some x ∧ x.valid = true ∧ (x.agent ∈ s.homes.dead ∨ x.inc ≠ incOf s x.agent) →
        Does (.homeAcquire [0]) s fun t => t.homes.reqs = [] ∧ t.cur.run = .stopped ∧ t.cur.fcause = 7 ∧ t.cur.fval = r.ptr ∧
          t.cur.a.g = s.cur.a.g)) ∧
    (∀ v d, alone ∧ r.op = .rmw 0 v d ∧ r.size = 8 ∧ r.acq = false ∧ r.rel = false ∧ r.ctx = s.cur.id →
      Does (.homeAtomic [0]) s fun t => t.mem.hbm.readN r.pa 8 = (old + v) % 2 ^ 64 ∧ t.homes.reqs = [] ∧ kept t ∧
        t.cur = (finish (wr d (nat64 old) { s with cur := ran })).cur) ∧
    (s.homes.busy[index]? = some b ∧ b.drained = false ∧ b.recalling = false ∧ b.agent ∉ s.homes.dead ∧ Sorted s b.agent →
      Does (.drain index) s fun t => t.homes.busy[index]? = some { b with drained := true } ∧
        (∀ y ∈ t.homes.busy, y.agent = b.agent → y.recalling = false → y.drained = true) ∧
        ∀ l ∈ (clusterAt t b.agent).lines,
          ((clusterAt s b.agent).e - b.rel).toNat ≤ ((clusterAt s b.agent).e - l.e).toNat → l.mask = 0) ∧
    (s.homes.busy = [b] ∧ b.drained = true ∧ b.recalling = false ∧ b.evict = true → Does (.drainDone 0) s fun t =>
      t.homes.busy = [] ∧ recOf t b.line = none ∧ t.mem = s.mem) ∧
    (∀ m, s.homes.awaiting = [(agent, m)] →
      (Does (.drainBusy agent) s fun t => t.homes.awaiting = [(agent, s.plat.moment)]) ∧
      (m + 10000 * 111384 ≤ s.plat.moment ∧ s.homes.reqs = [] ∧ agent < 17 → Does (.agentDead agent) s fun t =>
        agent ∈ t.homes.dead ∧ t.homes.awaiting = [] ∧ ∀ y ∈ t.homes.busy, y.agent ≠ agent)) ∧
    (17 ≤ agent ∧ agent ≤ 20 → Does (.agentDead agent) s fun t => agent ∈ t.homes.dead ∧ t.cur = s.cur ∧ t.mem = s.mem) ∧
    (agent ∈ s.homes.dead → Does (.agentReadmit agent) s fun t => agent ∉ t.homes.dead ∧ incOf t agent = incOf s agent + 1 ∧
      (agent < 16 → (clusterAt t agent).lines = [] ∧ (clusterAt t agent).e = 0 ∧
        ∀ y ∈ t.homes.reqs, clusterOf y.ctx ≠ agent)) ∧
    (line ∉ s.homes.watches → Does (.monwPoll line) s fun t => ∀ y ∈ t.homes.reqs, y.pa / 128 * 128 = line → y.again = y.watching) ∧
    (line ∈ s.homes.changed → Does (.monwWake line) s fun t => line ∉ t.homes.changed ∧
      ∀ y ∈ t.homes.reqs, y.pa / 128 * 128 = line → y.again = y.watching) ∧
    (∀ d e n, parkedOf s r.ctx = none ∧ s.homes.reqs = [r] ∧ r.op = .monw d e (some n) ∧ n ≤ cyc s r.ctx →
      Does (.monwTimeout r.ctx) s fun t => t.homes.reqs = [{ r with again := r.watching }])

/-- R192, R193, R203, R206, R219, R316: what ends a wait: an arrival that completes a phase, a wake, a drained hand-off,
a count of cycles, a service. -/
def Obligations.WaitSteps : Prop :=
  ∀ (s : State) (c u ctx launch rank src now : Nat) (b : BarUnit) (bits : BitVec 16) (h : Nat × BitVec 16)
    (hs from_ : List (Nat × BitVec 16)) (d : Reg) (code : Word64),
    let x := ctxOf s ctx
    let mine := s.cur.id = ctx
    let ran := { s with cur := { s.cur with run := .running } }
    (s.disp.flight = [.arrival c u ctx false] ∧ unitAt s c u = some b ∧ dieGoes s (c / 4) →
      (b.arrived + 1 < b.count → Does (.barrierArrival 0) s fun t => unitAt t c u = some { b with arrived := b.arrived + 1 } ∧
        t.disp.flight = [] ∧ t.cur = s.cur) ∧
      (b.arrived + 1 = b.count → Does (.barrierArrival 0) s fun t =>
        unitAt t c u = some { b with arrived := 0, phase := !b.phase } ∧
        ∀ m, s.others = [] ∧ clusterOf s.cur.id = c ∧ s.cur.a.kept = some (u, b.phase) ∧
            s.cur.run = .parked (.barrier u b.phase none m) →
          t.cur.run = .running ∧ t.cur.a.kept = none ∧ t.cur.a.pc = s.cur.a.pc + 4 ∧ t.cur.a.g = s.cur.a.g)) ∧
    (∀ ph m, mine ∧ s.cur.run = .parked (.barrier u ph (some d) (some m)) →
      (m ≤ cyc s ctx → Does (.barwtTimeout ctx) s fun t => t.cur.a.kept = none ∧ t.cur.run = .running ∧
        t.cur.a.pc = s.cur.a.pc + 4 ∧ t.cur.a.g = (wr d 0 s).cur.a.g ∧ t.mem = s.mem) ∧
      (cyc s ctx < m → exec (.barwtTimeout ctx) s = .next s)) ∧
    (s.disp.flight = [.wake src launch rank bits from_] ∧ (rankEntry (launchAt s launch) rank).transit = false ∧
        dieGoes s (dieOf (rankEntry (launchAt s launch) rank).ctx) ∧ savedRank s launch rank = none →
      Does (.wakeDelivery 0) s fun t => t.disp.flight = [] ∧
        let k := (rankEntry (launchAt s launch) rank).ctx
        (ctxOf s k).id = k → (ctxOf t k).a.wake = (ctxOf s k).a.wake ||| bits ∧ (ctxOf t k).a.g = (ctxOf s k).a.g ∧
          (ctxOf t k).wakeFrom = (ctxOf s k).wakeFrom ++ from_) ∧
    (mine ∧ s.cur.handoff = h :: hs ∧ (clusterAt s (clusterOf ctx)).age < 8 → Does (.crossClusterHandoffDrain ctx) s fun t =>
      t.cur.handoff = hs ∧ t.cur.floor = (clusterAt t (clusterOf ctx)).v ∧
      (clusterAt t (clusterOf ctx)).v = (clusterAt s (clusterOf ctx)).v + 1) ∧
    (mine ∧ s.cur.run = .parked (.cycles now) →
      (now ≤ cyc s ctx → exec (.waitcExpiry ctx) s = .next (retire ran)) ∧
      (cyc s ctx < now → exec (.waitcExpiry ctx) s = .next s)) ∧
    (∀ i, mine ∧ s.cur.run = .parked (.align i now) →
      (now ≤ cyc s ctx → exec (.alignTimeout ctx) s = .next ran) ∧ (cyc s ctx < now → exec (.alignTimeout ctx) s = .next s)) ∧
    (mine ∧ s.cur.run = .parked (.svc code now) →
      (now ≤ cyc s ctx → exec (.svcServiceDone ctx) s = .next (retire (wr 3
        (if code = 0 then 0 else if code = 1 ∧ s.cur.a.sr.step ≠ 0 then s.cur.a.sr.step - 1 else wrap64 (-1)) ran))) ∧
      (cyc s ctx < now → exec (.svcServiceDone ctx) s = .next s)) ∧
    (x.handoff = [] → exec (.crossClusterHandoffDrain ctx) s = .next s)

/-- R176, R184, R283, R288-R301, R331: an MMA turn adds the sums of products, MZERO clears, a copy moves its bytes,
the calendar serves an owned slot, and a completion is counted on its knot.  That a turn and a chunk are one step each
is the model's choice (log entry 8). -/
def Obligations.EngineSteps : Prop :=
  ∀ (s : State) (tile core copyCore index pch : Nat) (cmd : Cmd) (op : OpArea) (row : List (List Byte)) (slice : List (List Byte)), Canon s →
    let k := coreAt s core
    let t0 := tileAt s tile
    let x := ctxOf s cmd.ctx
    let runs := fun (c : Nat) => dieGoes s (c / 4096) ∧ brownStopped s = false
    let quiet := fun (c unit : Nat) => outBusy s c unit = false ∧ ∀ g ∈ (coreAt s (coreOf x.id)).got, g.unit ≠ unit
    let live := cmd.finished = false ∧ cmd.checked = true ∧ tornDown s x.bind.launch = false
    (core = tile * 8 ∧ runs core ∧ (∀ j, j < 8 → outBusy s (core + j) 1 = false) ∧ t0.p = 0 ∧ t0.run < k.weight ∧ k.mq = [cmd] ∧ live →
      (cmd.kind = .mzero → Does (.matrixTurn tile) s fun t => t.mem = s.mem ∧ (tileAt t tile).p = 0 ∧
        (tileAt t tile).run = t0.run + 1 ∧
        (coreAt t core).mq = [{ cmd with started := true, finished := true, buf := [] }] ∧
        ∀ y ∈ (tileAt t tile).slots, ¬(cmdBase s cmd + cmd.ga.toNat ≤ y.id ∧
          y.id < cmdBase s cmd + cmd.ga.toNat + cmd.gb.toNat)) ∧
      (cmd.kind = .mmaI8 ∧ k.opArea = { op with rows := some row, slices := [slice] } ∧
          cmd.word.toNat / 2 ^ 14 % 4 = 0 ∧ cmd.word.toNat / 2 ^ 8 % 64 = 1 ∧ cmd.next = 0 →
        let id := cmdBase s cmd + cmd.word.toNat / 4 % 64
        let z := cmd.word.getLsbD 0
        let el := fun (t : State) (i j : Nat) => (slotAt (tileAt t tile) id).el i j
        Does (.matrixTurn tile) s fun t => t.mem = s.mem ∧ (slotAt (tileAt t tile) id).mode = .integer ∧
          ∀ i j, i < 8 → j < 16 → el t i j = BitVec.ofInt 96 ((if z then 0 else (el s i j).toInt) +
            sumTo (fun e => if op.bitmap.testBit (e / 8) then
              ((row.getD i []).getD e 0).toInt * ((slice.getD e []).getD j 0).toInt else 0) 32))) ∧
    (k.mq = [cmd] ∧ runs core ∧ cmd.kind = .mzero → exec (.operandFetch core) s = .next s) ∧
    (k.mq = [cmd] ∧ runs core ∧ quiet core 1 ∧ live ∧ cmd.kind = .mmaI8 ∧ cmd.phase2 = false ∧
        k.opArea = { op with rows := some row, slices := [] } ∧ cmd.next < cmd.word.toNat / 2 ^ 8 % 64 ∧
        (∀ j, j < 8 → fetching s (core / 8 * 8 + j) = true → fetchAge s core ≤ fetchAge s (core / 8 * 8 + j)) →
      let e := entryIn x.handles (hv cmd.gb)
      let off := fun (r b : Nat) => e.base + ov cmd.gb + 16 * cmd.next + cmd.mstrb * r + b
      let at_ := fun (r b key : Nat) => localKey s (clusterOf x.id) x.bind.area (off r b) = some key
      e.space = 0 ∧ e.remote = false ∧
        (∀ r b, r < 32 → b < 16 → ∃ key, at_ r b key ∧ l1Poisoned s key 1 = false ∧ bankFree s key = true) →
      Does (.operandFetch core) s fun t => t.mem = s.mem ∧ ∃ sl, (coreAt t core).opArea.slices = [sl] ∧
        ∀ r b key, r < 32 → b < 16 → at_ r b key → (sl.getD r []).getD b 0 = s.mem.l1.read key) ∧
    (let j := coreAt s copyCore
     let goes := runs copyCore ∧ quiet copyCore 2
     let place := fun (p : Word64) (n key : Nat) =>
       let e := entryIn x.handles (hv p)
       e.space = 0 ∧ e.remote = false ∧ (e.base + ov p) % 65536 + n ≤ 65536 ∧
         localKey s (clusterOf x.id) x.bind.area (e.base + ov p) = some key ∧ ∀ i, i < n → bankFree s (key + i) = true
     (∀ src dst, j.cq = [cmd] ∧ goes ∧ live ∧ cmd.dropped = false ∧ cmd.parked = false ∧ cmd.kind = .cpy ∧
          cmd.timed = false ∧ cmd.pos = 0 ∧ cmd.posted = false ∧ 0 < cmd.gd.toNat ∧ cmd.gd.toNat ≤ 4096 ∧
          place cmd.gb cmd.gd.toNat src ∧ place cmd.ga cmd.gd.toNat dst ∧ Clean s src cmd.gd.toNat ∧
          (∀ b ∈ s.banks, b.waiters = []) ∧ (coreAt s (coreOf x.id)).out = [] →
        Does (.copyChunk copyCore) s fun t => OnlyL1 s t dst cmd.gd.toNat ∧
          (∀ i, i < cmd.gd.toNat → t.mem.l1.read (dst + i) = s.mem.l1.read (src + i)) ∧
          ∃ y, (coreAt t copyCore).cq = [y] ∧ y.finished = true) ∧
     (∀ cl area off key head n size depth base, j.cq = [cmd] ∧ goes ∧ cmd.finished = false ∧ cmd.posted = false ∧
          cmd.kind = .cpych ∧ cmd.desc = [head, n, size, depth, base] ∧ cmd.gd.toNat ≤ cmd.pos ∧
          qcwSpot s cmd = .ok (cl, area, off) ∧ localKey s cl area off = some key ∧ bankFree s key = true ∧ Clean s key 32 ∧
          (qcwAt s.mem.l1 key).ok = true ∧ (qcwAt s.mem.l1 key).imm = false →
        let q := qcwAt s.mem.l1 key
        Does (.cpychAppend copyCore) s fun t => OnlyL1 s t key 4 ∧ t.mem.l1.readN key 4 = (q.head + n.toNat) % q.wrap ∧
          (coreAt t copyCore).cq = [{ cmd with finished := true }]) ∧
     (j.cq = [cmd] ∧ goes ∧ cmd.finished = false ∧ cmd.kind ≠ .cpych → exec (.cpychAppend copyCore) s = .next s) ∧
     (j.cq = [cmd] ∧ goes ∧ cmd.finished = true ∧ cmd.dropped = false ∧ cmd.flags = 0 ∧ cmd.knot = none →
        Does (.engineCompletion copyCore true) s fun t => (coreAt t copyCore).cq = [] ∧ t.mem = s.mem ∧ t.cur = s.cur) ∧
     (∀ off, j.cq = [cmd] ∧ goes ∧ cmd.finished = true ∧ cmd.dropped = false ∧ cmd.flags = 0 ∧ cmd.knot = some off ∧
          cmd.kind = .cpy →
        Does (.engineCompletion copyCore true) s fun t => (coreAt t copyCore).cq = [] ∧ t.disp.flight = s.disp.flight ++
          [.count (coreOf x.id) 2 x.bind.area x.bind.launch off cmd.gd.toNat])) ∧
    (∀ (r : CalReq) (n : Nat), r.due = none ∧ r.pch = pch ∧ r.key < 2 ^ 60 ∧
        (∀ y ∈ s.homes.calUsed, y.1 ≠ calPort r) ∧ (r.at_ + 3) / 4 ≤ n ∧ n < (r.at_ + 3) / 4 + 32 ∧
        ownedBy (calOwner s pch (n % 32)) r.cluster r.port = true ∧
        (∀ m, (r.at_ + 3) / 4 ≤ m → m < n → ownedBy (calOwner s pch (m % 32)) r.cluster r.port = false) →
      let served := fun (y : CalReq) => y.due = some (4 * n + 210) ∧ y.data = s.mem.hbm.bytes r.key r.n
      (s.homes.calReqs = [r] ∧ calWaiting s pch = [r] →
        (4 * n < rtm s → Does (.calendarSlot pch) s fun t => (∃ y, t.homes.calReqs = [y] ∧ served y) ∧ t.mem = s.mem ∧
          (calPort r, n) ∈ t.homes.calUsed) ∧
        (rtm s ≤ 4 * n → exec (.calendarSlot pch) s = .next s)) ∧
      (∀ q : CalReq, s.homes.calReqs = [q, r] ∧ calWaiting s pch = [q, r] ∧ calPort q = calPort r ∧
          q.at_ = r.at_ ∧ r.rank < q.rank ∧ 4 * n < rtm s →
        Does (.calendarSlot pch) s fun t => ∃ y, t.homes.calReqs = [q, y] ∧ served y)) ∧
    (∀ c unit area l off v key, s.disp.flight[index]? = some (.count c unit area l off v) ∧
        localKey s (c / 1024) area off = some key ∧ bankFree s key = true ∧ dieGoes s (c / 4096) →
      let w := s.mem.l1.readN key 8
      Does (.knotCountUpdate index) s fun t => OnlyL1 s t key 8 ∧ t.disp.flight = s.disp.flight.eraseIdx index ∧
        (0 < w % 2 ^ 32 → t.mem.l1.readN key 8 = knotWord ((w / 2 ^ 63 + (w / 2 ^ 32 % 2 ^ 31 + v) / (w % 2 ^ 32)) % 2)
          ((w / 2 ^ 32 % 2 ^ 31 + v) % (w % 2 ^ 32) % 2 ^ 31) (w % 2 ^ 32)))

/-! ### Device steps: code, queues, launches, work (files 65, 70, 75) -/

namespace Sys2Proof.Claims

/-- The record completes in `t`: nothing when it names no completion word, else the word is written at the home of
its page in HBM and the queue's vector fires, or pends while it is masked (R304, R8). -/
def Completed (s t : State) (q : Nat) (ws : List Word64) (word : Nat) : Prop :=
  (recCw ws = 0 → t.mem = s.mem ∧ t.host.fired = s.host.fired) ∧
  (∀ m e, loaded s (recModule ws) = some m ∧ recCw ws ≠ 0 ∧ recCw ws % 8 = 0 ∧ walk s m.asid (recCw ws) = some e ∧
      homeKey s e (recCw ws) < 2 ^ 60 ∧ s.homes.recs = [] ∧ homeReady s (homeKey s e (recCw ws)) true = none ∧
      ioTurn s (placeOf s (homeKey s e (recCw ws))).1 (homeKey s e (recCw ws) / 128 * 128) = true →
    t.mem.hbm.readN (homeKey s e (recCw ws)) 8 = word ∧
    (masked s q = false → t.host.fired = q :: s.host.fired) ∧
    (masked s q = true → t.host.fired = s.host.fired ∧ q ∈ t.host.pba))

/-- Launches run, and nothing waits for room in a queue, for a tag or for its turn at a home. -/
def Dispatches (s : State) : Prop :=
  launchesRun s = true ∧ braking s = false ∧ (∀ w ∈ s.disp.cwWaiting, w.tag.isSome = true) ∧ ∀ x ∈ s.disp.queues, x.heldRec = []

/-- The queue holds one record, which is eligible, and no other queue has any. -/
def OneHead (s : State) (q : Nat) (e : QEntry) : Prop :=
  ∃ x : Queue, s.disp.queues = [x] ∧ x.id = q ∧ x.busy = false ∧ x.store = [e] ∧ x.heldRec = [] ∧ e.heldBy = none ∧
    e.deps.all (· == true) = true

end Sys2Proof.Claims

/-- R84, R315, R337-R342, R349: loading, lowering, invalidating and unloading a module, a translation miss, and the
fetch port.  The loader's arguments are the model's choice (log entry 78); what fits, what is discovered, the lines that a
block takes and the stages of the boot in which modules are loaded are its readings (log entries 12, 85, 105, 110). -/
def Obligations.CodeSteps : Prop :=
  ∀ (s : State) (id asid root codeAt c ctx tile lo hi pc : Nat) (bases cs : List Nat) (f : List Byte) (m : Module), Canon s →
    let cl := clusterAt s c
    let mine := s.cur.id = ctx
    let meets := fun (b : Nat × Nat) => blockMeets id lo hi b.1 b.2 (blockWords s (moduleAt s b.1) 64 b.2)
    let block : Nat → Block := fun entry => {
      module := m.id, entry := entry, rev := nativeRev s c, words := blockWords s m 64 entry, used := s.steps }
    ((loaded s id ≠ none ∨ s.plat.stage < 8 ∨ 10 < s.plat.stage) →
      exec (.moduleLoad id asid root codeAt bases f) s = .next s) ∧
    (loaded s id = none ∧ 8 ≤ s.plat.stage ∧ s.plat.stage ≤ 10 →
      let m0 := moduleOf id asid codeAt bases f
      let clusters := if s.plat.gl4012 then 12 else 16
      let m1 := { m0 with q := m0.actors.map (fun _ => 1) }
      let flat := containerStatus s f = 0 ∧ bodyOfType f 9 = [] ∧ bodyOfType f 3 = []
      (ofBytes (f.take 4) ≠ 0x4E594C4C → exec (.moduleLoad id asid root codeAt bases f) s =
        .next { s with disp := { s.disp with loadStatus := 1 } }) ∧
      (ofBytes (f.take 4) = 0x4E594C4C ∧ fieldAt f 8 4 = 64 ∧ (fieldAt f 4 2 = 0 ∨ 3 < fieldAt f 4 2) →
        exec (.moduleLoad id asid root codeAt bases f) s = .next { s with disp := { s.disp with loadStatus := 2 } }) ∧
      (flat ∧ (moduleFits m0 clusters 0 = false ∨ findPlace (emptied false s) m1 64 = none) →
        exec (.moduleLoad id asid root codeAt bases f) s = .next { s with disp := { s.disp with loadStatus := 8 } }) ∧
      (flat ∧ bodyOfType f 4 = [] ∧ moduleFits m0 clusters 0 = true ∧ (findPlace (emptied false s) m1 64).isSome = true ∧
          (∀ k ∈ s.disp.modules, k.asid ≠ asid) ∧ bases ≠ [] →
        Does (.moduleLoad id asid root codeAt bases f) s fun t => t.disp.loadStatus = 0 ∧
          loaded t id = some { m1 with digest := sha384 f } ∧
          (sameRevision s = true → ∀ k ∈ inService s, (k, id) ∈ t.disp.toLower) ∧
          (∀ i, i < (bodyOfType f 1).length → t.mem.hbm.read (codeAt + i) = (bodyOfType f 1).getD i 0) ∧
          (∀ a, a < codeAt ∨ codeAt + (bodyOfType f 1).length ≤ a → t.mem.hbm.read a = s.mem.hbm.read a) ∧
          (∃ r ∈ t.host.roots, r = (asid, root)) ∧ t.mem.l1 = s.mem.l1)) ∧
    (loaded s id = some m ∧ cl.blocks = [] ∧ entriesOf s m = [pc] ∧ (sameRevision s = true ∨ placedIn s c id = true) ∧
        stopped s (c / 4) = false → Does (.moduleLowering c id) s fun t =>
      (clusterAt t c).blocks = [block pc] ∧ id ∈ (clusterAt t c).lowered ∧ t.mem = s.mem ∧ t.cur = s.cur ∧
      (c, id) ∉ t.disp.toLower) ∧
    (sameRevision s = false ∧ placedIn s c id = false → exec (.moduleLowering c id) s = .next s) ∧
    (∀ t, exec (.moduleLowering c id) s = .next t → id ∈ (clusterAt t c).lowered → id ∉ cl.lowered →
      ∀ k, loaded s id = some k → ∀ en ∈ entriesOf t k, ∃ b ∈ (clusterAt t c).blocks, b.module = id ∧ b.entry = en ∧ b.rev = nativeRev t c) ∧
    (mine ∧ s.cur.run = .running ∧ s.cur.a.immx = [] →
      let home := clusterAt s (ctx / 4096)
      let here := ∃ b ∈ home.blocks, b.module = s.cur.bind.module ∧ b.entry = s.cur.a.pc.toNat ∧ b.rev = nativeRev s (ctx / 4096)
      let inside := ∃ b, s.cur.blk = some b ∧ b.1 ≤ s.cur.a.pc.toNat ∧ s.cur.a.pc.toNat < b.1 + 4 * b.2
      (¬here ∧ ¬inside →
        Does (.translationMiss ctx) s fun t => t.cur = { s.cur with run := .parked .translation, blk := none } ∧
          (clusterAt t (ctx / 4096)).misses = home.misses ++ [(s.cur.bind.module, s.cur.a.pc.toNat, ctx)]) ∧
      (here ∨ inside → exec (.translationMiss ctx) s = .next s)) ∧
    (cl.misses = [(m.id, pc, ctx)] ∧ stopped s (c / 4) = false →
      ((∃ k, (c, k) ∈ s.disp.toLower) → exec (.translationLowered c) s = .next s) ∧
      ((∀ k, (c, k) ∉ s.disp.toLower) →
        (cl.lowering ≠ some (m.id, pc) →
          exec (.translationLowered c) s = .next (putCluster { cl with lowering := some (m.id, pc) } s)) ∧
        (mine ∧ s.cur.run = .parked .translation ∧ cl.lowering = some (m.id, pc) ∧ loaded s m.id = some m ∧ cl.blocks = [] →
          Does (.translationLowered c) s fun t => t.cur = { s.cur with run := .running } ∧ (clusterAt t c).misses = [] ∧
            (clusterAt t c).lowering = none ∧ (clusterAt t c).blocks = [block pc]))) ∧
    (cl.misses = [] → exec (.translationLowered c) s = .next s) ∧
    (Does (.translationInvalidate cs id lo hi) s fun t => t.mem = s.mem ∧
      ((∀ k ∈ cs, ∀ b, (clusterAt s k).lowering = some b → meets b = false) → t.cur = s.cur) ∧
      (∀ b, c ∈ cs ∧ cl.lowering = some b ∧ meets b = true → (clusterAt t c).lowering = none ∧
        (∀ x ∈ (clusterAt t c).misses, ¬(x.1 = b.1 ∧ x.2.1 = b.2)) ∧
        (mine ∧ s.cur.run = .parked .translation ∧ (b.1, b.2, ctx) ∈ cl.misses → t.cur = { s.cur with run := .running })) ∧
      (c ∈ cs → ∀ b, b ∈ (clusterAt t c).blocks ↔ b ∈ cl.blocks ∧ ¬(b.module = id ∧ b.entry < hi ∧ lo < b.entry + 4 * b.words)) ∧
      (c ∈ cs → ∀ k ∈ (clusterAt t c).lowered, k ∈ cl.lowered ∧ allResident t c (moduleAt t k) = true) ∧
      (c ∉ cs → clusterAt t c = cl)) ∧
    ((∀ l ∈ s.disp.launches, l.module ≠ id ∨ l.phase = 4) → Does (.moduleUnload id) s fun t => loaded t id = none ∧
      (∀ k, k ≠ id → loaded t k = loaded s k) ∧ (∀ b ∈ (clusterAt t c).blocks, b.module ≠ id) ∧
      id ∉ (clusterAt t c).lowered ∧ (c, id) ∉ t.disp.toLower) ∧
    ((∃ l ∈ s.disp.launches, l.module = id ∧ l.phase ≠ 4) → exec (.moduleUnload id) s = .next s) ∧
    (stopped s (tile / 512) = true → exec (.fetchRequest tile) s = .next s) ∧
    (∀ addr half, mine ∧ stopped s (tile / 512) = false ∧ (tileAt s tile).fetchReqs = [(ctx, addr, half)] → Does (.fetchRequest tile) s fun t =>
      (tileAt t tile).fetchReqs = [] ∧ (tileAt t tile).fetchPtr = (ctx / 4 % 8 + 1) % 8 ∧
      t.cur = (if half then { s.cur with half1 := true } else { s.cur with half0 := true })) ∧
    (∀ c1 c2 a1 a2 h1 h2, stopped s (tile / 512) = false ∧ (tileAt s tile).fetchReqs = [(c2, a2, h2), (c1, a1, h1)] ∧ a1 ≠ a2 ∧
        (let p := (tileAt s tile).fetchPtr
         p < 8 ∧ (c1 / 4 % 8 + 8 - p) % 8 < (c2 / 4 % 8 + 8 - p) % 8) → Does (.fetchRequest tile) s fun t =>
      (tileAt t tile).fetchReqs = [(c2, a2, h2)] ∧ (tileAt t tile).fetchPtr = (c1 / 4 % 8 + 1) % 8)

/-- R302-R305, R329, R330: doorbells, teardown and reset of a queue, and dependencies.  When held writes take effect, what waits
for its turn at a home, and that a vector is masked at reset are the model's readings (log entries 31, 45, 63, 109). -/
def Obligations.QueueSteps : Prop :=
  ∀ (s : State) (q index entry : Nat) (n : BitVec 6) (e : QEntry) (m : Module) (x : TlbEntry), Canon s →
    let qu := queueAt s q
    let rec0 := (getBy (·.1) (qu.cursor % 32) (0, []) qu.window).2
    let open_ := q < 64 ∧ qu.busy = false ∧ holding s = false
    (open_ →
      (n = 0 → exec (.doorbell q n) s = .next s) ∧
      (33 ≤ n.toNat → exec (.doorbell q n) s = .next (putQueue { qu with dberr := true } s)) ∧
      (n = 1 ∧ qu.store.length = 32 → Does (.doorbell q n) s fun t =>
        (queueAt t q) = qu ∧ Completed s t q rec0 (6 * 2 ^ 56 + 2 ^ 48)) ∧
      (n = 1 ∧ qu.store.length < 32 → Does (.doorbell q n) s fun t =>
        (queueAt t q).cursor = (qu.cursor + 1) % 32 ∧ (queueAt t q).nextSeq = qu.nextSeq + 1 ∧
        (badRec s rec0 = false → (queueAt t q).store = qu.store ++ [{ words := rec0, seq := qu.nextSeq
                                                                      deps := [0, 1, 2, 3].map (fun i => recDep rec0 i == 0) }] ∧
          t.mem = s.mem) ∧
        (badRec s rec0 = true → (queueAt t q).store = qu.store ∧ Completed s t q rec0 (7 * 2 ^ 56)))) ∧
    (q < 64 ∧ (qu.busy = true ∨ holding s = true) →
      exec (.doorbell q n) s = .next (putQueue { qu with heldDb := qu.heldDb ++ [n.toNat] } s)) ∧
    (q < 64 ∧ holding s = true →
      exec (.qctlTeardown q) s = .next (putQueue { qu with heldDb := qu.heldDb ++ [64] } s) ∧
      exec (.qctlReset q) s = .next (putQueue { qu with heldDb := qu.heldDb ++ [65] } s)) ∧
    (q < 64 ∧ holding s = false ∧ qu.store = [e] →
      (Does (.qctlTeardown q) s fun t => (queueAt t q).busy = true ∧ (queueAt t q).store = [] ∧
        (queueAt t q).isReset = qu.isReset ∧ Completed s t q e.words (4 * 2 ^ 56)) ∧
      (Does (.qctlReset q) s fun t => (queueAt t q).busy = true ∧ (queueAt t q).store = [] ∧
        (queueAt t q).isReset = true ∧ Completed s t q e.words (4 * 2 ^ 56))) ∧
    (qu.busy = false → exec (.queueTeardownComplete q) s = .next s) ∧
    (qu.busy = true ∧ qu.heldDb = [] ∧ qu.heldRec = [] ∧ (∀ l ∈ s.disp.launches, l.queue ≠ q ∨ l.phase = 4) →
      exec (.queueTeardownComplete q) s = .next (putQueue { qu with
        busy := false, isReset := false, nextSeq := if qu.isReset then 0 else qu.nextSeq
        cursor := if qu.isReset then 0 else qu.cursor, dberr := if qu.isReset then false else qu.dberr } s)) ∧
    (qu.busy = true ∧ holding s = true ∧ qu.heldRec = [] ∧ (∀ l ∈ s.disp.launches, l.queue ≠ q ∨ l.phase = 4) →
      Does (.queueTeardownComplete q) s fun t => (queueAt t q).busy = false ∧ (queueAt t q).heldDb = qu.heldDb) ∧
    (∀ l : Launch, qu.busy = true ∧ qu.heldDb = [] ∧ qu.heldRec = [] ∧ s.disp.launches = [l] ∧ l.queue = q ∧ l.phase = 3 →
      Does (.queueTeardownComplete q) s fun t => (launchAt t l.id).phase = 4 ∧ (queueAt t q).busy = false) ∧
    (qu.store[index]? = some e ∧ e.deps[entry]? = some false ∧ e.heldBy = none ∧ loaded s (recModule e.words) = some m ∧
        walk s m.asid (recDep e.words entry) = some x ∧ homeKey s x (recDep e.words entry) < 2 ^ 60 ∧
        homeReady s (homeKey s x (recDep e.words entry)) false = none →
      let st := s.mem.hbm.readN (homeKey s x (recDep e.words entry)) 8 / 2 ^ 56
      (st = recWant e.words entry → exec (.dependencySatisfied q index entry) s = .next (putQueue { qu with
        store := setAt qu.store index { e with deps := setAt e.deps entry true } } s)) ∧
      (st = 0 ∧ recWant e.words entry ≠ 0 → exec (.dependencySatisfied q index entry) s = .next s) ∧
      (st ≠ 0 ∧ st ≠ recWant e.words entry → Does (.dependencySatisfied q index entry) s fun t =>
        (queueAt t q).store = qu.store.eraseIdx index ∧ Completed s t q e.words (3 * 2 ^ 56)))

/-- R306, R307, R310, R311, R313, R320, R328, R366: a launch is dispatched, becomes resident, is released, cuts its
steps; a rank is moved; a launch whose contexts are all asleep ends.  When a launch is placed, which placements there are,
which head goes first, what fits nowhere, where a partition lies, when a cut may be made, how a rank moves, and from which stage
of the boot on launches run are the model's readings (log entries 38, 41, 42, 43, 44, 46, 48, 49, 110, 111). -/
def Obligations.LaunchSteps : Prop :=
  ∀ (s : State) (q id rank goal va : Nat) (place : List Nat) (e : QEntry) (m : Module) (en : RankEntry), Canon s →
    let l := launchAt s id
    let at_ := ctxOf s en.ctx
    let ms := movers s l at_ goal
    (launchesRun s = false ∨ braking s = true → exec (.dispatch place) s = .next s) ∧
    (Dispatches s ∧ OneHead s q e ∧ loaded s (recModule e.words) = some m →
      let room := placeable s m
      (room = true ∧ placementOk s m q place = true → Does (.dispatch place) s fun t =>
        (queueAt t q).store = [] ∧ t.disp.lastQ = q ∧ t.mem = s.mem ∧ (∀ k ∈ place, (ctxOf t k).run = .unbound) ∧
        ∃ x ∈ t.disp.launches, x.queue = q ∧ x.seq = e.seq ∧ x.words = e.words ∧ x.module = m.id ∧ x.phase = 1 ∧
          x.place = place ∧ x.ranks = [] ∧ x.handoff = e.handoff ∧ x.since = s.steps ∧
          bases s m q (placed m place) [] = some x.parts) ∧
      (room = true ∧ placementOk s m q place = false → exec (.dispatch place) s = .next s) ∧
      (room = false → Does (.dispatch place) s fun t => (queueAt t q).store = [] ∧
        t.disp.launches = s.disp.launches ∧ Completed s t q e.words (6 * 2 ^ 56 + 2 * 2 ^ 48))) ∧
    (∀ hs, Dispatches s ∧ orderedHeads s = (q, e) :: hs ∧ loaded s (recModule e.words) = some m ∧
        placeable s m = true ∧ (findPlace s m q).isSome = true ∧
        placementOk s m q place = false → exec (.dispatch place) s = .next s) ∧
    (l.phase = 1 ∧ tearing s l = false ∧ l.module = m.id ∧ moduleAt s m.id = m ∧ recNres l.words = 0 ∧ s.host.tags = [] →
      (m.resident = [] ∧ l.place.length = (instances m.actors).length ∧ l.place.Nodup ∧
          (∀ k ∈ l.place, (ctxOf s k).run = .unbound) → Does (.residencyStage id) s fun t =>
        let x := launchAt t id
        x.phase = 2 ∧ x.leased = [] ∧ x.place = [] ∧ x.ranks.map (·.ctx) = l.place ∧
        ∀ k ∈ l.place, (ctxOf t k).run = .stopped ∧ (ctxOf t k).bind.launch = id ∧
          rankEntry x (ctxOf t k).bind.rank = { valid := true, transit := false, ctx := k }) ∧
      (∀ h off len (x : HandleEntry), m.resident = [(h, off, len)] ∧ 4 ≤ h ∧ m.handles[h - 4]? = some x ∧ 0 < len ∧
          x.base + off = va ∧ va % 4096 + len ≤ 4096 →
        (walk s m.asid (va / 4096 * 4096) = none → Does (.residencyStage id) s fun t => (launchAt t id).phase = 1 ∧
          ∃ y, t.host.tags = [y] ∧ y.kind = 2 ∧ y.who = id ∧ y.source = 0 ∧ y.va = va / 4096 * 4096 ∧ y.tag = 0) ∧
        (walk s m.asid (va / 4096 * 4096) ≠ none → Does (.residencyStage id) s fun t => (launchAt t id).phase = 2 ∧
          (launchAt t id).leased = [(h, off, len)] ∧ t.host.tags = []))) ∧
    (tearing s l = true → exec (.residencyStage id) s = .next s ∧ exec (.stageRelease id) s = .next s ∧
      exec (.stepCut id) s = .next s ∧ exec (.deadlock id) s = .next s) ∧
    (l.phase = 2 ∧ brownStopped s = false ∧ tearing s l = false → Does (.stageRelease id) s fun t => (launchAt t id).phase = 3 ∧
      (launchAt t id).stage = 0 ∧ t.mem = s.mem ∧
      t.cur = (if s.cur.bind.launch = id ∧ s.cur.run = .stopped ∧ s.cur.issued = false ∧
          (stagesOf (moduleAt s l.module)).getD s.cur.bind.actor 0 = 0 then { s.cur with run := .running } else s.cur)) ∧
    (mayCut s l = true ∧ (moduleAt s l.module).graph.isSome = true ∧ recSteps l.words = 0 → Does (.stepCut id) s fun t =>
      (launchAt t id).step = l.step + 1 ∧ (launchAt t id).done = l.done + 1 ∧ (launchAt t id).undo = [] ∧
      (launchAt t id).nonRollback = false ∧ (launchAt t id).stepDone = false ∧ (launchAt t id).phase = 3 ∧
      (s.cur.bind.launch = id ∧ s.cur.run = .running ∧ s.cur.a.immx = [] ∧ (myCore s).sbuf = [] ∧
          (∀ c ∈ s.others, c.id ≠ s.cur.id) →
        let x := ctxOf t s.cur.id
        x.a = { s.cur.a with sr := { s.cur.a.sr with step := s.cur.a.sr.step + 1 } } ∧ x.restart = some x.a ∧
        x.restartRun = .running)) ∧
    (mayCut s l = true ∧ ((moduleAt s l.module).graph.isSome = false ∨ recSteps l.words ≠ 0 ∧ recSteps l.words ≤ l.done + 1) →
      Does (.stepCut id) s fun t => (launchAt t id).phase = 4) ∧
    (mayCut s l = false → exec (.stepCut id) s = .next s) ∧
    (l.phase = 3 ∧ l.ranks[rank]? = some en ∧ at_.bind.launch = id ∧ at_.bind.rank = rank ∧ at_.run ≠ .unbound →
      let moved := fun (t : State) => (launchAt t id).ranks[rank]? = some { valid := true, transit := false, ctx := goal } ∧
        (ctxOf t goal).bind = at_.bind ∧ (ctxOf t en.ctx).run = .unbound
      let marked := ∀ k ∈ ms, (rankEntry l (ctxOf s k.1).bind.rank).transit = true
      (mayMove s l at_ goal = false → exec (.rankRelocate id rank goal) s = .next s) ∧
      (mayMove s l at_ goal = true ∧ en.transit = false → Does (.rankRelocate id rank goal) s fun t =>
        (launchAt t id).ranks[rank]? = some { en with transit := true } ∧ t.mem = s.mem ∧ t.cur = s.cur) ∧
      (mayMove s l at_ goal = true ∧ en.transit = true ∧ clusterOf goal = clusterOf en.ctx →
        (mayReplace s l at_ = true → Does (.rankRelocate id rank goal) s moved) ∧
        (mayReplace s l at_ = false → exec (.rankRelocate id rank goal) s = .next s)) ∧
      (mayMove s l at_ goal = true ∧ marked ∧ dieOf goal ≠ dieOf en.ctx →
        (l.nonRollback = false ∧ logLost l = false ∧ ms = [(en.ctx, goal)] → Does (.rankRelocate id rank goal) s moved) ∧
        (l.nonRollback = true ∨ logLost l = true → Does (.rankRelocate id rank goal) s fun t => (launchAt t id).phase = 4))) ∧
    (allAsleep s l = true → Does (.deadlock id) s fun t => (launchAt t id).phase = 4) ∧
    (allAsleep s l = false → exec (.deadlock id) s = .next s)

/-- R24, R317-R319, R334-R336: a traveller arrives in the first tier with room, the leaf moves it on, and an idle
context takes an arrival, the youngest traveller of its own deque, or the oldest of another's.  The floor that a task
begins with, where the overflow list lies and in what order it is emptied, and the tier that an arrival is taken from are the
model's readings (log entries 34, 39, 47, 89). -/
def Obligations.WorkSteps : Prop :=
  ∀ (s : State) (src core ctx other : Nat) (a : Arrival) (as : List Arrival) (d1 d2 : DequeEntry),
    let e := rankEntry (launchAt s a.launch) a.rank
    let k := coreAt s (e.ctx / 4)
    let own := coreAt s (ctx / 4)
    let spl := { a with trav := setSpl a.trav }
    (s.disp.flight = [.trav src a] ∧ stopped s (dieOf e.ctx) = true → exec (.travellerArrival 0) s = .next s) ∧
    (s.disp.flight = [.trav src a] ∧ e.transit = false ∧ stopped s (dieOf e.ctx) = false →
      (k.arr.length < 4 ∧ k.arrRing = [] ∧ k.arrOver = [] → Does (.travellerArrival 0) s fun t => t.disp.flight = [] ∧
        coreAt t (e.ctx / 4) = { k with arrc := k.arrc + 1, arr := k.arr ++ [a] } ∧ t.mem = s.mem ∧ t.cur = s.cur) ∧
      (∀ o key, ringOwner s (e.ctx / 4) a.launch = some o ∧ 0 < o.bind.ring ∧ o.bind.ring ≤ 1020 ∧ k.arr.length = 4 ∧
          k.arrRing = [] ∧ k.arrOver = [] ∧ localKey s (o.id / 4096) o.bind.area o.bind.arqOff = some key ∧
          key % 65536 + 112 ≤ 65536 ∧ s.mem.l1.readN key 8 = 0 ∧ Canon s → Does (.travellerArrival 0) s fun t =>
        coreAt t (e.ctx / 4) = { k with arrc := k.arrc + 1, arsp := k.arsp + 1, arrRing := [spl] } ∧
        t.mem.l1.readN key 8 = 1 ∧ ∀ i, i < 10 → t.mem.l1.readN (key + 32 + 8 * i) 8 = (travW (setSpl a.trav) i).toNat) ∧
      (k.arr.length = 4 ∧ ringSlots s (e.ctx / 4) a.launch = 0 ∧ k.arrOver.length < 819 → Does (.travellerArrival 0) s fun t =>
        t.disp.flight = [] ∧ coreAt t (e.ctx / 4) = { k with
          arrc := k.arrc + 1, arov := k.arov + 1, arrOver := k.arrOver ++ [spl] }) ∧
      (k.arr.length = 4 ∧ ringSlots s (e.ctx / 4) a.launch = 0 ∧ k.arrOver.length = 819 →
        Does (.travellerArrival 0) s fun t => (launchAt t a.launch).phase = 4)) ∧
    (s.disp.flight = [.trav src a] ∧ e.transit = true → exec (.travellerArrival 0) s = .next s) ∧
    ((coreAt s core).arrOver = a :: as ∧ (coreAt s core).arr.length < 4 ∧ (coreAt s core).arrRing = [] ∧
        ringSlots s core a.launch = 0 →
      exec (.overflowListMove core) s = .next (putCore { coreAt s core with
        arr := (coreAt s core).arr ++ [a], arrOver := as } s)) ∧
    ((coreAt s core).arrOver = a :: as ∧ 0 < ringSlots s core a.launch ∧ ringSlots s core a.launch ≤
        ((coreAt s core).arrRing.filter (fun x => x.launch == a.launch)).length → exec (.overflowListMove core) s = .next s) ∧
    (let l := launchAt s s.cur.bind.launch
     let m := moduleAt s s.cur.bind.module
     let begun := fun (t : State) (tr : Traveller) => t.cur.run = .running ∧ t.cur.a.pc = nat64 ((travPc tr).toNat / 4 * 4) ∧ t.cur.bind = s.cur.bind ∧
       (rd t 2 = mkPtr 1 s.cur.bind.stack) ∧ (∀ i : Nat, (h : i < 8) → t.cur.a.g[3 + i] = travW tr (1 + i)) ∧
       t.cur.a.sr.joinp = travJoin tr ∧ t.cur.a.sr.afl = 0 ∧ t.cur.a.sr.spcnt = 0 ∧ t.cur.a.sr.splim = nat64 (splimOf m s.cur) ∧
       t.cur.a.sr.afen = nat64 m.afen ∧ t.cur.a.sr.mpart = s.cur.a.sr.mpart ∧ t.cur.a.sr.arq = s.cur.a.sr.arq ∧
       t.cur.a.sr.step = s.cur.a.sr.step ∧ t.cur.floor = s.cur.floor
     s.cur.id = ctx ∧ s.cur.run = .idle ∧ (s.cur.pre = .running ∨ s.cur.pre = .requested) ∧ l.phase = 3 ∧ (queueAt s l.queue).busy = false ∧
         (rankEntry l s.cur.bind.rank).transit = false ∧
         (∀ h ∈ s.host.holds, h.1 ≠ s.cur.bind.launch) ∧ (dieAt s (ctx / 16384)).relock = none ∧ brownStopped s = false ∧
         own.arrRing = [] ∧ own.arrOver = [] ∧ own.dequeRing = [] →
       (own.arr = [a] ∧ a.launch = s.cur.bind.launch ∧ a.rank = s.cur.bind.rank ∧ a.parent = none → Does (.taskPickup ctx) s fun t =>
         begun t a.trav ∧ (coreAt t (ctx / 4)).arr = [] ∧
         t.cur.handoff = owedIn s (ctx / 4096) s.cur.handoff ++ a.handoff.filter (fun h => h.1 != ctx / 4096)) ∧
       (own.arr = [] ∧ own.deque = [d1, d2] ∧ d2.launch = s.cur.bind.launch → Does (.taskPickup ctx) s fun t =>
         begun t d2.trav ∧ (coreAt t (ctx / 4)).deque = [d1]) ∧
       (own.arr = [] ∧ own.deque = [] ∧ (actorAt m s.cur.bind.actor).steal = 0 ∧ other = ctx / 32 * 8 + (ctx / 4 + 1) % 8 ∧
           (coreAt s other).deque = [d1, d2] ∧ (coreAt s other).dequeRing = [] ∧ d1.launch = s.cur.bind.launch →
         Does (.steal ctx) s fun t => begun t d1.trav ∧ (coreAt t other).deque = [d2])) ∧
    (s.cur.id = ctx ∧ s.cur.run ≠ .idle → exec (.taskPickup ctx) s = .next s ∧ exec (.steal ctx) s = .next s)

/-! ### Device steps: strands and clocks, pre-emption, faults (files 75, 80, 85) -/

/-- R322-R327, R397-R401, R404: strands throttle, are measured, powered and loaded; the governor asks for a code, a
frequency step ramps the supply and relocks, and reference time is set and slewed.  The measured power and deviations
are arguments of the steps (log entry 82); when the governor's step starts, how a set of RTM moves the clocks, what CYC reads in
a relock, and what a boot that stands still does are the model's readings (log entries 58, 59, 60, 61). -/
def Obligations.ClockSteps : Prop :=
  ∀ (s : State) (strand low cycles core die code power v : Nat) (ppm dev : Int) (a b c d : Nat),
    let k := strandAt s strand
    let on := powered s strand = true
    let x := dieAt s die
    let goes := die < 4 ∧ 12 ≤ code ∧ code ≤ 18 ∧ x.fix = false ∧ x.target = code ∧ x.relock = none ∧ x.ramp = none ∧
      x.lastStep = none ∧ s.plat.brownAt = none
    let starts := fun (t : State) => ∃ T, (dieAt t die).relock = some (code, T) ∧ s.plat.moment ≤ T * 111384 ∧ T ≤ rtm s + 10 ∧
      (x.base % 111384 = 0 ∧ x.base ≤ s.plat.moment → (T * 111384 - x.base) % (1113840 / x.code) = 0)
    (k.throttled = false ∧ on →
      (45 ≤ low ∧ 16 ≤ cycles → exec (.strandThrottle strand low cycles) s =
        .next (putStrand { k with throttled := true, since := cyc s (strand * 128) } s)) ∧
      (low < 45 ∨ cycles < 16 → exec (.strandThrottle strand low cycles) s = .next s)) ∧
    (k.throttled = true →
      (low ≤ 15 ∧ 1024 ≤ cycles → exec (.strandUnthrottle strand low cycles) s =
        .next (putStrand { k with throttled := false, thrc := k.thrc + (cyc s (strand * 128) - k.since) } s)) ∧
      (15 < low ∨ cycles < 1024 → exec (.strandUnthrottle strand low cycles) s = .next s)) ∧
    (rtm s / 1024 ≤ k.window → exec (.strimbWindow strand [a, b, c, d]) s = .next s) ∧
    (on ∧ k.window < rtm s / 1024 → Does (.strimbWindow strand [a, b, c, d]) s fun t =>
      (strandAt t strand).strimb = max (max a b) (max c d) ∧ (strandAt t strand).window = rtm s / 1024 ∧
      (strandAt t strand).strimbTile = strand % 32 * 4 +
        (if b ≤ a ∧ c ≤ a ∧ d ≤ a then 0 else if c ≤ b ∧ d ≤ b then 1 else if d ≤ c then 2 else 3)) ∧
    (bootStopped s = true ∨ groupCount s ≤ s.plat.strandGroups → exec .strandPowerUp s = .next s) ∧
    (s.plat.stage = 3 ∧ bootStopped s = false ∧ s.plat.strandGroups < groupCount s →
      (s.plat.groupAt = none ∨ (∃ g, s.plat.groupAt = some g ∧ g + 2000 ≤ rtm s) → exec .strandPowerUp s =
        .next { s with plat := { s.plat with strandGroups := s.plat.strandGroups + 1, groupAt := some (rtm s) } }) ∧
      (∀ g, s.plat.groupAt = some g ∧ rtm s < g + 2000 → exec .strandPowerUp s = .next s)) ∧
    (powered s (core / 32) = true ∧ readyOn s core = [] →
      (10 ≤ dev → Does (.ballastIssue core dev) s fun t => (coreAt t core).gated = false ∧
        (strandAt t (core / 32)).balc = (strandAt s (core / 32)).balc + 1) ∧
      (dev < 10 ∧ allParked s core = false →
        exec (.ballastIssue core dev) s = .next (putCore { coreAt s core with gated := false } s)) ∧
      (dev < 10 ∧ allParked s core = true ∧ mayGate s core = true →
        exec (.ballastIssue core dev) s = .next (putCore { coreAt s core with gated := true } s)) ∧
      (dev < 10 ∧ allParked s core = true ∧ mayGate s core = false →
        Does (.ballastIssue core dev) s fun t => (coreAt t core).gated = false ∧ (strandAt t (core / 32)).balc = (strandAt s (core / 32)).balc + 1)) ∧
    ((∀ j, j < 4 → (dieAt s j).fix = false ∧ (dieAt s j).code = code) →
      (s.plat.pcap < power ∧ 13 ≤ code ∧ code ≤ 18 → exec (.governorTick power) s = .next (putDie 0 { dieAt s 0 with target := code - 1 } s)) ∧
      (power * 10 < s.plat.pcap * 9 ∧ 12 ≤ code ∧ code ≤ 17 → exec (.governorTick power) s =
        .next (putDie 0 { dieAt s 0 with target := code + 1 } s)) ∧
      (power ≤ s.plat.pcap ∧ s.plat.pcap * 9 ≤ power * 10 → exec (.governorTick power) s = .next s)) ∧
    (goes →
      (x.code < code → exec (.frequencyStep die code) s = .next (putDie die { x with lastStep := some (rtm s), ramp := some code } s)) ∧
      (code < x.code ∧ x.code ≤ 18 → Does (.frequencyStep die code) s fun t => starts t ∧ (dieAt t die).lastStep = some (rtm s) ∧
        (dieAt t die).ramp = none ∧ (dieAt t die).code = x.code)) ∧
    (die < 4 ∧ x.ramp = some code →
      (12 ≤ x.code ∧ x.code < code ∧ code ≤ 18 → Does (.supplyRampDone die) s fun t => starts t ∧ (dieAt t die).ramp = none ∧
        (dieAt t die).supply = code) ∧
      (code ≤ x.code → exec (.supplyRampDone die) s = .next (putDie die { x with ramp := none, supply := code } s))) ∧
    (∀ T, die < 4 ∧ x.relock = some (code, T) →
      let C := x.cyc + (T * 111384 - x.base) / (1113840 / x.code)
      (T + 2048 ≤ rtm s → exec (.relockEnd die) s = .next (putDie die { x with
        relock := none, code := code, cyc := C, base := (T + 2048) * 111384, fsrt := T, fsrc := C, fsrf := x.code + 256 * code
        ramp := if code < x.code then some code else none } s)) ∧
      (rtm s < T + 2048 → exec (.relockEnd die) s = .next s)) ∧
    (s.plat.devready = false ∧ s.plat.rtmSet = false ∧ rtm s < v → Does (.rtmSet v) s fun t => rtm t = v ∧ t.plat.rtmSet = true ∧
      ∀ j, j < 4 → cycAt (dieAt t j) t.plat.moment = cycAt (dieAt s j) s.plat.moment) ∧
    (s.plat.devready = true ∨ s.plat.rtmSet = true → exec (.rtmSet v) s = .next s) ∧
    (-200 ≤ ppm ∧ ppm ≤ 200 → exec (.rtmSlew ppm) s = .next { s with plat := { s.plat with slew := ppm } })

/-- R306, R357-R361, R413: the contexts that hold what a waiting head of higher prio needs are asked to yield, their units
acknowledge, they are saved, and they resume where they stopped.  Which placement is chosen, where a save area lies and what is
resident are the model's readings (log entries 39, 42, 91). -/
def Obligations.PreemptSteps : Prop :=
  ∀ (s : State) (ctx q : Nat) (e : QEntry) (cmd : Cmd) (c : Ctx),
    let l := launchAt s s.cur.bind.launch
    let k := coreAt s (ctx / 4)
    s.cur.id = ctx →
    (s.cur.run ≠ .unbound ∧ s.cur.pre = .running ∧ braking s = false ∧ OneHead s q e →
      let hs := holdersFor s (q, e)
      (l.prio < recPrio e.words ∧ ctx ∈ hs → Does (.preemptionRequest ctx) s fun t =>
        t.cur = { s.cur with pre := .requested, deadline := some (rtm s + 20000) } ∧ t.mem = s.mem ∧
        ∀ k ∈ hs, (k, q) ∈ t.disp.reserved) ∧
      (recPrio e.words ≤ l.prio ∨ ctx ∉ hs → exec (.preemptionRequest ctx) s = .next s) ∧
      (∀ m, loaded s (recModule e.words) = some m →
        ((findPlace s m q).isSome = true → hs = []) ∧
        (hs ≠ [] → ∃ p, placementOk (without hs s) m q p = true) ∧
        ∀ k ∈ hs, ∃ x ∈ s.disp.launches, x.prio < recPrio e.words ∧ ∃ y ∈ ctxsOf s x.id, y.id = k)) ∧
    (∀ d, s.cur.deadline = some d →
      (d ≤ rtm s → exec (.yieldDeadline ctx) s = .next { s with cur := { s.cur with pre := .suspending, deadline := none, acks := [] } }) ∧
      (rtm s < d → exec (.yieldDeadline ctx) s = .next s)) ∧
    (s.cur.pre = .suspending →
      (0 ∉ s.cur.acks ∧ k.sbuf = [] ∧ s.cur.run = .running ∧ s.cur.busyUntil ≤ cyc s ctx ∧ inFlight s s.cur = false ∧ (∀ r ∈ s.homes.reqs, r.ctx ≠ ctx) ∧ (∀ r ∈ s.host.pcie, r.2.ctx ≠ ctx) ∧
          s.disp.flight = [] → Does (.engineAcknowledge ctx 0) s fun t => 0 ∈ t.cur.acks ∧ t.cur.a.g = s.cur.a.g ∧
        t.cur.a.pc = groupPc s ∧ t.cur.a.immx = [] ∧ t.cur.run = .running ∧ t.mem = s.mem ∧
        t.cur.brp = none ∧ t.cur.prio = 0 ∧ t.cur.stream = none) ∧
      (1 ∉ s.cur.acks ∧ k.mq = [cmd] ∧ k.cq = [] ∧ k.out = [] ∧ cmd.ctx = ctx ∧ cmd.finished = false ∧ cmd.kind = .mzero →
        Does (.engineAcknowledge ctx 1) s fun t => 1 ∈ t.cur.acks ∧ t.cur.savedCmds = s.cur.savedCmds ++ [cmd] ∧
          (coreAt t (ctx / 4)).mq = [] ∧ t.mem = s.mem) ∧
      (2 ∉ s.cur.acks ∧ k.cq = [cmd] ∧ k.mq = [] ∧ k.out = [] ∧ cmd.ctx = ctx ∧ cmd.finished = false ∧ cmd.kind = .cpy →
        (cmd.posted = false → Does (.engineAcknowledge ctx 2) s fun t => 2 ∈ t.cur.acks ∧
          t.cur.savedCmds = s.cur.savedCmds ++ [cmd] ∧ (coreAt t (ctx / 4)).cq = [] ∧ t.mem = s.mem) ∧
        (cmd.posted = true → exec (.engineAcknowledge ctx 2) s = .next s)) ∧
      (3 ∉ s.cur.acks → Does (.engineAcknowledge ctx 3) s fun t => 3 ∈ t.cur.acks ∧ t.mem = s.mem ∧
        ∀ x ∈ (clusterAt s (ctx / 4096)).misses, x.2.2 = ctx → (clusterAt t (ctx / 4096)).lowering ≠ some (x.1, x.2.1)) ∧
      (¬(0 ∈ s.cur.acks ∧ 1 ∈ s.cur.acks ∧ 2 ∈ s.cur.acks ∧ 3 ∈ s.cur.acks) → exec (.saveComplete ctx) s = .next s) ∧
      (0 ∈ s.cur.acks ∧ 1 ∈ s.cur.acks ∧ 2 ∈ s.cur.acks ∧ 3 ∈ s.cur.acks ∧ s.inbox = [] ∧ retargeted s ctx = true →
        exec (.saveComplete ctx) s = .next (setPins (ctx / 4096) s.cur.bind.area (blockPages s s.cur).contains false s)) ∧
      (0 ∈ s.cur.acks ∧ 1 ∈ s.cur.acks ∧ 2 ∈ s.cur.acks ∧ 3 ∈ s.cur.acks ∧ s.inbox = [] ∧ s.cur.fcause = 0 ∧ retargeted s ctx = false → Does (.saveComplete ctx) s fun t =>
        t.cur.run = .unbound ∧ t.cur.id = ctx ∧ t.mem = s.mem ∧ ∃ x, t.disp.savedCtx = s.disp.savedCtx ++ [x] ∧ x.pre = .saved ∧
          x.a = s.cur.a ∧ x.bind = s.cur.bind ∧ x.savedCmds = s.cur.savedCmds ∧ x.savedSlots = partSlots s s.cur)) ∧
    (s.cur.pre ≠ .suspending → exec (.saveComplete ctx) s = .next s) ∧
    (s.cur.run = .unbound ∧ s.disp.savedCtx = [c] ∧ c.id = ctx ∧ c.pre = .saved ∧ (launchAt s c.bind.launch).phase = 3 ∧
        fieldOf c.a.sr.mpart 8 8 = 0 ∧ ctx < 65536 ∧ s.plat.gl4012 = false ∧ s.disp.reserved = [] ∧
        (clusterAt s (ctx / 4096)).out = false ∧ braking s = false ∧ (∀ x ∈ s.disp.launches, x.phase ≠ 1) ∧
        roomToResume s c = true ∧ (∀ h ∈ s.host.holds, h.1 ≠ c.bind.launch) → Does (.resuming ctx) s fun t =>
      t.disp.savedCtx = [] ∧ t.cur.id = ctx ∧ t.cur.run = c.run ∧ t.cur.pre = .running ∧ t.cur.bind = c.bind ∧ t.cur.a.pc = c.a.pc ∧
      t.cur.a.sr = c.a.sr ∧ t.cur.a.g = (match c.coop with
        | some d => setReg c.a.g d 1
        | none => c.a.g) ∧ t.mem = s.mem) ∧
    (s.disp.savedCtx = [c] ∧ c.id = ctx ∧ (∃ h ∈ s.host.holds, h.1 = c.bind.launch) → exec (.resuming ctx) s = .next s) ∧
    (∀ a : Arch, c.restart = some a → (restartRecord c).getD 48 0 = a.pc ∧
      ∀ i : Nat, (h : i < 32) → (restartRecord c).getD i 0 = a.g[i]) ∧
    (let w := saveRecord c
     let word := fun (i : Nat) => (w.getD i 0).toNat
     w.length = 75 ∧ (∀ i : Nat, (h : i < 32) → w.getD i 0 = c.a.g[i]) ∧ w.getD 48 0 = c.a.pc ∧
     (c.pre = .suspending → word 49 % 16 = 1) ∧ (c.pre = .saved → word 49 % 16 = 2) ∧ (c.pre = .held → word 49 % 16 = 3) ∧
     (c.pre = .ended → word 49 % 16 = 4) ∧ word 49 / 2 ^ 8 % 256 = c.fcause % 256 ∧ word 49 / 2 ^ 16 = c.bind.rank % 65536 ∧
     w.getD 50 0 = c.a.sr.afl ∧ w.getD 65 0 = c.a.sr.cpyc ∧ word 66 % 65536 = c.a.wake.toNat ∧ w.getD 72 0 = c.fpc ∧
     w.getD 73 0 = c.fval ∧ w.getD 74 0 = c.cmd)

/-- R246, R353-R356, R360, R367, R368, R371: what the leaf does with a fault it has received: refill, rollback, hold,
or the end of the launch; and what a hold may end with.  When a hold begins, and what poison or a lost release takes back, are
the model's readings (log entries 50, 51, 52, 53, 94). -/
def Obligations.FaultSteps : Prop :=
  ∀ (s : State) (ctx cluster frame : Nat) (m : LeafMsg) (a : Arch) (u : Undo) (y : Backed) (key f t0 : Nat), Canon s →
    let l := launchAt s s.cur.bind.launch
    let faulted := s.inbox = [m] ∧ m.ctx = ctx ∧ s.cur.id = ctx ∧ s.cur.run = .stopped ∧ s.cur.fcause = m.cause ∧ m.cause ≠ 0 ∧
      cutPending s l = false
    let off := (entryIn s.cur.handles (hv m.val)).base + ov m.val
    let cl := clusterAt s (ctx / 4096)
    (s.inbox = [] → exec .faultHold s = .next s) ∧
    (s.inbox = [m] ∧ m.ctx = ctx ∧ s.cur.id = ctx ∧ s.cur.run = .stopped ∧ s.cur.fcause = m.cause ∧ m.cause ≠ 0 ∧ cutPending s l = true →
      exec .faultHold s = .next s ∧ exec (.rollback l.id) s = .next s) ∧
    (faulted ∧ m.cause ∈ [1, 11, 12, 13, 14, 15] → Does .faultHold s fun t => (launchAt t s.cur.bind.launch).phase = 4) ∧
    (faulted ∧ m.cause ∈ [2, 3, 4, 5, 9] ∧ s.host.faultHold = 0 → Does .faultHold s fun t =>
      (launchAt t s.cur.bind.launch).phase = 4) ∧
    (faulted ∧ m.cause ∈ [2, 3, 4, 5, 9] ∧ 0 < s.host.faultHold ∧ (∀ x ∈ ctxsOf s s.cur.bind.launch, canStop s x.id = true) ∧
        s.host.tags = [] ∧ s.host.holds = [] ∧ s.cur.pre = .running → Does .faultHold s fun t =>
      t.inbox = [] ∧ t.host.holds = [(l.id, ctx, rtm s + s.host.faultHold * 1000000)] ∧ (ctxOf t ctx).pre = .held ∧
      t.host.tags = [{ tag := 0, kind := 1, who := ctx, seq := l.id }]) ∧
    (s.inbox = [m] ∧ (ctxOf s m.ctx).run ≠ .stopped → exec .faultHold s = .next { s with inbox := [] }) ∧
    (∀ h, s.host.holds = [(h, ctx, t0)] ∧ s.disp.savedCtx = [] →
      ((∀ w ∈ s.disp.cwWaiting, w.tag.isSome = true) ∧ s.cur.id = ctx ∧ s.cur.pre = .held ∧ s.cur.deadline = none → Does (.hostCmdResume ctx) s fun t => t.host.holds = [] ∧
        t.cur.run = .running ∧ t.cur.fcause = 0 ∧ t.cur.pre = .running ∧ t.cur.a = s.cur.a ∧ t.mem = s.mem) ∧
      (Does (.hostCmdEnd ctx) s fun t => (launchAt t h).phase = 4 ∧ ∀ z ∈ t.host.holds, z.1 ≠ h) ∧
      (t0 ≤ rtm s → Does (.faultHoldExpiry ctx) s fun t => (launchAt t h).phase = 4 ∧ ∀ z ∈ t.host.holds, z.1 ≠ h) ∧
      (rtm s < t0 → exec (.faultHoldExpiry ctx) s = .next s)) ∧
    (faulted ∧ m.cause = 7 ∧ s.homes.dead = [] ∧ (∀ c ∈ s.others, c.id ≠ ctx) →
      (l.nonRollback = false ∧ s.cur.restart = some a ∧ s.cur.restartRun = .running →
        (l.undo = [] → Does (.rollback l.id) s fun t => t.inbox = [] ∧ (ctxOf t ctx).a = a ∧ (ctxOf t ctx).fcause = 0 ∧
          (ctxOf t ctx).run = .running ∧ (launchAt t l.id).undo = []) ∧
        (l.undo = [u] ∧ u.bad = none ∧ u.isLocal = true ∧ localKey s u.cluster u.tag u.line = some key → Does (.rollback l.id) s fun t =>
          t.mem.l1.readN key 128 = u.old.toNat ∧ (ctxOf t ctx).a = a ∧ (launchAt t l.id).undo = [])) ∧
      (l.nonRollback = true ∨ logLost l = true → Does (.rollback l.id) s fun t => (launchAt t l.id).phase = 4)) ∧
    (faulted ∧ m.cause = 6 ∧ off % 65536 < 65473 →
      (frameOf cl s.cur.bind.area (off / 65536) = some f → Does (.l1pageRefill ctx) s fun t => t.inbox = [] ∧
        t.cur = { s.cur with run := .running, fcause := 0 } ∧ t.mem = s.mem) ∧
      (frameOf cl s.cur.bind.area (off / 65536) = none ∧ freeFrames cl 1 = [f] ∧ roomFor cl (homeOf y.entry) = true ∧ s.cur.bind.area < 65536 ∧ off < 2 ^ 28 ∧
          backedPage s (ctx / 4096) s.cur.bind.area (off / 65536) = some y ∧ Memory.wf y.bytes = true →
        Does (.l1pageRefill ctx) s fun t => t.inbox = [] ∧ t.cur = { s.cur with run := .running, fcause := 0 } ∧
          (∀ i, i < 65536 → t.mem.l1.read (ctx / 4096 * 2 ^ 28 + f * 65536 + i) = Memory.read i y.bytes))) ∧
    (let e := pmOf (clusterAt s cluster) frame
     (pmValid e = true ∧ pmUse e = 0 ∧ pmPin e = false ∧ frameBusy s cluster frame = false → Does (.frameEviction cluster frame) s fun t =>
        (∀ x ∈ (clusterAt t cluster).pageMap, x.1 ≠ frame) ∧ ∃ b, t.mem.backing = s.mem.backing ++ [b] ∧ b.cluster = cluster ∧
          b.area = pmArea e ∧ b.page = pmPage e ∧
          ∀ i, i < 65536 → Memory.read i b.bytes = s.mem.l1.read (cluster * 2 ^ 28 + frame * 65536 + i)) ∧
     (pmPin e = true → exec (.frameEviction cluster frame) s = .next s))

/-! ### Device steps: the host link, boot, the network (files 85, 90, 95) -/

/-- R285-R287, R377-R379, R384, R385: the TLB walk, host lines, the host's accesses of HBM, and bias flips.  The
answers of ATS are arguments of the step (log entry 55); what becomes of a flipped page's records, and the slice that a host's
access names, are the model's readings (log entries 56, 57). -/
def Obligations.HostLineSteps : Prop :=
  ∀ (s : State) (c asid va addr line size : Nat) (e : TlbEntry) (l : Line) (mask : BitVec 128) (data : BitVec 1024) (v : Word64)
    (write exclusive : Bool), Canon s →
    let tgt := fieldOf e.pte 60 2
    let h := hostLineOf s line
    let mine := line % 128 = 0 ∧ atHostAgent s line = true ∧ flipping s line = false
    let clear := (∀ k, k < 16 → ∀ y ∈ (clusterAt s k).lines, y.home ≠ line) ∧ recOf s line = none
    let free := addr < (if s.plat.gl4012 then 384 else 512) * 2 ^ 30 ∧ inHostBias s addr = false ∧ flipping s addr = false
    let page := fieldOf s.host.bfctl 0 23
    (walk s asid va = none → exec (.tlbWalk c asid va 0 addr) s = .next { s with host := { s.host with ats := false } }) ∧
    (walk s asid va = some e →
      (Does (.tlbWalk c asid va 0 addr) s fun t => e ∈ (clusterAt t c).tlb ∧ (c / 4, e) ∈ t.host.dieTlb ∧
        t.mem = s.mem ∧ t.cur = s.cur ∧ t.host.ats = false) ∧
      ((tgt = 0 ∨ tgt = 3) → Does (.tlbWalk c asid va 1 addr) s fun t => e ∈ (clusterAt t c).tlb ∧ t.host.ats = true) ∧
      (tgt = 1 ∨ tgt = 2 → Does (.tlbWalk c asid va 1 addr) s fun t => ∃ y ∈ (clusterAt t c).tlb,
        y.asid = e.asid ∧ y.va = e.va ∧ y.size = e.size ∧ fieldOf y.pte 12 40 = addr / 4096 % 2 ^ 40 ∧
        fieldOf y.pte 0 12 = fieldOf e.pte 0 12 ∧ fieldOf y.pte 52 12 = fieldOf e.pte 52 12) ∧
      ((tgt = 1 ∨ tgt = 2) ∧ s.host.tags = [] → Does (.tlbWalk c asid va 2 addr) s fun t =>
        ∃ y, t.host.tags = [y] ∧ y.kind = 3 ∧ y.tag = 0 ∧ y.va = va ∧ t.clusters = s.clusters)) ∧
    (mine ∧ clear ∧ (∀ b ∈ s.homes.busy, b.line ≠ line) →
      (Does (.hostSnoop line false data) s fun t => t.mem = s.mem ∧ (hostLineOf t line).presence = h.presence ∧
        (hostLineOf t line).st = (if h.st = .m then .o else if h.st = .e then .s else h.st)) ∧
      (Does (.hostSnoop line true data) s fun t => (hostLineOf t line).st = .i ∧ (hostLineOf t line).presence = 0 ∧
        homeLine t line = data ∧ t.mem.l1 = s.mem.l1)) ∧
    (mine ∧ recOf s line = none ∧ (∀ b ∈ s.homes.busy, b.line ≠ line) ∧ c < 16 ∧ c ∉ s.homes.dead ∧ (clusterAt s c).lines = [l] ∧
        l.home = line ∧ (∀ k, k < 16 → k ≠ c → ∀ y ∈ (clusterAt s k).lines, y.home ≠ line) →
      exec (.hostSnoop line write data) s =
        .next (sendDrain { line := line, agent := c, rel := 0, ctx := 65536, recalling := true } (holdLine line s))) ∧
    (mine ∧ line ∈ s.homes.snooped → homeReady s line write ≠ none) ∧
    (mine ∧ c < 16 ∧ c ∉ s.homes.dead ∧ (clusterAt s c).lines = [l] ∧ l.home = line ∧ l.va % 128 = 0 ∧ l.mask ≠ 0 → Does (.recall c line) s fun t =>
      (clusterAt t c).lines = [] ∧ (hostLineOf t line).presence.getLsbD c = false ∧
      ∀ k, k < 128 → homeReadN t (line + k) 1 = if l.mask.getLsbD k then (byteOf (lineData s c l) k).toNat else homeReadN s (line + k) 1) ∧
    (mine ∧ line ∉ s.homes.surrendered → exec (.hostLineGrant line exclusive) s = .next (putHostLine { h with
      st := match h.st, exclusive with
        | .i, true => .e
        | .i, false => .s
        | .s, true => .e
        | .o, true => .m
        | x, _ => x } s)) ∧
    (free → exec (.cxlMemRead addr size) s = .next { letLine (addr / 128 * 128) s with host := { s.host with
      memReads := (addr, size, s.mem.hbm.readN addr size) :: s.host.memReads } }) ∧
    (free ∧ s.homes.recs = [] ∧ ioTurn s (placeOf s (addr / 128 * 128)).1 (addr / 128 * 128) = true → Does (.cxlMemWrite addr mask data) s fun t =>
      (∀ k, k < 128 → t.mem.hbm.read (addr / 128 * 128 + k) =
        if mask.getLsbD k then byteOf data k else s.mem.hbm.read (addr / 128 * 128 + k)) ∧
      (∀ a, a < addr / 128 * 128 ∨ addr / 128 * 128 + 128 ≤ a → t.mem.hbm.read a = s.mem.hbm.read a) ∧
      ∃ r, recOf t (addr / 128 * 128) = some r ∧ r.agent = 16 ∧ r.valid = true ∧ r.dr = true) ∧
    (bitOf s.host.bfctl 63 = false → Does (.biasFlip v) s fun t => t.mem = s.mem ∧ (∀ i, i < 64 →
      t.host.bfctl.getLsbD i = (v.getLsbD i && (i == 63 || i == 61 || decide (i < 23))))) ∧
    (bitOf s.host.bfctl 63 = true → exec (.biasFlip v) s =
      .next { s with host := { s.host with bfctl := s.host.bfctl ||| nat64 (2 ^ 62) } }) ∧
    (bitOf s.host.bfctl 63 = true ∧ s.homes.busy = [] ∧ s.homes.recs = [] ∧ (∀ k, k < 16 → (clusterAt s k).lines = []) ∧ masked s 66 = false →
      Does .biasFlipDone s fun t => bitOf t.host.bfctl 63 = false ∧ t.host.fired = 66 :: s.host.fired ∧
        (page ∈ t.host.hostBias ↔ bitOf s.host.bfctl 61 = true) ∧ t.mem = s.mem) ∧
    (bitOf s.host.bfctl 63 = false → exec .biasFlipDone s = .next s) ∧
    (write = true ∧ mine ∧ (∃ b ∈ s.homes.busy, b.line = line) → exec (.hostSnoop line write data) s = .next s)

/-- R26, R302, R355, R373, R376, R380-R382, R386-R389, R403: replies, completions and the host-visible registers.  That a vector
is masked at reset is the family's (log entry 109). -/
def Obligations.HostRegisterSteps : Prop :=
  ∀ (s : State) (tag status data ctx h q slot word k : Nat) (r : HomeReq) (d : Reg) (f : Nat) (e : TagEntry) (tg : BitVec 8)
    (v w0 w1 w2 : Word64) (n : BitVec 32) (x0 x1 x2 x3 : Word64) (core : Core) (x : SBEntry), Canon s →
    let run := bitOf s.host.sdctl 63
    let pages := fieldOf v 32 16
    let unit := [4096, 65536, 2 ^ 21, 2 ^ 30].getD (fieldOf v 16 2) 0
    let asid := fieldOf s.host.sdctl 0 16
    let lo := s.host.sdva.toNat
    let from_ := s.host.sdrun.toNat
    let hi := from_ + fieldOf s.host.sdctl 32 16 * [4096, 65536, 2 ^ 21, 2 ^ 30].getD (fieldOf s.host.sdctl 16 2) 0
    let size := fieldOf v 0 13
    (bitOf v 63 = true →
      (run = false ∧ pages ≠ 0 ∧ lo % unit = 0 → Does (.shootdown v) s fun t => t.mem = s.mem ∧ bitOf t.host.sdctl 63 = true ∧
        bitOf t.host.sdctl 62 = false ∧ fieldOf t.host.sdctl 32 16 = pages ∧ fieldOf t.host.sdctl 16 2 = fieldOf v 16 2 ∧
        fieldOf t.host.sdctl 0 16 = fieldOf v 0 16 ∧ t.host.sdrun = s.host.sdva) ∧
      (run = true ∨ pages = 0 ∨ lo % unit ≠ 0 → exec (.shootdown v) s =
        .next { s with host := { s.host with sdctl := s.host.sdctl ||| nat64 (2 ^ 62) } })) ∧
    (run = true ∧ s.homes.reqs = [] ∧ s.host.pcie = [] ∧ s.homes.calReqs = [] ∧
        (∀ k ∈ s.cores, k.out = [] ∧ ∀ x ∈ k.sbuf, ¬(x.isGlobal = true ∧ x.asid = asid ∧ x.addr < hi ∧ from_ < x.addr + x.size)) ∧
        masked s 67 = false → Does .shootdownDone s fun t =>
      bitOf t.host.sdctl 63 = false ∧ 67 ∈ t.host.fired ∧ t.cur.a = s.cur.a ∧
      (∀ j, ∀ y ∈ (clusterAt t j).tlb, ¬(y.asid = asid ∧ y.va < hi ∧ from_ < y.va + y.size)) ∧
      (∀ y ∈ t.host.dieTlb, ¬(y.2.asid = asid ∧ y.2.va < hi ∧ from_ < y.2.va + y.2.size))) ∧
    (s.cores = [core] ∧ core.sbuf = [x] ∧ drainable s core.id 0 = false ∧ x.isGlobal = true ∧ x.asid = asid ∧ x.addr < hi ∧
        from_ < x.addr + x.size → exec .shootdownDone s = .next s) ∧
    (run = false → exec .shootdownDone s = .next s) ∧
    (s.host.pcie = [(tag, r)] ∧ r.ctx = s.cur.id ∧ r.acq = false ∧ r.zlr = false ∧ r.op = .load d f ∧ f < 15 →
      (status = 0 → Does (.pcieCompletion tag status data) s fun t => t.host.pcie = [] ∧ t.cur.run = .running ∧
        t.cur.a.pc = s.cur.a.pc + 4 ∧ t.cur.a.g = (wr d (ldVal f (data % 2 ^ (8 * r.size))).1 s).cur.a.g ∧ t.mem = s.mem) ∧
      (status ≠ 0 → Does (.pcieCompletion tag status data) s fun t => t.host.pcie = [] ∧ t.cur.run = .stopped ∧
        t.cur.fcause = 9 ∧ t.cur.fval = r.ptr ∧ t.cur.a.g = s.cur.a.g)) ∧
    (s.host.tags = [e] ∧ s.disp.cwWaiting = [] →
      (e.kind = 3 ∧ e.tag = tag → Does (.priResponse tag true) s fun t => t.host.tags = [] ∧ t.host.drcnt = s.host.drcnt) ∧
      (e.kind = 3 ∧ e.tag = tag ∧ e.source = 0 ∧ (launchAt s e.who).phase = 1 → Does (.priResponse tag false) s fun t =>
        (launchAt t e.who).phase = 4) ∧
      (e.kind = 2 ∧ e.tag = tg.toNat ∧ e.source = 0 → Does (.frrplyDone tg) s fun t => t.host.tags = [] ∧ t.host.drcnt = s.host.drcnt ∧
        t.host.frrply = tg ∧ t.disp = s.disp) ∧
      (e.kind = 2 ∧ e.tag = tg.toNat ∧ e.source = 0 ∧ (launchAt s e.who).phase = 1 → Does (.frrplyFailed tg) s fun t =>
        (launchAt t e.who).phase = 4) ∧
      (e.tag ≠ tg.toNat ∨ e.kind ≠ 2 → exec (.frrplyDone tg) s = .next { s with host := { s.host with frrply := tg, drcnt := s.host.drcnt + 1 } } ∧
        exec (.frrplyFailed tg) s = .next { s with host := { s.host with frrply := tg, drcnt := s.host.drcnt + 1 } })) ∧
    (s.host.reports = [] →
      (size ∈ [0, 16, 32, 64, 128, 256, 512, 1024, 2048, 4096] → exec (.frsizeWrite v) s =
        .next { s with host := { s.host with frsize := size, frhead := 0, frtail := 0 } }) ∧
      (size ∉ [0, 16, 32, 64, 128, 256, 512, 1024, 2048, 4096] → exec (.frsizeWrite v) s = .next s) ∧
      (s.disp.cwWaiting = [] → exec (.frheadWrite n) s = .next { s with host := { s.host with frhead := n } })) ∧
    (s.disp.cwWaiting = [] ∧ s.host.frsize = 0 → exec (.frheadWrite n) s = .next { s with host := { s.host with frhead := n } }) ∧
    (s.host.reports = [[x0, x1, x2, x3]] ∧ s.disp.cwWaiting = [] ∧ s.host.frsize ≠ 0 ∧ masked s 64 = false ∧ (s.host.frtail - n).toNat ≠ s.host.frsize →
      let at_ := s.host.frbase.toNat + 32 * (s.host.frtail.toNat % s.host.frsize)
      Does (.frheadWrite n) s fun t => t.host.frhead = n ∧ t.host.frtail = s.host.frtail + 1 ∧ t.host.reports = [] ∧
        t.host.fired = 64 :: s.host.fired ∧ t.mem.host.readN at_ 8 = x0.toNat ∧ t.mem.host.readN (at_ + 8) 8 = x1.toNat ∧
        t.mem.host.readN (at_ + 16) 8 = x2.toNat ∧ t.mem.host.readN (at_ + 24) 8 = x3.toNat ∧ t.mem.l1 = s.mem.l1) ∧
    (exec .elclr s = .next { s with host := { s.host with
      elog := [], ovf := false, tests := s.host.tests.map (fun t => (t.1, none)) } }) ∧
    (let p := fieldOf v 0 12
     (300 ≤ p ∧ p ≤ 2400 → exec (.pcapWrite v) s = .next { s with plat := { s.plat with pcap := p } }) ∧
     (p < 300 ∨ 2400 < p → exec (.pcapWrite v) s = .next s)) ∧
    (k < 4 →
      let code := fieldOf v (8 * k) 5
      let fix := bitOf v (8 * k + 7)
      let legal := 12 ≤ code ∧ code ≤ 18
      let now := match (dieAt s k).relock, (dieAt s k).ramp with
        | some r, _ => r.1
        | none, some c => if (dieAt s k).code < c then c else (dieAt s k).code
        | none, none => (dieAt s k).code
      Does (.dieClockWrite v) s fun t => dieAt t k =
        if fix = true ∧ ¬legal then dieAt s k
        else { dieAt s k with
          fix := fix, fixCode := if legal then code else (dieAt s k).fixCode
          target := if (dieAt s k).fix = true ∧ fix = false then now else (dieAt s k).target }) ∧
    (q < 64 ∧ slot < 32 ∧ word < 8 → Does (.registerWrite (q * 4096 + slot * 64 + word * 8) v) s fun t => t.mem = s.mem ∧
      (getBy (·.1) slot (slot, []) (queueAt t q).window).2.getD word 0 = v) ∧
    (exec (.registerWrite 0x50000 v) s = .next { s with host := { s.host with sdva := v } } ∧
      exec (.registerWrite 0x50008 v) s = exec (.shootdown v) s ∧ exec (.registerWrite 0x51000 v) s = exec (.biasFlip v) s ∧
      exec (.registerWrite 0x52000 v) s = .next { s with host := { s.host with frbase := nat64 (v.toNat / 32 * 32) } } ∧
      exec (.registerWrite 0x52008 v) s = exec (.frsizeWrite v) s ∧
      exec (.registerWrite 0x52010 v) s = exec (.frheadWrite (v.setWidth 32)) s ∧
      exec (.registerWrite 0x70000 v) s = exec (.pcapWrite v) s ∧ exec (.registerWrite 0x70008 v) s = exec (.dieClockWrite v) s) ∧
    (slot < 128 →
      (∀ o, o < 2 → Does (.registerWrite (0x60000 + 16 * slot + 8 * o) v) s fun t => readRegister t (0x60000 + 16 * slot + 8 * o) = v) ∧
      (s.host.pba = [slot] → (bitOf v 32 = false → Does (.registerWrite (0x60000 + 16 * slot + 8) v) s fun t =>
          t.host.pba = [] ∧ t.host.fired = slot :: s.host.fired) ∧
        (bitOf v 32 = true → Does (.registerWrite (0x60000 + 16 * slot + 8) v) s fun t =>
          t.host.pba = [slot] ∧ t.host.fired = s.host.fired ∧ bitOf (readRegister t (0x61000 + slot / 64 * 8)) (slot % 64) = true))) ∧
    (∀ o, 0x42010 ≤ o ∧ o < 0x50000 → exec (.registerWrite o v) s = .next s) ∧
    (s.cur.id = ctx ∧ s.cur.run ≠ .unbound →
      let p := w2.toNat
      let en : HandleEntry := {
        base := w0.toNat % 2 ^ 57, length := w1.toNat % 2 ^ 54, remote := false, rcl := p / 2 ^ 16 % 16, valid := p.testBit 9
        lease := p.testBit 8, e := p.testBit 7, x := p.testBit 6, w := p.testBit 5, r := p.testBit 4, policy := p / 4 % 4
        space := p % 4 }
      let fixed := fun (x : HandleEntry) => x.space = en.space ∧ x.r = en.r ∧ x.w = en.w ∧ x.x = en.x ∧ x.e = en.e ∧
        x.lease = en.lease ∧ x.remote = false
      let may := 4 ≤ h ∧ h < 4 + (moduleAt s s.cur.bind.module).handles.length ∨ h < 4 ∧ ∃ x ∈ s.cur.handles, x.1 = h ∧ fixed x.2
      (may ∧ p % 4 ≠ 3 ∧ p / 4 % 4 ≠ 3 ∧ p.testBit 20 = false → exec (.handleTableRewrite ctx h w0 w1 w2) s =
        .next { s with cur := { s.cur with handles := putBy (·.1) (h, en) s.cur.handles } }) ∧
      (¬may ∧ p.testBit 20 = false → exec (.handleTableRewrite ctx h w0 w1 w2) s = .next s)) ∧
    (let rd := fun (o : Nat) => (readRegister s o).toNat
     let qu := queueAt s q
     (q < 64 ∧ qu.store.length ≤ 32 → rd (q * 4096 + 0x808) = qu.store.length + (if qu.dberr then 2 ^ 6 else 0) +
        qu.nextSeq % 65536 * 2 ^ 16 + (if qu.busy then 2 ^ 63 else 0)) ∧
     (q < 64 ∧ slot < 32 ∧ word < 8 → readRegister s (q * 4096 + slot * 64 + word * 8) =
        (getBy (·.1) slot (0, []) qu.window).2.getD word 0) ∧
     readRegister s 0x50000 = s.host.sdva ∧ readRegister s 0x50008 = s.host.sdctl ∧ readRegister s 0x51000 = s.host.bfctl ∧
     rd 0x52010 = s.host.frhead.toNat ∧ rd 0x52018 = s.host.frtail.toNat ∧ rd 0x52028 = s.host.drcnt.toNat ∧ rd 0x52020 = s.host.frrply.toNat ∧
     (s.plat.pcap < 2 ^ 64 → rd 0x70000 = s.plat.pcap) ∧ (s.host.frsize < 2 ^ 64 → rd 0x52008 = s.host.frsize))

/-- R403, R405-R410: the boot stages, brown-out, the checkpoint set, and the loss and the return of the supply.  What an
image holds, the key that it is signed with and a die's native revision are the configuration's (log entry 9); the verification is
that of FIPS 186-4 (log entry 104); what survives a boot, what the set holds and when, and what is held how long are the model's
readings (log entries 61, 62, 63); its bytes are free (log entry 117). -/
def Obligations.BootSteps : Prop :=
  ∀ (s : State) (b : Nat) (k : Ckpt) (x : Queue),
    let p := s.plat
    let stage := fun (n : Nat) (t : State) => t.plat.stage = n
    let ok := fun (slot : Nat) => fuseCount p.fuses ≤ Config.image slot 0 ∧
      ecdsaOk Config.bootKey (Config.image slot 1) (Config.image slot 2) = true
    (p.off = true → Does .powerGood s fun t => stage 1 t ∧ rtm t = 0 ∧ t.plat.off = false ∧ t.mem.l1 = [] ∧ t.mem.hbm = [] ∧
      t.mem.host = s.mem.host ∧ t.plat.fuses = p.fuses ∧ t.plat.sealed = p.sealed ∧ t.cur = {} ∧ t.disp = {} ∧
      t.homes.retired = s.homes.retired ∧ ((s.banks.map (·.id)).Nodup → ∀ n, (bankAt t n).spares = (bankAt s n).spares) ∧
      (∀ x ∈ s.clusters, (x.out || x.outNext) = true → (clusterAt t x.id).out = true) ∧
      ∀ c, (∀ x ∈ s.clusters, x.id = c → (x.out || x.outNext) = false) → (clusterAt t c).out = false) ∧
    (p.off = false → exec .powerGood s = .next s) ∧
    (bootStopped s = true → exec .bootStageComplete s = .next s) ∧
    (bootStopped s = false →
      (p.stage = 1 ∧ ok 0 → Does .bootStageComplete s fun t => stage 2 t ∧ t.plat.first = some 0) ∧
      (p.stage = 1 ∧ ¬ok 0 ∧ ok 1 → Does .bootStageComplete s fun t => stage 2 t ∧ t.plat.first = some 1) ∧
      (p.stage = 1 ∧ ¬ok 0 ∧ ¬ok 1 ∨ p.stage = 2 ∧ ¬ok 2 → exec .bootStageComplete s = .next { s with plat := { p with stage := 11 } }) ∧
      (p.stage = 2 ∧ ok 2 ∨ p.stage = 3 ∧ p.strandGroups = groupCount s ∨ p.stage = 5 →
        exec .bootStageComplete s = .next { s with plat := { p with stage := p.stage + 1 } }) ∧
      (p.stage = 4 → Does .bootStageComplete s fun t => stage 5 t ∧
        ∀ j, j < 4 → dieAt t j = { dieAt s j with nativeRev := Config.nativeRev j }) ∧
      (p.stage = 3 ∧ p.strandGroups ≠ groupCount s ∨ p.stage = 10 ∨ p.stage = 11 →
        exec .bootStageComplete s = .next s) ∧
      (p.stage = 6 → Does .bootStageComplete s fun t => stage 7 t ∧ (∀ a, t.mem.l1.read a = 0 ∧ t.mem.hbm.read a = 0) ∧
        t.mem.empty = [] ∧ t.mem.host = s.mem.host) ∧
      (p.stage = 7 → Does .bootStageComplete s fun t => stage 8 t ∧ t.plat.devready = true ∧
        ∀ i, p.fuses.getLsbD i = true → t.plat.fuses.getLsbD i = true) ∧
      (p.stage = 8 ∧ braking s = true → exec .bootStageComplete s = .next s) ∧
      (p.stage = 8 ∧ braking s = false →
        (p.sealed = none → exec .bootStageComplete s = .next { s with plat := { p with stage := 9 } }) ∧
        (p.sealed = some k ∧ markerOk k = false →
          exec .bootStageComplete s = .next { s with plat := { p with stage := 9, sealed := none } }) ∧
        (p.sealed = some k ∧ markerOk k = true ∧ (∀ y ∈ k.ctxs ++ k.saved, clusterOf y.id ∈ inService s) ∧ k.queues = [x] ∧
            (queueAt s x.id).heldDb = [] → Does .bootStageComplete s fun t => stage 9 t ∧ t.plat.resumed = true ∧
          t.plat.sealed = none ∧ t.disp.launches = k.launches ∧ t.disp.savedCtx = k.saved ∧ t.homes.cal = k.cal ∧
          queueAt t x.id = { x with window := (queueAt s x.id).window, heldDb := [] })) ∧
      (p.stage = 9 → exec .bootStageComplete s = .next { s with plat := { p with stage := 10, traffic := true } })) ∧
    (p.off = false →
      (p.devready = true ∧ p.brownAt = none → exec .brownoutAssert s =
        .next { s with plat := { p with pin := true, brown := true, calmAt := none, brownAt := some (rtm s) } }) ∧
      (p.devready = false → exec .brownoutAssert s = .next { s with plat := { p with pin := true, brown := true, calmAt := none } })) ∧
    (p.brownAt = some b →
      (b + 1000000 ≤ rtm s ∧ p.written = false ∧ p.pin = true ∧ s.disp.queues = [] ∧ (∀ l ∈ s.disp.launches, l.phase ≠ 3) →
        Does .checkpointSealed s fun t => t.plat.ckpt = true ∧ t.plat.written = true ∧ t.mem = s.mem ∧
          (p.sealed = some k ∧ p.stage ≤ 8 ∧ markerOk k = true → t.plat.sealed = some { k with began := b }) ∧
          (p.sealed = none → ∃ y, t.plat.sealed = some y ∧ markerOk y = true ∧ y.began = b ∧ y.saved = s.disp.savedCtx ∧
            y.size = (Config.setImage s.fresh).length ∧
            y.launches = s.disp.launches.filter (fun l => l.phase != 4) ∧ y.cal = s.homes.cal)) ∧
      (rtm s < b + 1000000 ∨ p.written = true → exec .checkpointSealed s = .next s)) ∧
    (p.brownAt = none → exec .checkpointSealed s = .next s) ∧
    (p.pin = true →
      (p.brownAt = none ∨ p.written = false → exec .brownoutDeassert s =
        .next { s with plat := { p with pin := false, calmAt := some (rtm s) } }) ∧
      (p.brownAt = some b ∧ p.written = true →
        (8 < p.stage ∧ s.disp.queues = [] → Does .brownoutDeassert s fun t => t.plat.pin = false ∧
          t.plat.sealed = none ∧ t.plat.brownAt = none ∧ t.plat.resumed = true ∧ t.mem = s.mem) ∧
        (p.stage ≤ 8 ∧ p.sealed = some k → exec .brownoutDeassert s = .next { s with plat := { p with
          pin := false, calmAt := some (rtm s), brownAt := none, written := false } }))) ∧
    (p.pin = false → exec .brownoutDeassert s = .next s) ∧
    (p.brown = true ∧ p.devready = false ∧ p.pin = false ∧ p.off = false ∧ p.calmAt = some b →
      (b + 100000000 ≤ rtm s → Does .brownoutRestart s fun t => stage 1 t ∧ rtm t = rtm s ∧ t.plat.brown = true ∧
        t.mem.l1 = [] ∧ t.plat.fuses = p.fuses) ∧
      (rtm s < b + 100000000 → exec .brownoutRestart s = .next s)) ∧
    (Does .supplyFailure s fun t => t.plat.off = true ∧ t.mem.l1 = [] ∧ t.mem.hbm = [] ∧ t.disp = {} ∧ t.cur = {} ∧
      t.plat.sealed = p.sealed ∧ t.plat.fuses = p.fuses)

/-- R376, R391-R396: a frame is counted, matched and delivered; a slot is sent or rejected; an SPDM request is answered.
The body of an answer is SPDM 1.3's (log entry 9), and how long a frame has been on its way is free (log entry 70); what is counted
where, what a tag is, when a frame's step is, whose turn a port has, and what an ended launch leaves to send are the model's
readings (log entries 66, 67, 68, 69, 70, 71, 72, 118). -/
def Obligations.NetworkSteps : Prop :=
  ∀ (s : State) (lport id n : Nat) (bs : List Byte) (me : MatchEntry) (l : Launch) (c : NetChan) (x : TxSlot), Canon s →
    let cnt := fun (t : State) (port word : Nat) =>
      (getBy (fun x : Nat × Nat × Nat => x.1 * 8 + x.2.1) (port * 8 + word) (port, word, 0) t.host.ports).2.2
    let inc := fun (t : State) (port word : Nat) => cnt t port word = (cnt s port word + 1) % 2 ^ 64
    let same := fun (t : State) => t.mem = s.mem ∧ t.cur = s.cur ∧ t.disp = s.disp
    let body := if frameField bs 12 2 = 0x8100 then bs.drop 18 else bs.drop 14
    let etype := if frameField bs 12 2 = 0x8100 then frameField bs 16 2 else frameField bs 12 2
    let room := (c.f.size - 2) * 8
    let sent := body.take room
    let slot := c.slots + c.f.head % c.f.depth * c.f.size * 8
    (32 ≤ lport → exec (.frameReceive lport bs false) s = .next s) ∧
    (lport < 32 →
      (Does (.frameReceive lport bs true) s fun t => inc t lport 0 ∧ inc t lport 4 ∧ same t) ∧
      (s.host.matchTable = [] → Does (.frameReceive lport bs false) s fun t => inc t lport 0 ∧ inc t lport 1 ∧ same t) ∧
      (s.host.matchTable = [me] ∧ bitOf me.w2 63 = true ∧ me.mask = 0 →
        (fieldOf me.w2 61 2 = 0 → Does (.frameReceive lport bs false) s fun t => inc t lport 0 ∧ same t) ∧
        (fieldOf me.w2 61 2 = 1 ∧ boundLaunch s (fieldOf me.tgt 48 6) (fieldOf me.tgt 32 16) = some l ∧
            netChan s l (fieldOf me.tgt 0 16) = some c →
          (c.f.ok = true ∧ c.f.free = 0 → Does (.frameReceive lport bs false) s fun t => inc t lport 0 ∧ inc t lport 2 ∧ same t) ∧
          (c.f.ok = true ∧ 0 < c.f.free ∧ slot % 65536 + 16 + sent.length ≤ 65536 →
            Does (.frameReceive lport bs false) s fun t =>
              inc t lport 0 ∧ t.mem.l1.readN c.key 4 = (c.f.head + 1) % c.f.wrap ∧
              (room < body.length → inc t lport 3) ∧ (body.length ≤ room → cnt t lport 3 = cnt s lport 3) ∧
              (∀ key, localKey s c.cluster c.area slot = some key ∧ (key + 16 + sent.length ≤ c.key ∨ c.key + 4 ≤ key) →
                t.mem.l1.readN key 8 = (rtm s - Config.frameTicks s.fresh) % 2 ^ 64 ∧
                t.mem.l1.readN (key + 8) 8 = sent.length + lport * 2 ^ 16 + (if room < body.length then 2 ^ 21 else 0) +
                  (if etype = 0xAEFE then 2 ^ 22 else 0) ∧
                ∀ i, i < sent.length → t.mem.l1.read (key + 16 + i) = sent.getD i 0))))) ∧
    (s.host.txLeft = [x] ∧ x.launch = id ∧ x.chan = n →
      (x.ok = false → Does (.frameTransmit id n) s fun t => inc t x.port 7 ∧ t.host.txLeft = [] ∧ same t) ∧
      (x.ok = true ∧ x.time ≤ rtm s ∧ itsTurn s x.port (id, n) = true → Does (.frameTransmit id n) s fun t => inc t x.port 5 ∧
        t.host.sent = (x.port, x.frame) :: s.host.sent ∧ t.host.txLeft = [] ∧ same t) ∧
      (x.ok = true ∧ rtm s < x.time → exec (.frameTransmit id n) s = .next s)) ∧
    (let x := launchAt s id
     s.host.txLeft = [] ∧ netChan s x n = some c ∧ x.phase = 3 ∧ txReady x n c = true →
      (lengthOk (slotLength s c) c.f.size = false → Does (.frameTransmit id n) s fun t => inc t (slotPort s c) 7 ∧
        t.host.sent = s.host.sent ∧ t.mem.l1.readN (c.key + 4) 4 = (c.f.tail + 1) % c.f.wrap) ∧
      (lengthOk (slotLength s c) c.f.size = true ∧ slotTime s c ≤ rtm s ∧ itsTurn s (slotPort s c) (id, n) = true →
        Does (.frameTransmit id n) s fun t => inc t (slotPort s c) 5 ∧
          t.host.sent = (slotPort s c, areaRead s c.cluster c.area (c.slots + c.f.tail % c.f.depth * c.f.size * 8 + 16) (slotLength s c)) ::
            s.host.sent ∧ t.mem.l1.readN (c.key + 4) 4 = (c.f.tail + 1) % c.f.wrap) ∧
      (lengthOk (slotLength s c) c.f.size = true ∧ rtm s < slotTime s c → exec (.frameTransmit id n) s = .next s)) ∧
    (let answer := fun (code : Nat) (ms : List Nat) => Host.Outcome.next { s with host := { s.host with
       spdm := Config.spdmBody code (bs.map (·.toNat) ++ ms) :: s.host.spdm } }
     let ms := ((measurements s).map (fun m => m.1 :: m.2)).flatten
     exec (.getVersion bs) s = answer 0x84 [] ∧ exec (.getCapabilities bs) s = answer 0xE1 [] ∧
     exec (.negotiateAlgorithms bs) s = answer 0xE3 [] ∧ exec (.getDigests bs) s = answer 0x81 [] ∧
     exec (.getCertificate bs) s = answer 0x82 [] ∧ exec (.challenge bs) s = answer 0x83 ms ∧
     exec (.getMeasurements bs) s = answer 0xE0 ms)

/-! ### Frames, invariants, reset -/

namespace Sys2Proof.Claims

/-- `t` is `s` but for the register `d`, the PC, which is at the next word, the group in progress, which has ended,
and AFL bits that are added. -/
def OnlyReg (s t : State) (d : Reg) : Prop :=
  (∀ r, r ≠ d → rd t r = rd s r) ∧ t.cur.a.pc = s.cur.a.pc + 4 ∧ t.cur.a.immx = [] ∧
  (∃ f, t.cur.a.sr.afl = s.cur.a.sr.afl ||| f) ∧
  { t with cur := { t.cur with a := { t.cur.a with
      g := s.cur.a.g, pc := s.cur.a.pc, immx := s.cur.a.immx, sr := { t.cur.a.sr with afl := s.cur.a.sr.afl } } } } = s

/-- `t` is `s` but for what a fault leaves: the context stopped at the first word of its group with cause and value, its
hints lapsed, its translation block left, and the leaf told. -/
def OnlyFault (s t : State) : Prop :=
  t.cur.run = .stopped ∧ t.cur.brp = none ∧ t.cur.prio = 0 ∧ t.cur.stream = none ∧ t.cur.blk = none ∧ t.cur.a.pc = groupPc s ∧ t.cur.fpc = groupPc s ∧ t.cur.fcause ≠ 0 ∧
  t.inbox = s.inbox ++ [{ ctx := s.cur.id, cause := t.cur.fcause, pc := groupPc s, val := t.cur.fval }] ∧
  { t with
    cur := { t.cur with
      a := { t.cur.a with pc := s.cur.a.pc, immx := s.cur.a.immx }
      run := s.cur.run, fcause := s.cur.fcause, fpc := s.cur.fpc, fval := s.cur.fval
      brp := s.cur.brp, prio := s.cur.prio, stream := s.cur.stream, blk := s.cur.blk, taken := s.cur.taken
      half0 := s.cur.half0, half1 := s.cur.half1, posted := s.cur.posted, burst := s.cur.burst }
    inbox := s.inbox } = s

/-- A frequency code (R398). -/
def CodeOk (k : Nat) : Prop := 12 ≤ k ∧ k ≤ 18

/-- The clocks and the power settings are legal: codes (R398, R401, R403), PCAP (R403), the boot stage (R403), the groups
of strands powered (R327), the slew (R397), and the size of the request ring (R376). -/
def Legal (s : State) : Prop :=
  (∀ k, k < 4 → CodeOk (dieAt s k).code ∧ CodeOk (dieAt s k).fixCode ∧ CodeOk (dieAt s k).target ∧ CodeOk (dieAt s k).supply ∧
    (∀ r, (dieAt s k).relock = some r → CodeOk r.1) ∧ (∀ c, (dieAt s k).ramp = some c → CodeOk c)) ∧
  300 ≤ s.plat.pcap ∧ s.plat.pcap ≤ 2400 ∧ 1 ≤ s.plat.stage ∧ s.plat.stage ≤ 11 ∧
  s.plat.strandGroups ≤ (if s.plat.gl4012 then 48 else 64) ∧ -200 ≤ s.plat.slew ∧ s.plat.slew ≤ 200 ∧
  s.host.frsize ∈ [0, 16, 32, 64, 128, 256, 512, 1024, 2048, 4096]

end Sys2Proof.Claims

/-- R85-R139, R353: the frame of the instructions that write one register: no other register, no state register but AFL
(to which bits are only added), no byte of memory, no unit and no other context changes; a fault of theirs changes
nothing but what R353 and R354 say, and g0 stays zero. -/
def Obligations.RegisterFrame : Prop :=
  ∀ (d a b c : Reg) (i : BitVec 16) (p l : BitVec 6) (w : BitVec 2) (r : BitVec 3) (x : Instr) (s : State),
    x ∈ [
      Instr.add d a b, .sub d a b, .and d a b, .or d a b, .xor d a b, .andn d a b, .sll d a b, .srl d a b, .sra d a b,
      .ror d a b, .slt d a b, .sltn d a b, .seq d a b, .min d a b, .max d a b, .minn d a b, .maxn d a b, .mul d a b,
      .mulh d a b, .mulhn d a b, .div d a b, .divn d a b, .rem d a b, .remn d a b, .addw d a b, .subw d a b, .mulw d a b,
      .sllw d a b, .srlw d a b, .sraw d a b, .divw d a b, .remw d a b, .sllwi d a b, .srlwi d a b, .srawi d a b,
      .mkp d a b, .addp d a b, .subp d a b, .pshuf d a b, .psel d a b, .cadd d a b, .csub d a b, .caddh d a b,
      .csubh d a b, .cmul d a b, .cmulj d a b, .cdot d a b, .cdotj d a b, .cbfly d a b, .cscl d a b, .crnd d a b,
      .fmin d a b, .fmax d a b, .fsgnj d a b, .fcmpeq d a b, .fcmplt d a b, .fcmple d a b, .pfadd d a b, .pfsub d a b,
      .pfmul d a b, .pfmin d a b, .pfmax d a b, .pbfpack d a b, .clz d a, .ctz d a, .popc d a, .brev d a, .bswap d a,
      .phd d a, .pof d a, .pchk d a, .cj d a, .cmj d a, .cnorm d a, .fabs d a, .fneg d a, .fclass d a, .pbfunpl d a,
      .pbfunph d a, .ptop2 d a, .csel d a b c, .madd d a b c, .msub d a b c, .funnel d a b c, .fma d a b c, .fms d a b c,
      .fnma d a b c, .fnms d a b c, .pfma d a b c, .pbfdot d a b c, .addi d a i, .andi d a i, .ori d a i, .xori d a i,
      .slti d a i, .sltni d a i, .addpi d a i, .lui d i, .slli d a p, .srli d a p, .srai d a p, .rori d a p,
      .bfx d a p l, .bfxn d a p l, .bfi d a p l, .padd d a b w, .psub d a b w, .padds d a b w, .psubs d a b w,
      .paddns d a b w, .psubns d a b w, .pavg d a b w, .pmin d a b w, .pmax d a b w, .pminn d a b w, .pmaxn d a b w,
      .pcmpeq d a b w, .pcmplt d a b w, .pcmpltn d a b w, .psllv d a b w, .psrlv d a b w, .psrav d a b w, .pmul d a b w,
      .pmulh d a b w, .pmulhn d a b w, .pmulq d a b w, .pdot d a b w, .pdotn d a b w, .ppacks d a b w, .ppackns d a b w,
      .ppack d a b w, .pabs d a w, .pneg d a w, .psum d a w, .psumn d a w, .punpkl d a w, .punpkh d a w, .punpkln d a w,
      .punpkhn d a w, .pslli d a w c, .psrli d a w c, .psrai d a w c, .psrari d a w c, .pbcast d a w c, .pins d a w c,
      .pext d a w c, .fadd d a b r, .fsub d a b r, .fmul d a b r, .fdiv d a b r, .fsqrt d a r, .frnd d a r,
      .fcvtF32I32 d a r, .fcvtF32N32 d a r, .fcvtF32I64 d a r, .fcvtF32N64 d a r, .fcvtF32Q15 d a r, .fcvtF32Q31 d a r,
      .fcvtI32F32 d a r, .fcvtN32F32 d a r, .fcvtI64F32 d a r, .fcvtN64F32 d a r, .fcvtQ15F32 d a r, .fcvtQ31F32 d a r,
      .fcvtBf16F32 d a r, .fcvtF32Bf16 d a r] →
    ∃ t, exec x s = .next t ∧ rd t 0 = 0 ∧ (OnlyReg s t d ∨ OnlyFault s t)

/-- Every memory of the machine keeps its canonical form at every step.  The form is the model's own (log entry 4). -/
def Obligations.StepKeepsMemory : Prop := ∀ s t : State, Canon s → step s = .next t → Canon t

/-- Every step keeps the clocks, the power settings and the boot stage legal. -/
def Obligations.StepKeepsClocks : Prop := ∀ s t : State, Legal s → step s = .next t → Legal t

/-- What the spec gives at reset: boot stage 1, the part not ready, no module and no launch, memory zero, every die at code
12 with no step in progress, PCAP 1,600, RTM 0, every page in device bias, the interface's registers zero, every context
unbound, no line cached, every page-map entry invalid; and both invariants hold. -/
def Obligations.ResetState : Prop :=
  let s := State.reset
  Canon s ∧ Legal s ∧ s.plat.stage = 1 ∧ s.plat.devready = false ∧ s.plat.traffic = false ∧ s.plat.ckpt = false ∧
  s.plat.brown = false ∧ s.plat.resumed = false ∧ s.plat.pcap = 1600 ∧ rtm s = 0 ∧
  (∀ k, k < 4 → (dieAt s k).code = 12 ∧ (dieAt s k).fix = false ∧ (dieAt s k).relock = none ∧ (dieAt s k).fsrt = 0 ∧
    (dieAt s k).fsrc = 0 ∧ (dieAt s k).fsrf = 0) ∧
  (∀ a, s.mem.l1.read a = 0 ∧ s.mem.hbm.read a = 0 ∧ a ∉ s.mem.empty) ∧
  (∀ k, inHostBias s k = false) ∧ s.host.sdva = 0 ∧ s.host.sdctl = 0 ∧ s.host.bfctl = 0 ∧ s.host.frbase = 0 ∧ s.host.frsize = 0 ∧
  s.host.frhead = 0 ∧ s.host.frtail = 0 ∧ s.host.drcnt = 0 ∧ s.host.elog = [] ∧ (∀ n, errOf s n = (0, 0)) ∧
  (∀ n, (ctxOf s n).run = .unbound) ∧ s.disp.modules = [] ∧ s.disp.launches = [] ∧
  (∀ q, (queueAt s q).store = [] ∧ (queueAt s q).nextSeq = 0 ∧ (queueAt s q).busy = false ∧ (queueAt s q).dberr = false) ∧
  (∀ c, (clusterAt s c).lines = [] ∧ ∀ f, pmOf (clusterAt s c) f = 0) ∧ (∀ t, (tileAt s t).p = 0 ∧ (tileAt s t).run = 0) ∧
  (∀ b, (bankAt s b).src = 0 ∧ (bankAt s b).waiters = []) ∧ (∀ n, (strandAt s n).balc = 0 ∧ (strandAt s n).thrc = 0 ∧ (strandAt s n).strimb = 0)
end

