-- ==== Sys2Proof/Laws/Decode.lean ====
section
/-!
SUPPORT. The fields of a word that a format builds (R58): each extraction the decoder makes gives the field
that was put there, or its part.
-/

namespace Sys2Proof

/-- A field that lies in the low part of a concatenation. -/
theorem ext_lo {m n k len : Nat} (x : BitVec m) (y : BitVec n) (h : k + len ≤ n) :
    (x ++ y).extractLsb' k len = y.extractLsb' k len := BitVec.extractLsb'_append_eq_of_add_le h

/-- A field that lies in the high part of a concatenation. -/
theorem ext_hi {m n k len : Nat} (x : BitVec m) (y : BitVec n) (h : n ≤ k) :
    (x ++ y).extractLsb' k len = x.extractLsb' (k - n) len := BitVec.extractLsb'_append_eq_of_le h

/-! ### Format A -/

@[simp] theorem fmtA_opOf (op : BitVec 6) (d a b : Reg) (fn : BitVec 11) : opOf (fmtA op d a b fn) = op := by
  simp only [opOf, fmtA]
  rw [ext_hi _ _ (by decide), ext_hi _ _ (by decide), ext_hi _ _ (by decide), ext_hi _ _ (by decide)]
  simp
@[simp] theorem fmtA_at_23_3 (op : BitVec 6) (d a b : Reg) (fn : BitVec 11) : (fmtA op d a b fn).extractLsb' 23 3 = d.extractLsb' 2 3 := by
  simp only [fmtA]
  rw [ext_hi _ _ (by decide), ext_hi _ _ (by decide), ext_hi _ _ (by decide), ext_lo _ _ (by decide)]
@[simp] theorem fmtA_at_22_4 (op : BitVec 6) (d a b : Reg) (fn : BitVec 11) : (fmtA op d a b fn).extractLsb' 22 4 = d.extractLsb' 1 4 := by
  simp only [fmtA]
  rw [ext_hi _ _ (by decide), ext_hi _ _ (by decide), ext_hi _ _ (by decide), ext_lo _ _ (by decide)]
@[simp] theorem fmtA_dOf (op : BitVec 6) (d a b : Reg) (fn : BitVec 11) : dOf (fmtA op d a b fn) = d := by
  simp only [dOf, fmtA]
  rw [ext_hi _ _ (by decide), ext_hi _ _ (by decide), ext_hi _ _ (by decide), ext_lo _ _ (by decide)]
  simp
@[simp] theorem fmtA_at_21_1 (op : BitVec 6) (d a b : Reg) (fn : BitVec 11) : (fmtA op d a b fn).extractLsb' 21 1 = d.extractLsb' 0 1 := by
  simp only [fmtA]
  rw [ext_hi _ _ (by decide), ext_hi _ _ (by decide), ext_hi _ _ (by decide), ext_lo _ _ (by decide)]
@[simp] theorem fmtA_at_17_4 (op : BitVec 6) (d a b : Reg) (fn : BitVec 11) : (fmtA op d a b fn).extractLsb' 17 4 = a.extractLsb' 1 4 := by
  simp only [fmtA]
  rw [ext_hi _ _ (by decide), ext_hi _ _ (by decide), ext_lo _ _ (by decide)]
@[simp] theorem fmtA_aOf (op : BitVec 6) (d a b : Reg) (fn : BitVec 11) : aOf (fmtA op d a b fn) = a := by
  simp only [aOf, fmtA]
  rw [ext_hi _ _ (by decide), ext_hi _ _ (by decide), ext_lo _ _ (by decide)]
  simp
@[simp] theorem fmtA_at_15_1 (op : BitVec 6) (d a b : Reg) (fn : BitVec 11) : (fmtA op d a b fn).extractLsb' 15 1 = b.extractLsb' 4 1 := by
  simp only [fmtA]
  rw [ext_hi _ _ (by decide), ext_lo _ _ (by decide)]
@[simp] theorem fmtA_at_14_2 (op : BitVec 6) (d a b : Reg) (fn : BitVec 11) : (fmtA op d a b fn).extractLsb' 14 2 = b.extractLsb' 3 2 := by
  simp only [fmtA]
  rw [ext_hi _ _ (by decide), ext_lo _ _ (by decide)]
@[simp] theorem fmtA_fmtOf (op : BitVec 6) (d a b : Reg) (fn : BitVec 11) : fmtOf (fmtA op d a b fn) = b.extractLsb' 1 4 := by
  simp only [fmtOf, fmtA]
  rw [ext_hi _ _ (by decide), ext_lo _ _ (by decide)]
@[simp] theorem fmtA_at_12_3 (op : BitVec 6) (d a b : Reg) (fn : BitVec 11) : (fmtA op d a b fn).extractLsb' 12 3 = b.extractLsb' 1 3 := by
  simp only [fmtA]
  rw [ext_hi _ _ (by decide), ext_lo _ _ (by decide)]
@[simp] theorem fmtA_at_12_2 (op : BitVec 6) (d a b : Reg) (fn : BitVec 11) : (fmtA op d a b fn).extractLsb' 12 2 = b.extractLsb' 1 2 := by
  simp only [fmtA]
  rw [ext_hi _ _ (by decide), ext_lo _ _ (by decide)]
@[simp] theorem fmtA_bOf (op : BitVec 6) (d a b : Reg) (fn : BitVec 11) : bOf (fmtA op d a b fn) = b := by
  simp only [bOf, fmtA]
  rw [ext_hi _ _ (by decide), ext_lo _ _ (by decide)]
  simp
@[simp] theorem fmtA_at_9_2 (op : BitVec 6) (d a b : Reg) (fn : BitVec 11) : (fmtA op d a b fn).extractLsb' 9 2 = fn.extractLsb' 9 2 := by
  simp only [fmtA]
  rw [ext_lo _ _ (by decide)]
@[simp] theorem fmtA_at_8_3 (op : BitVec 6) (d a b : Reg) (fn : BitVec 11) : (fmtA op d a b fn).extractLsb' 8 3 = fn.extractLsb' 8 3 := by
  simp only [fmtA]
  rw [ext_lo _ _ (by decide)]
@[simp] theorem fmtA_at_8_1 (op : BitVec 6) (d a b : Reg) (fn : BitVec 11) : (fmtA op d a b fn).extractLsb' 8 1 = fn.extractLsb' 8 1 := by
  simp only [fmtA]
  rw [ext_lo _ _ (by decide)]
@[simp] theorem fmtA_at_7_4 (op : BitVec 6) (d a b : Reg) (fn : BitVec 11) : (fmtA op d a b fn).extractLsb' 7 4 = fn.extractLsb' 7 4 := by
  simp only [fmtA]
  rw [ext_lo _ _ (by decide)]
@[simp] theorem fmtA_cOf (op : BitVec 6) (d a b : Reg) (fn : BitVec 11) : cOf (fmtA op d a b fn) = fn.extractLsb' 6 5 := by
  simp only [cOf, fmtA]
  rw [ext_lo _ _ (by decide)]
@[simp] theorem fmtA_at_6_4 (op : BitVec 6) (d a b : Reg) (fn : BitVec 11) : (fmtA op d a b fn).extractLsb' 6 4 = fn.extractLsb' 6 4 := by
  simp only [fmtA]
  rw [ext_lo _ _ (by decide)]
@[simp] theorem fmtA_at_5_5 (op : BitVec 6) (d a b : Reg) (fn : BitVec 11) : (fmtA op d a b fn).extractLsb' 5 5 = fn.extractLsb' 5 5 := by
  simp only [fmtA]
  rw [ext_lo _ _ (by decide)]
@[simp] theorem fmtA_at_5_4 (op : BitVec 6) (d a b : Reg) (fn : BitVec 11) : (fmtA op d a b fn).extractLsb' 5 4 = fn.extractLsb' 5 4 := by
  simp only [fmtA]
  rw [ext_lo _ _ (by decide)]
@[simp] theorem fmtA_at_5_2 (op : BitVec 6) (d a b : Reg) (fn : BitVec 11) : (fmtA op d a b fn).extractLsb' 5 2 = fn.extractLsb' 5 2 := by
  simp only [fmtA]
  rw [ext_lo _ _ (by decide)]
@[simp] theorem fmtA_at_4_1 (op : BitVec 6) (d a b : Reg) (fn : BitVec 11) : (fmtA op d a b fn).extractLsb' 4 1 = fn.extractLsb' 4 1 := by
  simp only [fmtA]
  rw [ext_lo _ _ (by decide)]
@[simp] theorem fmtA_at_3_8 (op : BitVec 6) (d a b : Reg) (fn : BitVec 11) : (fmtA op d a b fn).extractLsb' 3 8 = fn.extractLsb' 3 8 := by
  simp only [fmtA]
  rw [ext_lo _ _ (by decide)]
@[simp] theorem fmtA_at_2_6 (op : BitVec 6) (d a b : Reg) (fn : BitVec 11) : (fmtA op d a b fn).extractLsb' 2 6 = fn.extractLsb' 2 6 := by
  simp only [fmtA]
  rw [ext_lo _ _ (by decide)]
@[simp] theorem fmtA_at_1_4 (op : BitVec 6) (d a b : Reg) (fn : BitVec 11) : (fmtA op d a b fn).extractLsb' 1 4 = fn.extractLsb' 1 4 := by
  simp only [fmtA]
  rw [ext_lo _ _ (by decide)]
@[simp] theorem fmtA_at_1_3 (op : BitVec 6) (d a b : Reg) (fn : BitVec 11) : (fmtA op d a b fn).extractLsb' 1 3 = fn.extractLsb' 1 3 := by
  simp only [fmtA]
  rw [ext_lo _ _ (by decide)]
@[simp] theorem fmtA_at_1_1 (op : BitVec 6) (d a b : Reg) (fn : BitVec 11) : (fmtA op d a b fn).extractLsb' 1 1 = fn.extractLsb' 1 1 := by
  simp only [fmtA]
  rw [ext_lo _ _ (by decide)]
@[simp] theorem fmtA_fnOf (op : BitVec 6) (d a b : Reg) (fn : BitVec 11) : fnOf (fmtA op d a b fn) = fn := by
  simp only [fnOf, fmtA]
  rw [ext_lo _ _ (by decide)]
  simp
@[simp] theorem fmtA_dispOf (op : BitVec 6) (d a b : Reg) (fn : BitVec 11) : dispOf (fmtA op d a b fn) = fn.extractLsb' 0 10 := by
  simp only [dispOf, fmtA]
  rw [ext_lo _ _ (by decide)]
@[simp] theorem fmtA_at_0_9 (op : BitVec 6) (d a b : Reg) (fn : BitVec 11) : (fmtA op d a b fn).extractLsb' 0 9 = fn.extractLsb' 0 9 := by
  simp only [fmtA]
  rw [ext_lo _ _ (by decide)]
@[simp] theorem fmtA_at_0_8 (op : BitVec 6) (d a b : Reg) (fn : BitVec 11) : (fmtA op d a b fn).extractLsb' 0 8 = fn.extractLsb' 0 8 := by
  simp only [fmtA]
  rw [ext_lo _ _ (by decide)]
@[simp] theorem fmtA_at_0_7 (op : BitVec 6) (d a b : Reg) (fn : BitVec 11) : (fmtA op d a b fn).extractLsb' 0 7 = fn.extractLsb' 0 7 := by
  simp only [fmtA]
  rw [ext_lo _ _ (by decide)]
@[simp] theorem fmtA_at_0_6 (op : BitVec 6) (d a b : Reg) (fn : BitVec 11) : (fmtA op d a b fn).extractLsb' 0 6 = fn.extractLsb' 0 6 := by
  simp only [fmtA]
  rw [ext_lo _ _ (by decide)]
@[simp] theorem fmtA_at_0_5 (op : BitVec 6) (d a b : Reg) (fn : BitVec 11) : (fmtA op d a b fn).extractLsb' 0 5 = fn.extractLsb' 0 5 := by
  simp only [fmtA]
  rw [ext_lo _ _ (by decide)]
@[simp] theorem fmtA_at_0_4 (op : BitVec 6) (d a b : Reg) (fn : BitVec 11) : (fmtA op d a b fn).extractLsb' 0 4 = fn.extractLsb' 0 4 := by
  simp only [fmtA]
  rw [ext_lo _ _ (by decide)]
@[simp] theorem fmtA_at_0_3 (op : BitVec 6) (d a b : Reg) (fn : BitVec 11) : (fmtA op d a b fn).extractLsb' 0 3 = fn.extractLsb' 0 3 := by
  simp only [fmtA]
  rw [ext_lo _ _ (by decide)]
@[simp] theorem fmtA_at_0_2 (op : BitVec 6) (d a b : Reg) (fn : BitVec 11) : (fmtA op d a b fn).extractLsb' 0 2 = fn.extractLsb' 0 2 := by
  simp only [fmtA]
  rw [ext_lo _ _ (by decide)]
@[simp] theorem fmtA_at_0_1 (op : BitVec 6) (d a b : Reg) (fn : BitVec 11) : (fmtA op d a b fn).extractLsb' 0 1 = fn.extractLsb' 0 1 := by
  simp only [fmtA]
  rw [ext_lo _ _ (by decide)]

/-! ### Format Q -/

@[simp] theorem fmtQ_opOf (op : BitVec 6) (d a b c : Reg) (sub : BitVec 6) : opOf (fmtQ op d a b c sub) = op := by
  simp only [opOf, fmtQ]
  rw [ext_hi _ _ (by decide), ext_hi _ _ (by decide), ext_hi _ _ (by decide), ext_hi _ _ (by decide), ext_hi _ _ (by decide)]
  simp
@[simp] theorem fmtQ_at_23_3 (op : BitVec 6) (d a b c : Reg) (sub : BitVec 6) : (fmtQ op d a b c sub).extractLsb' 23 3 = d.extractLsb' 2 3 := by
  simp only [fmtQ]
  rw [ext_hi _ _ (by decide), ext_hi _ _ (by decide), ext_hi _ _ (by decide), ext_hi _ _ (by decide), ext_lo _ _ (by decide)]
@[simp] theorem fmtQ_at_22_4 (op : BitVec 6) (d a b c : Reg) (sub : BitVec 6) : (fmtQ op d a b c sub).extractLsb' 22 4 = d.extractLsb' 1 4 := by
  simp only [fmtQ]
  rw [ext_hi _ _ (by decide), ext_hi _ _ (by decide), ext_hi _ _ (by decide), ext_hi _ _ (by decide), ext_lo _ _ (by decide)]
@[simp] theorem fmtQ_dOf (op : BitVec 6) (d a b c : Reg) (sub : BitVec 6) : dOf (fmtQ op d a b c sub) = d := by
  simp only [dOf, fmtQ]
  rw [ext_hi _ _ (by decide), ext_hi _ _ (by decide), ext_hi _ _ (by decide), ext_hi _ _ (by decide), ext_lo _ _ (by decide)]
  simp
@[simp] theorem fmtQ_at_21_1 (op : BitVec 6) (d a b c : Reg) (sub : BitVec 6) : (fmtQ op d a b c sub).extractLsb' 21 1 = d.extractLsb' 0 1 := by
  simp only [fmtQ]
  rw [ext_hi _ _ (by decide), ext_hi _ _ (by decide), ext_hi _ _ (by decide), ext_hi _ _ (by decide), ext_lo _ _ (by decide)]
@[simp] theorem fmtQ_at_17_4 (op : BitVec 6) (d a b c : Reg) (sub : BitVec 6) : (fmtQ op d a b c sub).extractLsb' 17 4 = a.extractLsb' 1 4 := by
  simp only [fmtQ]
  rw [ext_hi _ _ (by decide), ext_hi _ _ (by decide), ext_hi _ _ (by decide), ext_lo _ _ (by decide)]
@[simp] theorem fmtQ_aOf (op : BitVec 6) (d a b c : Reg) (sub : BitVec 6) : aOf (fmtQ op d a b c sub) = a := by
  simp only [aOf, fmtQ]
  rw [ext_hi _ _ (by decide), ext_hi _ _ (by decide), ext_hi _ _ (by decide), ext_lo _ _ (by decide)]
  simp
@[simp] theorem fmtQ_at_15_1 (op : BitVec 6) (d a b c : Reg) (sub : BitVec 6) : (fmtQ op d a b c sub).extractLsb' 15 1 = b.extractLsb' 4 1 := by
  simp only [fmtQ]
  rw [ext_hi _ _ (by decide), ext_hi _ _ (by decide), ext_lo _ _ (by decide)]
@[simp] theorem fmtQ_at_14_2 (op : BitVec 6) (d a b c : Reg) (sub : BitVec 6) : (fmtQ op d a b c sub).extractLsb' 14 2 = b.extractLsb' 3 2 := by
  simp only [fmtQ]
  rw [ext_hi _ _ (by decide), ext_hi _ _ (by decide), ext_lo _ _ (by decide)]
@[simp] theorem fmtQ_fmtOf (op : BitVec 6) (d a b c : Reg) (sub : BitVec 6) : fmtOf (fmtQ op d a b c sub) = b.extractLsb' 1 4 := by
  simp only [fmtOf, fmtQ]
  rw [ext_hi _ _ (by decide), ext_hi _ _ (by decide), ext_lo _ _ (by decide)]
@[simp] theorem fmtQ_at_12_3 (op : BitVec 6) (d a b c : Reg) (sub : BitVec 6) : (fmtQ op d a b c sub).extractLsb' 12 3 = b.extractLsb' 1 3 := by
  simp only [fmtQ]
  rw [ext_hi _ _ (by decide), ext_hi _ _ (by decide), ext_lo _ _ (by decide)]
@[simp] theorem fmtQ_at_12_2 (op : BitVec 6) (d a b c : Reg) (sub : BitVec 6) : (fmtQ op d a b c sub).extractLsb' 12 2 = b.extractLsb' 1 2 := by
  simp only [fmtQ]
  rw [ext_hi _ _ (by decide), ext_hi _ _ (by decide), ext_lo _ _ (by decide)]
@[simp] theorem fmtQ_bOf (op : BitVec 6) (d a b c : Reg) (sub : BitVec 6) : bOf (fmtQ op d a b c sub) = b := by
  simp only [bOf, fmtQ]
  rw [ext_hi _ _ (by decide), ext_hi _ _ (by decide), ext_lo _ _ (by decide)]
  simp
@[simp] theorem fmtQ_at_9_2 (op : BitVec 6) (d a b c : Reg) (sub : BitVec 6) : (fmtQ op d a b c sub).extractLsb' 9 2 = c.extractLsb' 3 2 := by
  simp only [fmtQ]
  rw [ext_hi _ _ (by decide), ext_lo _ _ (by decide)]
@[simp] theorem fmtQ_at_8_3 (op : BitVec 6) (d a b c : Reg) (sub : BitVec 6) : (fmtQ op d a b c sub).extractLsb' 8 3 = c.extractLsb' 2 3 := by
  simp only [fmtQ]
  rw [ext_hi _ _ (by decide), ext_lo _ _ (by decide)]
@[simp] theorem fmtQ_at_8_1 (op : BitVec 6) (d a b c : Reg) (sub : BitVec 6) : (fmtQ op d a b c sub).extractLsb' 8 1 = c.extractLsb' 2 1 := by
  simp only [fmtQ]
  rw [ext_hi _ _ (by decide), ext_lo _ _ (by decide)]
@[simp] theorem fmtQ_at_7_4 (op : BitVec 6) (d a b c : Reg) (sub : BitVec 6) : (fmtQ op d a b c sub).extractLsb' 7 4 = c.extractLsb' 1 4 := by
  simp only [fmtQ]
  rw [ext_hi _ _ (by decide), ext_lo _ _ (by decide)]
@[simp] theorem fmtQ_cOf (op : BitVec 6) (d a b c : Reg) (sub : BitVec 6) : cOf (fmtQ op d a b c sub) = c := by
  simp only [cOf, fmtQ]
  rw [ext_hi _ _ (by decide), ext_lo _ _ (by decide)]
  simp
@[simp] theorem fmtQ_at_6_4 (op : BitVec 6) (d a b c : Reg) (sub : BitVec 6) : (fmtQ op d a b c sub).extractLsb' 6 4 = c.extractLsb' 0 4 := by
  simp only [fmtQ]
  rw [ext_hi _ _ (by decide), ext_lo _ _ (by decide)]
@[simp] theorem fmtQ_at_4_1 (op : BitVec 6) (d a b c : Reg) (sub : BitVec 6) : (fmtQ op d a b c sub).extractLsb' 4 1 = sub.extractLsb' 4 1 := by
  simp only [fmtQ]
  rw [ext_lo _ _ (by decide)]
@[simp] theorem fmtQ_at_1_4 (op : BitVec 6) (d a b c : Reg) (sub : BitVec 6) : (fmtQ op d a b c sub).extractLsb' 1 4 = sub.extractLsb' 1 4 := by
  simp only [fmtQ]
  rw [ext_lo _ _ (by decide)]
@[simp] theorem fmtQ_at_1_3 (op : BitVec 6) (d a b c : Reg) (sub : BitVec 6) : (fmtQ op d a b c sub).extractLsb' 1 3 = sub.extractLsb' 1 3 := by
  simp only [fmtQ]
  rw [ext_lo _ _ (by decide)]
@[simp] theorem fmtQ_at_1_1 (op : BitVec 6) (d a b c : Reg) (sub : BitVec 6) : (fmtQ op d a b c sub).extractLsb' 1 1 = sub.extractLsb' 1 1 := by
  simp only [fmtQ]
  rw [ext_lo _ _ (by decide)]
@[simp] theorem fmtQ_at_0_6 (op : BitVec 6) (d a b c : Reg) (sub : BitVec 6) : (fmtQ op d a b c sub).extractLsb' 0 6 = sub := by
  simp only [fmtQ]
  rw [ext_lo _ _ (by decide)]
  simp
@[simp] theorem fmtQ_at_0_5 (op : BitVec 6) (d a b c : Reg) (sub : BitVec 6) : (fmtQ op d a b c sub).extractLsb' 0 5 = sub.extractLsb' 0 5 := by
  simp only [fmtQ]
  rw [ext_lo _ _ (by decide)]
@[simp] theorem fmtQ_at_0_4 (op : BitVec 6) (d a b c : Reg) (sub : BitVec 6) : (fmtQ op d a b c sub).extractLsb' 0 4 = sub.extractLsb' 0 4 := by
  simp only [fmtQ]
  rw [ext_lo _ _ (by decide)]
@[simp] theorem fmtQ_at_0_3 (op : BitVec 6) (d a b c : Reg) (sub : BitVec 6) : (fmtQ op d a b c sub).extractLsb' 0 3 = sub.extractLsb' 0 3 := by
  simp only [fmtQ]
  rw [ext_lo _ _ (by decide)]
@[simp] theorem fmtQ_at_0_2 (op : BitVec 6) (d a b c : Reg) (sub : BitVec 6) : (fmtQ op d a b c sub).extractLsb' 0 2 = sub.extractLsb' 0 2 := by
  simp only [fmtQ]
  rw [ext_lo _ _ (by decide)]
@[simp] theorem fmtQ_at_0_1 (op : BitVec 6) (d a b c : Reg) (sub : BitVec 6) : (fmtQ op d a b c sub).extractLsb' 0 1 = sub.extractLsb' 0 1 := by
  simp only [fmtQ]
  rw [ext_lo _ _ (by decide)]

/-! ### Format I -/

@[simp] theorem fmtI_opOf (op : BitVec 6) (d a : Reg) (imm : BitVec 16) : opOf (fmtI op d a imm) = op := by
  simp only [opOf, fmtI]
  rw [ext_hi _ _ (by decide), ext_hi _ _ (by decide), ext_hi _ _ (by decide)]
  simp
@[simp] theorem fmtI_at_23_3 (op : BitVec 6) (d a : Reg) (imm : BitVec 16) : (fmtI op d a imm).extractLsb' 23 3 = d.extractLsb' 2 3 := by
  simp only [fmtI]
  rw [ext_hi _ _ (by decide), ext_hi _ _ (by decide), ext_lo _ _ (by decide)]
@[simp] theorem fmtI_at_22_4 (op : BitVec 6) (d a : Reg) (imm : BitVec 16) : (fmtI op d a imm).extractLsb' 22 4 = d.extractLsb' 1 4 := by
  simp only [fmtI]
  rw [ext_hi _ _ (by decide), ext_hi _ _ (by decide), ext_lo _ _ (by decide)]
@[simp] theorem fmtI_dOf (op : BitVec 6) (d a : Reg) (imm : BitVec 16) : dOf (fmtI op d a imm) = d := by
  simp only [dOf, fmtI]
  rw [ext_hi _ _ (by decide), ext_hi _ _ (by decide), ext_lo _ _ (by decide)]
  simp
@[simp] theorem fmtI_at_21_1 (op : BitVec 6) (d a : Reg) (imm : BitVec 16) : (fmtI op d a imm).extractLsb' 21 1 = d.extractLsb' 0 1 := by
  simp only [fmtI]
  rw [ext_hi _ _ (by decide), ext_hi _ _ (by decide), ext_lo _ _ (by decide)]
@[simp] theorem fmtI_at_17_4 (op : BitVec 6) (d a : Reg) (imm : BitVec 16) : (fmtI op d a imm).extractLsb' 17 4 = a.extractLsb' 1 4 := by
  simp only [fmtI]
  rw [ext_hi _ _ (by decide), ext_lo _ _ (by decide)]
@[simp] theorem fmtI_aOf (op : BitVec 6) (d a : Reg) (imm : BitVec 16) : aOf (fmtI op d a imm) = a := by
  simp only [aOf, fmtI]
  rw [ext_hi _ _ (by decide), ext_lo _ _ (by decide)]
  simp
@[simp] theorem fmtI_at_15_1 (op : BitVec 6) (d a : Reg) (imm : BitVec 16) : (fmtI op d a imm).extractLsb' 15 1 = imm.extractLsb' 15 1 := by
  simp only [fmtI]
  rw [ext_lo _ _ (by decide)]
@[simp] theorem fmtI_at_14_2 (op : BitVec 6) (d a : Reg) (imm : BitVec 16) : (fmtI op d a imm).extractLsb' 14 2 = imm.extractLsb' 14 2 := by
  simp only [fmtI]
  rw [ext_lo _ _ (by decide)]
@[simp] theorem fmtI_fmtOf (op : BitVec 6) (d a : Reg) (imm : BitVec 16) : fmtOf (fmtI op d a imm) = imm.extractLsb' 12 4 := by
  simp only [fmtOf, fmtI]
  rw [ext_lo _ _ (by decide)]
@[simp] theorem fmtI_at_12_3 (op : BitVec 6) (d a : Reg) (imm : BitVec 16) : (fmtI op d a imm).extractLsb' 12 3 = imm.extractLsb' 12 3 := by
  simp only [fmtI]
  rw [ext_lo _ _ (by decide)]
@[simp] theorem fmtI_at_12_2 (op : BitVec 6) (d a : Reg) (imm : BitVec 16) : (fmtI op d a imm).extractLsb' 12 2 = imm.extractLsb' 12 2 := by
  simp only [fmtI]
  rw [ext_lo _ _ (by decide)]
@[simp] theorem fmtI_bOf (op : BitVec 6) (d a : Reg) (imm : BitVec 16) : bOf (fmtI op d a imm) = imm.extractLsb' 11 5 := by
  simp only [bOf, fmtI]
  rw [ext_lo _ _ (by decide)]
@[simp] theorem fmtI_at_10_5 (op : BitVec 6) (d a : Reg) (imm : BitVec 16) : (fmtI op d a imm).extractLsb' 10 5 = imm.extractLsb' 10 5 := by
  simp only [fmtI]
  rw [ext_lo _ _ (by decide)]
@[simp] theorem fmtI_ordOf (op : BitVec 6) (d a : Reg) (imm : BitVec 16) : ordOf (fmtI op d a imm) = imm.extractLsb' 10 2 := by
  simp only [ordOf, fmtI]
  rw [ext_lo _ _ (by decide)]
@[simp] theorem fmtI_at_9_4 (op : BitVec 6) (d a : Reg) (imm : BitVec 16) : (fmtI op d a imm).extractLsb' 9 4 = imm.extractLsb' 9 4 := by
  simp only [fmtI]
  rw [ext_lo _ _ (by decide)]
@[simp] theorem fmtI_at_9_2 (op : BitVec 6) (d a : Reg) (imm : BitVec 16) : (fmtI op d a imm).extractLsb' 9 2 = imm.extractLsb' 9 2 := by
  simp only [fmtI]
  rw [ext_lo _ _ (by decide)]
@[simp] theorem fmtI_at_8_6 (op : BitVec 6) (d a : Reg) (imm : BitVec 16) : (fmtI op d a imm).extractLsb' 8 6 = imm.extractLsb' 8 6 := by
  simp only [fmtI]
  rw [ext_lo _ _ (by decide)]
@[simp] theorem fmtI_at_8_3 (op : BitVec 6) (d a : Reg) (imm : BitVec 16) : (fmtI op d a imm).extractLsb' 8 3 = imm.extractLsb' 8 3 := by
  simp only [fmtI]
  rw [ext_lo _ _ (by decide)]
@[simp] theorem fmtI_at_8_1 (op : BitVec 6) (d a : Reg) (imm : BitVec 16) : (fmtI op d a imm).extractLsb' 8 1 = imm.extractLsb' 8 1 := by
  simp only [fmtI]
  rw [ext_lo _ _ (by decide)]
@[simp] theorem fmtI_at_7_5 (op : BitVec 6) (d a : Reg) (imm : BitVec 16) : (fmtI op d a imm).extractLsb' 7 5 = imm.extractLsb' 7 5 := by
  simp only [fmtI]
  rw [ext_lo _ _ (by decide)]
@[simp] theorem fmtI_at_7_4 (op : BitVec 6) (d a : Reg) (imm : BitVec 16) : (fmtI op d a imm).extractLsb' 7 4 = imm.extractLsb' 7 4 := by
  simp only [fmtI]
  rw [ext_lo _ _ (by decide)]
@[simp] theorem fmtI_at_6_6 (op : BitVec 6) (d a : Reg) (imm : BitVec 16) : (fmtI op d a imm).extractLsb' 6 6 = imm.extractLsb' 6 6 := by
  simp only [fmtI]
  rw [ext_lo _ _ (by decide)]
@[simp] theorem fmtI_cOf (op : BitVec 6) (d a : Reg) (imm : BitVec 16) : cOf (fmtI op d a imm) = imm.extractLsb' 6 5 := by
  simp only [cOf, fmtI]
  rw [ext_lo _ _ (by decide)]
@[simp] theorem fmtI_at_6_4 (op : BitVec 6) (d a : Reg) (imm : BitVec 16) : (fmtI op d a imm).extractLsb' 6 4 = imm.extractLsb' 6 4 := by
  simp only [fmtI]
  rw [ext_lo _ _ (by decide)]
@[simp] theorem fmtI_at_5_5 (op : BitVec 6) (d a : Reg) (imm : BitVec 16) : (fmtI op d a imm).extractLsb' 5 5 = imm.extractLsb' 5 5 := by
  simp only [fmtI]
  rw [ext_lo _ _ (by decide)]
@[simp] theorem fmtI_at_5_4 (op : BitVec 6) (d a : Reg) (imm : BitVec 16) : (fmtI op d a imm).extractLsb' 5 4 = imm.extractLsb' 5 4 := by
  simp only [fmtI]
  rw [ext_lo _ _ (by decide)]
@[simp] theorem fmtI_at_5_2 (op : BitVec 6) (d a : Reg) (imm : BitVec 16) : (fmtI op d a imm).extractLsb' 5 2 = imm.extractLsb' 5 2 := by
  simp only [fmtI]
  rw [ext_lo _ _ (by decide)]
@[simp] theorem fmtI_at_4_1 (op : BitVec 6) (d a : Reg) (imm : BitVec 16) : (fmtI op d a imm).extractLsb' 4 1 = imm.extractLsb' 4 1 := by
  simp only [fmtI]
  rw [ext_lo _ _ (by decide)]
@[simp] theorem fmtI_at_3_8 (op : BitVec 6) (d a : Reg) (imm : BitVec 16) : (fmtI op d a imm).extractLsb' 3 8 = imm.extractLsb' 3 8 := by
  simp only [fmtI]
  rw [ext_lo _ _ (by decide)]
@[simp] theorem fmtI_at_2_6 (op : BitVec 6) (d a : Reg) (imm : BitVec 16) : (fmtI op d a imm).extractLsb' 2 6 = imm.extractLsb' 2 6 := by
  simp only [fmtI]
  rw [ext_lo _ _ (by decide)]
@[simp] theorem fmtI_at_1_4 (op : BitVec 6) (d a : Reg) (imm : BitVec 16) : (fmtI op d a imm).extractLsb' 1 4 = imm.extractLsb' 1 4 := by
  simp only [fmtI]
  rw [ext_lo _ _ (by decide)]
@[simp] theorem fmtI_at_1_3 (op : BitVec 6) (d a : Reg) (imm : BitVec 16) : (fmtI op d a imm).extractLsb' 1 3 = imm.extractLsb' 1 3 := by
  simp only [fmtI]
  rw [ext_lo _ _ (by decide)]
@[simp] theorem fmtI_at_1_1 (op : BitVec 6) (d a : Reg) (imm : BitVec 16) : (fmtI op d a imm).extractLsb' 1 1 = imm.extractLsb' 1 1 := by
  simp only [fmtI]
  rw [ext_lo _ _ (by decide)]
@[simp] theorem fmtI_immOf (op : BitVec 6) (d a : Reg) (imm : BitVec 16) : immOf (fmtI op d a imm) = imm := by
  simp only [immOf, fmtI]
  rw [ext_lo _ _ (by decide)]
  simp
@[simp] theorem fmtI_at_0_12 (op : BitVec 6) (d a : Reg) (imm : BitVec 16) : (fmtI op d a imm).extractLsb' 0 12 = imm.extractLsb' 0 12 := by
  simp only [fmtI]
  rw [ext_lo _ _ (by decide)]
@[simp] theorem fmtI_fnOf (op : BitVec 6) (d a : Reg) (imm : BitVec 16) : fnOf (fmtI op d a imm) = imm.extractLsb' 0 11 := by
  simp only [fnOf, fmtI]
  rw [ext_lo _ _ (by decide)]
@[simp] theorem fmtI_dispOf (op : BitVec 6) (d a : Reg) (imm : BitVec 16) : dispOf (fmtI op d a imm) = imm.extractLsb' 0 10 := by
  simp only [dispOf, fmtI]
  rw [ext_lo _ _ (by decide)]
@[simp] theorem fmtI_at_0_9 (op : BitVec 6) (d a : Reg) (imm : BitVec 16) : (fmtI op d a imm).extractLsb' 0 9 = imm.extractLsb' 0 9 := by
  simp only [fmtI]
  rw [ext_lo _ _ (by decide)]
@[simp] theorem fmtI_at_0_8 (op : BitVec 6) (d a : Reg) (imm : BitVec 16) : (fmtI op d a imm).extractLsb' 0 8 = imm.extractLsb' 0 8 := by
  simp only [fmtI]
  rw [ext_lo _ _ (by decide)]
@[simp] theorem fmtI_at_0_7 (op : BitVec 6) (d a : Reg) (imm : BitVec 16) : (fmtI op d a imm).extractLsb' 0 7 = imm.extractLsb' 0 7 := by
  simp only [fmtI]
  rw [ext_lo _ _ (by decide)]
@[simp] theorem fmtI_at_0_6 (op : BitVec 6) (d a : Reg) (imm : BitVec 16) : (fmtI op d a imm).extractLsb' 0 6 = imm.extractLsb' 0 6 := by
  simp only [fmtI]
  rw [ext_lo _ _ (by decide)]
@[simp] theorem fmtI_at_0_5 (op : BitVec 6) (d a : Reg) (imm : BitVec 16) : (fmtI op d a imm).extractLsb' 0 5 = imm.extractLsb' 0 5 := by
  simp only [fmtI]
  rw [ext_lo _ _ (by decide)]
@[simp] theorem fmtI_at_0_4 (op : BitVec 6) (d a : Reg) (imm : BitVec 16) : (fmtI op d a imm).extractLsb' 0 4 = imm.extractLsb' 0 4 := by
  simp only [fmtI]
  rw [ext_lo _ _ (by decide)]
@[simp] theorem fmtI_at_0_3 (op : BitVec 6) (d a : Reg) (imm : BitVec 16) : (fmtI op d a imm).extractLsb' 0 3 = imm.extractLsb' 0 3 := by
  simp only [fmtI]
  rw [ext_lo _ _ (by decide)]
@[simp] theorem fmtI_at_0_2 (op : BitVec 6) (d a : Reg) (imm : BitVec 16) : (fmtI op d a imm).extractLsb' 0 2 = imm.extractLsb' 0 2 := by
  simp only [fmtI]
  rw [ext_lo _ _ (by decide)]
@[simp] theorem fmtI_at_0_1 (op : BitVec 6) (d a : Reg) (imm : BitVec 16) : (fmtI op d a imm).extractLsb' 0 1 = imm.extractLsb' 0 1 := by
  simp only [fmtI]
  rw [ext_lo _ _ (by decide)]

/-! ### Format M -/

@[simp] theorem fmtM_opOf (op : BitVec 6) (d a : Reg) (f : BitVec 4) (ord : BitVec 2) (x : BitVec 10) : opOf (fmtM op d a f ord x) = op := by
  simp only [opOf, fmtM]
  rw [ext_hi _ _ (by decide), ext_hi _ _ (by decide), ext_hi _ _ (by decide), ext_hi _ _ (by decide), ext_hi _ _ (by decide)]
  simp
@[simp] theorem fmtM_at_23_3 (op : BitVec 6) (d a : Reg) (f : BitVec 4) (ord : BitVec 2) (x : BitVec 10) : (fmtM op d a f ord x).extractLsb' 23 3 = d.extractLsb' 2 3 := by
  simp only [fmtM]
  rw [ext_hi _ _ (by decide), ext_hi _ _ (by decide), ext_hi _ _ (by decide), ext_hi _ _ (by decide), ext_lo _ _ (by decide)]
@[simp] theorem fmtM_at_22_4 (op : BitVec 6) (d a : Reg) (f : BitVec 4) (ord : BitVec 2) (x : BitVec 10) : (fmtM op d a f ord x).extractLsb' 22 4 = d.extractLsb' 1 4 := by
  simp only [fmtM]
  rw [ext_hi _ _ (by decide), ext_hi _ _ (by decide), ext_hi _ _ (by decide), ext_hi _ _ (by decide), ext_lo _ _ (by decide)]
@[simp] theorem fmtM_dOf (op : BitVec 6) (d a : Reg) (f : BitVec 4) (ord : BitVec 2) (x : BitVec 10) : dOf (fmtM op d a f ord x) = d := by
  simp only [dOf, fmtM]
  rw [ext_hi _ _ (by decide), ext_hi _ _ (by decide), ext_hi _ _ (by decide), ext_hi _ _ (by decide), ext_lo _ _ (by decide)]
  simp
@[simp] theorem fmtM_at_21_1 (op : BitVec 6) (d a : Reg) (f : BitVec 4) (ord : BitVec 2) (x : BitVec 10) : (fmtM op d a f ord x).extractLsb' 21 1 = d.extractLsb' 0 1 := by
  simp only [fmtM]
  rw [ext_hi _ _ (by decide), ext_hi _ _ (by decide), ext_hi _ _ (by decide), ext_hi _ _ (by decide), ext_lo _ _ (by decide)]
@[simp] theorem fmtM_at_17_4 (op : BitVec 6) (d a : Reg) (f : BitVec 4) (ord : BitVec 2) (x : BitVec 10) : (fmtM op d a f ord x).extractLsb' 17 4 = a.extractLsb' 1 4 := by
  simp only [fmtM]
  rw [ext_hi _ _ (by decide), ext_hi _ _ (by decide), ext_hi _ _ (by decide), ext_lo _ _ (by decide)]
@[simp] theorem fmtM_aOf (op : BitVec 6) (d a : Reg) (f : BitVec 4) (ord : BitVec 2) (x : BitVec 10) : aOf (fmtM op d a f ord x) = a := by
  simp only [aOf, fmtM]
  rw [ext_hi _ _ (by decide), ext_hi _ _ (by decide), ext_hi _ _ (by decide), ext_lo _ _ (by decide)]
  simp
@[simp] theorem fmtM_at_15_1 (op : BitVec 6) (d a : Reg) (f : BitVec 4) (ord : BitVec 2) (x : BitVec 10) : (fmtM op d a f ord x).extractLsb' 15 1 = f.extractLsb' 3 1 := by
  simp only [fmtM]
  rw [ext_hi _ _ (by decide), ext_hi _ _ (by decide), ext_lo _ _ (by decide)]
@[simp] theorem fmtM_at_14_2 (op : BitVec 6) (d a : Reg) (f : BitVec 4) (ord : BitVec 2) (x : BitVec 10) : (fmtM op d a f ord x).extractLsb' 14 2 = f.extractLsb' 2 2 := by
  simp only [fmtM]
  rw [ext_hi _ _ (by decide), ext_hi _ _ (by decide), ext_lo _ _ (by decide)]
@[simp] theorem fmtM_fmtOf (op : BitVec 6) (d a : Reg) (f : BitVec 4) (ord : BitVec 2) (x : BitVec 10) : fmtOf (fmtM op d a f ord x) = f := by
  simp only [fmtOf, fmtM]
  rw [ext_hi _ _ (by decide), ext_hi _ _ (by decide), ext_lo _ _ (by decide)]
  simp
@[simp] theorem fmtM_at_12_3 (op : BitVec 6) (d a : Reg) (f : BitVec 4) (ord : BitVec 2) (x : BitVec 10) : (fmtM op d a f ord x).extractLsb' 12 3 = f.extractLsb' 0 3 := by
  simp only [fmtM]
  rw [ext_hi _ _ (by decide), ext_hi _ _ (by decide), ext_lo _ _ (by decide)]
@[simp] theorem fmtM_at_12_2 (op : BitVec 6) (d a : Reg) (f : BitVec 4) (ord : BitVec 2) (x : BitVec 10) : (fmtM op d a f ord x).extractLsb' 12 2 = f.extractLsb' 0 2 := by
  simp only [fmtM]
  rw [ext_hi _ _ (by decide), ext_hi _ _ (by decide), ext_lo _ _ (by decide)]
@[simp] theorem fmtM_ordOf (op : BitVec 6) (d a : Reg) (f : BitVec 4) (ord : BitVec 2) (x : BitVec 10) : ordOf (fmtM op d a f ord x) = ord := by
  simp only [ordOf, fmtM]
  rw [ext_hi _ _ (by decide), ext_lo _ _ (by decide)]
  simp
@[simp] theorem fmtM_at_8_1 (op : BitVec 6) (d a : Reg) (f : BitVec 4) (ord : BitVec 2) (x : BitVec 10) : (fmtM op d a f ord x).extractLsb' 8 1 = x.extractLsb' 8 1 := by
  simp only [fmtM]
  rw [ext_lo _ _ (by decide)]
@[simp] theorem fmtM_at_6_4 (op : BitVec 6) (d a : Reg) (f : BitVec 4) (ord : BitVec 2) (x : BitVec 10) : (fmtM op d a f ord x).extractLsb' 6 4 = x.extractLsb' 6 4 := by
  simp only [fmtM]
  rw [ext_lo _ _ (by decide)]
@[simp] theorem fmtM_at_5_5 (op : BitVec 6) (d a : Reg) (f : BitVec 4) (ord : BitVec 2) (x : BitVec 10) : (fmtM op d a f ord x).extractLsb' 5 5 = x.extractLsb' 5 5 := by
  simp only [fmtM]
  rw [ext_lo _ _ (by decide)]
@[simp] theorem fmtM_at_5_4 (op : BitVec 6) (d a : Reg) (f : BitVec 4) (ord : BitVec 2) (x : BitVec 10) : (fmtM op d a f ord x).extractLsb' 5 4 = x.extractLsb' 5 4 := by
  simp only [fmtM]
  rw [ext_lo _ _ (by decide)]
@[simp] theorem fmtM_at_5_2 (op : BitVec 6) (d a : Reg) (f : BitVec 4) (ord : BitVec 2) (x : BitVec 10) : (fmtM op d a f ord x).extractLsb' 5 2 = x.extractLsb' 5 2 := by
  simp only [fmtM]
  rw [ext_lo _ _ (by decide)]
@[simp] theorem fmtM_at_4_1 (op : BitVec 6) (d a : Reg) (f : BitVec 4) (ord : BitVec 2) (x : BitVec 10) : (fmtM op d a f ord x).extractLsb' 4 1 = x.extractLsb' 4 1 := by
  simp only [fmtM]
  rw [ext_lo _ _ (by decide)]
@[simp] theorem fmtM_at_2_6 (op : BitVec 6) (d a : Reg) (f : BitVec 4) (ord : BitVec 2) (x : BitVec 10) : (fmtM op d a f ord x).extractLsb' 2 6 = x.extractLsb' 2 6 := by
  simp only [fmtM]
  rw [ext_lo _ _ (by decide)]
@[simp] theorem fmtM_at_1_4 (op : BitVec 6) (d a : Reg) (f : BitVec 4) (ord : BitVec 2) (x : BitVec 10) : (fmtM op d a f ord x).extractLsb' 1 4 = x.extractLsb' 1 4 := by
  simp only [fmtM]
  rw [ext_lo _ _ (by decide)]
@[simp] theorem fmtM_at_1_3 (op : BitVec 6) (d a : Reg) (f : BitVec 4) (ord : BitVec 2) (x : BitVec 10) : (fmtM op d a f ord x).extractLsb' 1 3 = x.extractLsb' 1 3 := by
  simp only [fmtM]
  rw [ext_lo _ _ (by decide)]
@[simp] theorem fmtM_at_1_1 (op : BitVec 6) (d a : Reg) (f : BitVec 4) (ord : BitVec 2) (x : BitVec 10) : (fmtM op d a f ord x).extractLsb' 1 1 = x.extractLsb' 1 1 := by
  simp only [fmtM]
  rw [ext_lo _ _ (by decide)]
@[simp] theorem fmtM_dispOf (op : BitVec 6) (d a : Reg) (f : BitVec 4) (ord : BitVec 2) (x : BitVec 10) : dispOf (fmtM op d a f ord x) = x := by
  simp only [dispOf, fmtM]
  rw [ext_lo _ _ (by decide)]
  simp
@[simp] theorem fmtM_at_0_9 (op : BitVec 6) (d a : Reg) (f : BitVec 4) (ord : BitVec 2) (x : BitVec 10) : (fmtM op d a f ord x).extractLsb' 0 9 = x.extractLsb' 0 9 := by
  simp only [fmtM]
  rw [ext_lo _ _ (by decide)]
@[simp] theorem fmtM_at_0_8 (op : BitVec 6) (d a : Reg) (f : BitVec 4) (ord : BitVec 2) (x : BitVec 10) : (fmtM op d a f ord x).extractLsb' 0 8 = x.extractLsb' 0 8 := by
  simp only [fmtM]
  rw [ext_lo _ _ (by decide)]
@[simp] theorem fmtM_at_0_7 (op : BitVec 6) (d a : Reg) (f : BitVec 4) (ord : BitVec 2) (x : BitVec 10) : (fmtM op d a f ord x).extractLsb' 0 7 = x.extractLsb' 0 7 := by
  simp only [fmtM]
  rw [ext_lo _ _ (by decide)]
@[simp] theorem fmtM_at_0_6 (op : BitVec 6) (d a : Reg) (f : BitVec 4) (ord : BitVec 2) (x : BitVec 10) : (fmtM op d a f ord x).extractLsb' 0 6 = x.extractLsb' 0 6 := by
  simp only [fmtM]
  rw [ext_lo _ _ (by decide)]
@[simp] theorem fmtM_at_0_5 (op : BitVec 6) (d a : Reg) (f : BitVec 4) (ord : BitVec 2) (x : BitVec 10) : (fmtM op d a f ord x).extractLsb' 0 5 = x.extractLsb' 0 5 := by
  simp only [fmtM]
  rw [ext_lo _ _ (by decide)]
@[simp] theorem fmtM_at_0_4 (op : BitVec 6) (d a : Reg) (f : BitVec 4) (ord : BitVec 2) (x : BitVec 10) : (fmtM op d a f ord x).extractLsb' 0 4 = x.extractLsb' 0 4 := by
  simp only [fmtM]
  rw [ext_lo _ _ (by decide)]
@[simp] theorem fmtM_at_0_3 (op : BitVec 6) (d a : Reg) (f : BitVec 4) (ord : BitVec 2) (x : BitVec 10) : (fmtM op d a f ord x).extractLsb' 0 3 = x.extractLsb' 0 3 := by
  simp only [fmtM]
  rw [ext_lo _ _ (by decide)]
@[simp] theorem fmtM_at_0_2 (op : BitVec 6) (d a : Reg) (f : BitVec 4) (ord : BitVec 2) (x : BitVec 10) : (fmtM op d a f ord x).extractLsb' 0 2 = x.extractLsb' 0 2 := by
  simp only [fmtM]
  rw [ext_lo _ _ (by decide)]
@[simp] theorem fmtM_at_0_1 (op : BitVec 6) (d a : Reg) (f : BitVec 4) (ord : BitVec 2) (x : BitVec 10) : (fmtM op d a f ord x).extractLsb' 0 1 = x.extractLsb' 0 1 := by
  simp only [fmtM]
  rw [ext_lo _ _ (by decide)]

/-! ### Format J -/

@[simp] theorem fmtJ_opOf (op : BitVec 6) (x : BitVec 26) : opOf (fmtJ op x) = op := by
  simp only [opOf, fmtJ]
  rw [ext_hi _ _ (by decide)]
  simp
@[simp] theorem fmtJ_at_23_3 (op : BitVec 6) (x : BitVec 26) : (fmtJ op x).extractLsb' 23 3 = x.extractLsb' 23 3 := by
  simp only [fmtJ]
  rw [ext_lo _ _ (by decide)]
@[simp] theorem fmtJ_at_22_4 (op : BitVec 6) (x : BitVec 26) : (fmtJ op x).extractLsb' 22 4 = x.extractLsb' 22 4 := by
  simp only [fmtJ]
  rw [ext_lo _ _ (by decide)]
@[simp] theorem fmtJ_dOf (op : BitVec 6) (x : BitVec 26) : dOf (fmtJ op x) = x.extractLsb' 21 5 := by
  simp only [dOf, fmtJ]
  rw [ext_lo _ _ (by decide)]
@[simp] theorem fmtJ_at_21_1 (op : BitVec 6) (x : BitVec 26) : (fmtJ op x).extractLsb' 21 1 = x.extractLsb' 21 1 := by
  simp only [fmtJ]
  rw [ext_lo _ _ (by decide)]
@[simp] theorem fmtJ_at_17_4 (op : BitVec 6) (x : BitVec 26) : (fmtJ op x).extractLsb' 17 4 = x.extractLsb' 17 4 := by
  simp only [fmtJ]
  rw [ext_lo _ _ (by decide)]
@[simp] theorem fmtJ_aOf (op : BitVec 6) (x : BitVec 26) : aOf (fmtJ op x) = x.extractLsb' 16 5 := by
  simp only [aOf, fmtJ]
  rw [ext_lo _ _ (by decide)]
@[simp] theorem fmtJ_at_15_1 (op : BitVec 6) (x : BitVec 26) : (fmtJ op x).extractLsb' 15 1 = x.extractLsb' 15 1 := by
  simp only [fmtJ]
  rw [ext_lo _ _ (by decide)]
@[simp] theorem fmtJ_at_14_2 (op : BitVec 6) (x : BitVec 26) : (fmtJ op x).extractLsb' 14 2 = x.extractLsb' 14 2 := by
  simp only [fmtJ]
  rw [ext_lo _ _ (by decide)]
@[simp] theorem fmtJ_at_13_4 (op : BitVec 6) (x : BitVec 26) : (fmtJ op x).extractLsb' 13 4 = x.extractLsb' 13 4 := by
  simp only [fmtJ]
  rw [ext_lo _ _ (by decide)]
@[simp] theorem fmtJ_fmtOf (op : BitVec 6) (x : BitVec 26) : fmtOf (fmtJ op x) = x.extractLsb' 12 4 := by
  simp only [fmtOf, fmtJ]
  rw [ext_lo _ _ (by decide)]
@[simp] theorem fmtJ_at_12_3 (op : BitVec 6) (x : BitVec 26) : (fmtJ op x).extractLsb' 12 3 = x.extractLsb' 12 3 := by
  simp only [fmtJ]
  rw [ext_lo _ _ (by decide)]
@[simp] theorem fmtJ_at_12_2 (op : BitVec 6) (x : BitVec 26) : (fmtJ op x).extractLsb' 12 2 = x.extractLsb' 12 2 := by
  simp only [fmtJ]
  rw [ext_lo _ _ (by decide)]
@[simp] theorem fmtJ_bOf (op : BitVec 6) (x : BitVec 26) : bOf (fmtJ op x) = x.extractLsb' 11 5 := by
  simp only [bOf, fmtJ]
  rw [ext_lo _ _ (by decide)]
@[simp] theorem fmtJ_at_10_5 (op : BitVec 6) (x : BitVec 26) : (fmtJ op x).extractLsb' 10 5 = x.extractLsb' 10 5 := by
  simp only [fmtJ]
  rw [ext_lo _ _ (by decide)]
@[simp] theorem fmtJ_ordOf (op : BitVec 6) (x : BitVec 26) : ordOf (fmtJ op x) = x.extractLsb' 10 2 := by
  simp only [ordOf, fmtJ]
  rw [ext_lo _ _ (by decide)]
@[simp] theorem fmtJ_at_9_4 (op : BitVec 6) (x : BitVec 26) : (fmtJ op x).extractLsb' 9 4 = x.extractLsb' 9 4 := by
  simp only [fmtJ]
  rw [ext_lo _ _ (by decide)]
@[simp] theorem fmtJ_at_9_2 (op : BitVec 6) (x : BitVec 26) : (fmtJ op x).extractLsb' 9 2 = x.extractLsb' 9 2 := by
  simp only [fmtJ]
  rw [ext_lo _ _ (by decide)]
@[simp] theorem fmtJ_at_8_6 (op : BitVec 6) (x : BitVec 26) : (fmtJ op x).extractLsb' 8 6 = x.extractLsb' 8 6 := by
  simp only [fmtJ]
  rw [ext_lo _ _ (by decide)]
@[simp] theorem fmtJ_at_8_3 (op : BitVec 6) (x : BitVec 26) : (fmtJ op x).extractLsb' 8 3 = x.extractLsb' 8 3 := by
  simp only [fmtJ]
  rw [ext_lo _ _ (by decide)]
@[simp] theorem fmtJ_at_8_1 (op : BitVec 6) (x : BitVec 26) : (fmtJ op x).extractLsb' 8 1 = x.extractLsb' 8 1 := by
  simp only [fmtJ]
  rw [ext_lo _ _ (by decide)]
@[simp] theorem fmtJ_at_7_16 (op : BitVec 6) (x : BitVec 26) : (fmtJ op x).extractLsb' 7 16 = x.extractLsb' 7 16 := by
  simp only [fmtJ]
  rw [ext_lo _ _ (by decide)]
@[simp] theorem fmtJ_at_7_5 (op : BitVec 6) (x : BitVec 26) : (fmtJ op x).extractLsb' 7 5 = x.extractLsb' 7 5 := by
  simp only [fmtJ]
  rw [ext_lo _ _ (by decide)]
@[simp] theorem fmtJ_at_7_4 (op : BitVec 6) (x : BitVec 26) : (fmtJ op x).extractLsb' 7 4 = x.extractLsb' 7 4 := by
  simp only [fmtJ]
  rw [ext_lo _ _ (by decide)]
@[simp] theorem fmtJ_at_6_6 (op : BitVec 6) (x : BitVec 26) : (fmtJ op x).extractLsb' 6 6 = x.extractLsb' 6 6 := by
  simp only [fmtJ]
  rw [ext_lo _ _ (by decide)]
@[simp] theorem fmtJ_cOf (op : BitVec 6) (x : BitVec 26) : cOf (fmtJ op x) = x.extractLsb' 6 5 := by
  simp only [cOf, fmtJ]
  rw [ext_lo _ _ (by decide)]
@[simp] theorem fmtJ_at_6_4 (op : BitVec 6) (x : BitVec 26) : (fmtJ op x).extractLsb' 6 4 = x.extractLsb' 6 4 := by
  simp only [fmtJ]
  rw [ext_lo _ _ (by decide)]
@[simp] theorem fmtJ_at_5_18 (op : BitVec 6) (x : BitVec 26) : (fmtJ op x).extractLsb' 5 18 = x.extractLsb' 5 18 := by
  simp only [fmtJ]
  rw [ext_lo _ _ (by decide)]
@[simp] theorem fmtJ_at_5_5 (op : BitVec 6) (x : BitVec 26) : (fmtJ op x).extractLsb' 5 5 = x.extractLsb' 5 5 := by
  simp only [fmtJ]
  rw [ext_lo _ _ (by decide)]
@[simp] theorem fmtJ_at_5_4 (op : BitVec 6) (x : BitVec 26) : (fmtJ op x).extractLsb' 5 4 = x.extractLsb' 5 4 := by
  simp only [fmtJ]
  rw [ext_lo _ _ (by decide)]
@[simp] theorem fmtJ_at_5_2 (op : BitVec 6) (x : BitVec 26) : (fmtJ op x).extractLsb' 5 2 = x.extractLsb' 5 2 := by
  simp only [fmtJ]
  rw [ext_lo _ _ (by decide)]
@[simp] theorem fmtJ_at_4_1 (op : BitVec 6) (x : BitVec 26) : (fmtJ op x).extractLsb' 4 1 = x.extractLsb' 4 1 := by
  simp only [fmtJ]
  rw [ext_lo _ _ (by decide)]
@[simp] theorem fmtJ_at_3_8 (op : BitVec 6) (x : BitVec 26) : (fmtJ op x).extractLsb' 3 8 = x.extractLsb' 3 8 := by
  simp only [fmtJ]
  rw [ext_lo _ _ (by decide)]
@[simp] theorem fmtJ_at_2_21 (op : BitVec 6) (x : BitVec 26) : (fmtJ op x).extractLsb' 2 21 = x.extractLsb' 2 21 := by
  simp only [fmtJ]
  rw [ext_lo _ _ (by decide)]
@[simp] theorem fmtJ_at_2_6 (op : BitVec 6) (x : BitVec 26) : (fmtJ op x).extractLsb' 2 6 = x.extractLsb' 2 6 := by
  simp only [fmtJ]
  rw [ext_lo _ _ (by decide)]
@[simp] theorem fmtJ_at_1_4 (op : BitVec 6) (x : BitVec 26) : (fmtJ op x).extractLsb' 1 4 = x.extractLsb' 1 4 := by
  simp only [fmtJ]
  rw [ext_lo _ _ (by decide)]
@[simp] theorem fmtJ_at_1_3 (op : BitVec 6) (x : BitVec 26) : (fmtJ op x).extractLsb' 1 3 = x.extractLsb' 1 3 := by
  simp only [fmtJ]
  rw [ext_lo _ _ (by decide)]
@[simp] theorem fmtJ_at_1_1 (op : BitVec 6) (x : BitVec 26) : (fmtJ op x).extractLsb' 1 1 = x.extractLsb' 1 1 := by
  simp only [fmtJ]
  rw [ext_lo _ _ (by decide)]
@[simp] theorem fmtJ_at_0_26 (op : BitVec 6) (x : BitVec 26) : (fmtJ op x).extractLsb' 0 26 = x := by
  simp only [fmtJ]
  rw [ext_lo _ _ (by decide)]
  simp
@[simp] theorem fmtJ_at_0_23 (op : BitVec 6) (x : BitVec 26) : (fmtJ op x).extractLsb' 0 23 = x.extractLsb' 0 23 := by
  simp only [fmtJ]
  rw [ext_lo _ _ (by decide)]
@[simp] theorem fmtJ_immOf (op : BitVec 6) (x : BitVec 26) : immOf (fmtJ op x) = x.extractLsb' 0 16 := by
  simp only [immOf, fmtJ]
  rw [ext_lo _ _ (by decide)]
@[simp] theorem fmtJ_at_0_12 (op : BitVec 6) (x : BitVec 26) : (fmtJ op x).extractLsb' 0 12 = x.extractLsb' 0 12 := by
  simp only [fmtJ]
  rw [ext_lo _ _ (by decide)]
@[simp] theorem fmtJ_fnOf (op : BitVec 6) (x : BitVec 26) : fnOf (fmtJ op x) = x.extractLsb' 0 11 := by
  simp only [fnOf, fmtJ]
  rw [ext_lo _ _ (by decide)]
@[simp] theorem fmtJ_dispOf (op : BitVec 6) (x : BitVec 26) : dispOf (fmtJ op x) = x.extractLsb' 0 10 := by
  simp only [dispOf, fmtJ]
  rw [ext_lo _ _ (by decide)]
@[simp] theorem fmtJ_at_0_9 (op : BitVec 6) (x : BitVec 26) : (fmtJ op x).extractLsb' 0 9 = x.extractLsb' 0 9 := by
  simp only [fmtJ]
  rw [ext_lo _ _ (by decide)]
@[simp] theorem fmtJ_at_0_8 (op : BitVec 6) (x : BitVec 26) : (fmtJ op x).extractLsb' 0 8 = x.extractLsb' 0 8 := by
  simp only [fmtJ]
  rw [ext_lo _ _ (by decide)]
@[simp] theorem fmtJ_at_0_7 (op : BitVec 6) (x : BitVec 26) : (fmtJ op x).extractLsb' 0 7 = x.extractLsb' 0 7 := by
  simp only [fmtJ]
  rw [ext_lo _ _ (by decide)]
@[simp] theorem fmtJ_at_0_6 (op : BitVec 6) (x : BitVec 26) : (fmtJ op x).extractLsb' 0 6 = x.extractLsb' 0 6 := by
  simp only [fmtJ]
  rw [ext_lo _ _ (by decide)]
@[simp] theorem fmtJ_at_0_5 (op : BitVec 6) (x : BitVec 26) : (fmtJ op x).extractLsb' 0 5 = x.extractLsb' 0 5 := by
  simp only [fmtJ]
  rw [ext_lo _ _ (by decide)]
@[simp] theorem fmtJ_at_0_4 (op : BitVec 6) (x : BitVec 26) : (fmtJ op x).extractLsb' 0 4 = x.extractLsb' 0 4 := by
  simp only [fmtJ]
  rw [ext_lo _ _ (by decide)]
@[simp] theorem fmtJ_at_0_3 (op : BitVec 6) (x : BitVec 26) : (fmtJ op x).extractLsb' 0 3 = x.extractLsb' 0 3 := by
  simp only [fmtJ]
  rw [ext_lo _ _ (by decide)]
@[simp] theorem fmtJ_at_0_2 (op : BitVec 6) (x : BitVec 26) : (fmtJ op x).extractLsb' 0 2 = x.extractLsb' 0 2 := by
  simp only [fmtJ]
  rw [ext_lo _ _ (by decide)]
@[simp] theorem fmtJ_at_0_1 (op : BitVec 6) (x : BitVec 26) : (fmtJ op x).extractLsb' 0 1 = x.extractLsb' 0 1 := by
  simp only [fmtJ]
  rw [ext_lo _ _ (by decide)]

/-! ### Format C -/

@[simp] theorem fmtC_opOf (op : BitVec 6) (d : Reg) (c sub f : BitVec 4) (n : BitVec 9) : opOf (fmtC op d c sub f n) = op := by
  simp only [opOf, fmtC]
  rw [ext_hi _ _ (by decide), ext_hi _ _ (by decide), ext_hi _ _ (by decide), ext_hi _ _ (by decide), ext_hi _ _ (by decide)]
  simp
@[simp] theorem fmtC_at_23_3 (op : BitVec 6) (d : Reg) (c sub f : BitVec 4) (n : BitVec 9) : (fmtC op d c sub f n).extractLsb' 23 3 = d.extractLsb' 2 3 := by
  simp only [fmtC]
  rw [ext_hi _ _ (by decide), ext_hi _ _ (by decide), ext_hi _ _ (by decide), ext_hi _ _ (by decide), ext_lo _ _ (by decide)]
@[simp] theorem fmtC_at_22_4 (op : BitVec 6) (d : Reg) (c sub f : BitVec 4) (n : BitVec 9) : (fmtC op d c sub f n).extractLsb' 22 4 = d.extractLsb' 1 4 := by
  simp only [fmtC]
  rw [ext_hi _ _ (by decide), ext_hi _ _ (by decide), ext_hi _ _ (by decide), ext_hi _ _ (by decide), ext_lo _ _ (by decide)]
@[simp] theorem fmtC_dOf (op : BitVec 6) (d : Reg) (c sub f : BitVec 4) (n : BitVec 9) : dOf (fmtC op d c sub f n) = d := by
  simp only [dOf, fmtC]
  rw [ext_hi _ _ (by decide), ext_hi _ _ (by decide), ext_hi _ _ (by decide), ext_hi _ _ (by decide), ext_lo _ _ (by decide)]
  simp
@[simp] theorem fmtC_at_21_1 (op : BitVec 6) (d : Reg) (c sub f : BitVec 4) (n : BitVec 9) : (fmtC op d c sub f n).extractLsb' 21 1 = d.extractLsb' 0 1 := by
  simp only [fmtC]
  rw [ext_hi _ _ (by decide), ext_hi _ _ (by decide), ext_hi _ _ (by decide), ext_hi _ _ (by decide), ext_lo _ _ (by decide)]
@[simp] theorem fmtC_at_17_4 (op : BitVec 6) (d : Reg) (c sub f : BitVec 4) (n : BitVec 9) : (fmtC op d c sub f n).extractLsb' 17 4 = c := by
  simp only [fmtC]
  rw [ext_hi _ _ (by decide), ext_hi _ _ (by decide), ext_hi _ _ (by decide), ext_lo _ _ (by decide)]
  simp
@[simp] theorem fmtC_at_15_1 (op : BitVec 6) (d : Reg) (c sub f : BitVec 4) (n : BitVec 9) : (fmtC op d c sub f n).extractLsb' 15 1 = sub.extractLsb' 2 1 := by
  simp only [fmtC]
  rw [ext_hi _ _ (by decide), ext_hi _ _ (by decide), ext_lo _ _ (by decide)]
@[simp] theorem fmtC_at_14_2 (op : BitVec 6) (d : Reg) (c sub f : BitVec 4) (n : BitVec 9) : (fmtC op d c sub f n).extractLsb' 14 2 = sub.extractLsb' 1 2 := by
  simp only [fmtC]
  rw [ext_hi _ _ (by decide), ext_hi _ _ (by decide), ext_lo _ _ (by decide)]
@[simp] theorem fmtC_at_13_4 (op : BitVec 6) (d : Reg) (c sub f : BitVec 4) (n : BitVec 9) : (fmtC op d c sub f n).extractLsb' 13 4 = sub := by
  simp only [fmtC]
  rw [ext_hi _ _ (by decide), ext_hi _ _ (by decide), ext_lo _ _ (by decide)]
  simp
@[simp] theorem fmtC_ordOf (op : BitVec 6) (d : Reg) (c sub f : BitVec 4) (n : BitVec 9) : ordOf (fmtC op d c sub f n) = f.extractLsb' 1 2 := by
  simp only [ordOf, fmtC]
  rw [ext_hi _ _ (by decide), ext_lo _ _ (by decide)]
@[simp] theorem fmtC_at_9_4 (op : BitVec 6) (d : Reg) (c sub f : BitVec 4) (n : BitVec 9) : (fmtC op d c sub f n).extractLsb' 9 4 = f := by
  simp only [fmtC]
  rw [ext_hi _ _ (by decide), ext_lo _ _ (by decide)]
  simp
@[simp] theorem fmtC_at_9_2 (op : BitVec 6) (d : Reg) (c sub f : BitVec 4) (n : BitVec 9) : (fmtC op d c sub f n).extractLsb' 9 2 = f.extractLsb' 0 2 := by
  simp only [fmtC]
  rw [ext_hi _ _ (by decide), ext_lo _ _ (by decide)]
@[simp] theorem fmtC_at_8_1 (op : BitVec 6) (d : Reg) (c sub f : BitVec 4) (n : BitVec 9) : (fmtC op d c sub f n).extractLsb' 8 1 = n.extractLsb' 8 1 := by
  simp only [fmtC]
  rw [ext_lo _ _ (by decide)]
@[simp] theorem fmtC_at_5_4 (op : BitVec 6) (d : Reg) (c sub f : BitVec 4) (n : BitVec 9) : (fmtC op d c sub f n).extractLsb' 5 4 = n.extractLsb' 5 4 := by
  simp only [fmtC]
  rw [ext_lo _ _ (by decide)]
@[simp] theorem fmtC_at_5_2 (op : BitVec 6) (d : Reg) (c sub f : BitVec 4) (n : BitVec 9) : (fmtC op d c sub f n).extractLsb' 5 2 = n.extractLsb' 5 2 := by
  simp only [fmtC]
  rw [ext_lo _ _ (by decide)]
@[simp] theorem fmtC_at_4_1 (op : BitVec 6) (d : Reg) (c sub f : BitVec 4) (n : BitVec 9) : (fmtC op d c sub f n).extractLsb' 4 1 = n.extractLsb' 4 1 := by
  simp only [fmtC]
  rw [ext_lo _ _ (by decide)]
@[simp] theorem fmtC_at_2_6 (op : BitVec 6) (d : Reg) (c sub f : BitVec 4) (n : BitVec 9) : (fmtC op d c sub f n).extractLsb' 2 6 = n.extractLsb' 2 6 := by
  simp only [fmtC]
  rw [ext_lo _ _ (by decide)]
@[simp] theorem fmtC_at_1_4 (op : BitVec 6) (d : Reg) (c sub f : BitVec 4) (n : BitVec 9) : (fmtC op d c sub f n).extractLsb' 1 4 = n.extractLsb' 1 4 := by
  simp only [fmtC]
  rw [ext_lo _ _ (by decide)]
@[simp] theorem fmtC_at_1_3 (op : BitVec 6) (d : Reg) (c sub f : BitVec 4) (n : BitVec 9) : (fmtC op d c sub f n).extractLsb' 1 3 = n.extractLsb' 1 3 := by
  simp only [fmtC]
  rw [ext_lo _ _ (by decide)]
@[simp] theorem fmtC_at_1_1 (op : BitVec 6) (d : Reg) (c sub f : BitVec 4) (n : BitVec 9) : (fmtC op d c sub f n).extractLsb' 1 1 = n.extractLsb' 1 1 := by
  simp only [fmtC]
  rw [ext_lo _ _ (by decide)]
@[simp] theorem fmtC_at_0_9 (op : BitVec 6) (d : Reg) (c sub f : BitVec 4) (n : BitVec 9) : (fmtC op d c sub f n).extractLsb' 0 9 = n := by
  simp only [fmtC]
  rw [ext_lo _ _ (by decide)]
  simp
@[simp] theorem fmtC_at_0_8 (op : BitVec 6) (d : Reg) (c sub f : BitVec 4) (n : BitVec 9) : (fmtC op d c sub f n).extractLsb' 0 8 = n.extractLsb' 0 8 := by
  simp only [fmtC]
  rw [ext_lo _ _ (by decide)]
@[simp] theorem fmtC_at_0_7 (op : BitVec 6) (d : Reg) (c sub f : BitVec 4) (n : BitVec 9) : (fmtC op d c sub f n).extractLsb' 0 7 = n.extractLsb' 0 7 := by
  simp only [fmtC]
  rw [ext_lo _ _ (by decide)]
@[simp] theorem fmtC_at_0_6 (op : BitVec 6) (d : Reg) (c sub f : BitVec 4) (n : BitVec 9) : (fmtC op d c sub f n).extractLsb' 0 6 = n.extractLsb' 0 6 := by
  simp only [fmtC]
  rw [ext_lo _ _ (by decide)]
@[simp] theorem fmtC_at_0_5 (op : BitVec 6) (d : Reg) (c sub f : BitVec 4) (n : BitVec 9) : (fmtC op d c sub f n).extractLsb' 0 5 = n.extractLsb' 0 5 := by
  simp only [fmtC]
  rw [ext_lo _ _ (by decide)]
@[simp] theorem fmtC_at_0_4 (op : BitVec 6) (d : Reg) (c sub f : BitVec 4) (n : BitVec 9) : (fmtC op d c sub f n).extractLsb' 0 4 = n.extractLsb' 0 4 := by
  simp only [fmtC]
  rw [ext_lo _ _ (by decide)]
@[simp] theorem fmtC_at_0_3 (op : BitVec 6) (d : Reg) (c sub f : BitVec 4) (n : BitVec 9) : (fmtC op d c sub f n).extractLsb' 0 3 = n.extractLsb' 0 3 := by
  simp only [fmtC]
  rw [ext_lo _ _ (by decide)]
@[simp] theorem fmtC_at_0_2 (op : BitVec 6) (d : Reg) (c sub f : BitVec 4) (n : BitVec 9) : (fmtC op d c sub f n).extractLsb' 0 2 = n.extractLsb' 0 2 := by
  simp only [fmtC]
  rw [ext_lo _ _ (by decide)]
@[simp] theorem fmtC_at_0_1 (op : BitVec 6) (d : Reg) (c sub f : BitVec 4) (n : BitVec 9) : (fmtC op d c sub f n).extractLsb' 0 1 = n.extractLsb' 0 1 := by
  simp only [fmtC]
  rw [ext_lo _ _ (by decide)]

/-! ### Format X -/

@[simp] theorem fmtX_opOf (op : BitVec 6) (a b : Reg) (m : BitVec 2) (n l : BitVec 6) (s z : BitVec 1) : opOf (fmtX op a b m n l s z) = op := by
  simp only [opOf, fmtX]
  rw [ext_hi _ _ (by decide), ext_hi _ _ (by decide), ext_hi _ _ (by decide), ext_hi _ _ (by decide), ext_hi _ _ (by decide), ext_hi _ _ (by decide), ext_hi _ _ (by decide)]
  simp
@[simp] theorem fmtX_at_23_3 (op : BitVec 6) (a b : Reg) (m : BitVec 2) (n l : BitVec 6) (s z : BitVec 1) : (fmtX op a b m n l s z).extractLsb' 23 3 = a.extractLsb' 2 3 := by
  simp only [fmtX]
  rw [ext_hi _ _ (by decide), ext_hi _ _ (by decide), ext_hi _ _ (by decide), ext_hi _ _ (by decide), ext_hi _ _ (by decide), ext_hi _ _ (by decide), ext_lo _ _ (by decide)]
@[simp] theorem fmtX_at_22_4 (op : BitVec 6) (a b : Reg) (m : BitVec 2) (n l : BitVec 6) (s z : BitVec 1) : (fmtX op a b m n l s z).extractLsb' 22 4 = a.extractLsb' 1 4 := by
  simp only [fmtX]
  rw [ext_hi _ _ (by decide), ext_hi _ _ (by decide), ext_hi _ _ (by decide), ext_hi _ _ (by decide), ext_hi _ _ (by decide), ext_hi _ _ (by decide), ext_lo _ _ (by decide)]
@[simp] theorem fmtX_dOf (op : BitVec 6) (a b : Reg) (m : BitVec 2) (n l : BitVec 6) (s z : BitVec 1) : dOf (fmtX op a b m n l s z) = a := by
  simp only [dOf, fmtX]
  rw [ext_hi _ _ (by decide), ext_hi _ _ (by decide), ext_hi _ _ (by decide), ext_hi _ _ (by decide), ext_hi _ _ (by decide), ext_hi _ _ (by decide), ext_lo _ _ (by decide)]
  simp
@[simp] theorem fmtX_at_21_1 (op : BitVec 6) (a b : Reg) (m : BitVec 2) (n l : BitVec 6) (s z : BitVec 1) : (fmtX op a b m n l s z).extractLsb' 21 1 = a.extractLsb' 0 1 := by
  simp only [fmtX]
  rw [ext_hi _ _ (by decide), ext_hi _ _ (by decide), ext_hi _ _ (by decide), ext_hi _ _ (by decide), ext_hi _ _ (by decide), ext_hi _ _ (by decide), ext_lo _ _ (by decide)]
@[simp] theorem fmtX_at_17_4 (op : BitVec 6) (a b : Reg) (m : BitVec 2) (n l : BitVec 6) (s z : BitVec 1) : (fmtX op a b m n l s z).extractLsb' 17 4 = b.extractLsb' 1 4 := by
  simp only [fmtX]
  rw [ext_hi _ _ (by decide), ext_hi _ _ (by decide), ext_hi _ _ (by decide), ext_hi _ _ (by decide), ext_hi _ _ (by decide), ext_lo _ _ (by decide)]
@[simp] theorem fmtX_aOf (op : BitVec 6) (a b : Reg) (m : BitVec 2) (n l : BitVec 6) (s z : BitVec 1) : aOf (fmtX op a b m n l s z) = b := by
  simp only [aOf, fmtX]
  rw [ext_hi _ _ (by decide), ext_hi _ _ (by decide), ext_hi _ _ (by decide), ext_hi _ _ (by decide), ext_hi _ _ (by decide), ext_lo _ _ (by decide)]
  simp
@[simp] theorem fmtX_at_15_1 (op : BitVec 6) (a b : Reg) (m : BitVec 2) (n l : BitVec 6) (s z : BitVec 1) : (fmtX op a b m n l s z).extractLsb' 15 1 = m.extractLsb' 1 1 := by
  simp only [fmtX]
  rw [ext_hi _ _ (by decide), ext_hi _ _ (by decide), ext_hi _ _ (by decide), ext_hi _ _ (by decide), ext_lo _ _ (by decide)]
@[simp] theorem fmtX_at_14_2 (op : BitVec 6) (a b : Reg) (m : BitVec 2) (n l : BitVec 6) (s z : BitVec 1) : (fmtX op a b m n l s z).extractLsb' 14 2 = m := by
  simp only [fmtX]
  rw [ext_hi _ _ (by decide), ext_hi _ _ (by decide), ext_hi _ _ (by decide), ext_hi _ _ (by decide), ext_lo _ _ (by decide)]
  simp
@[simp] theorem fmtX_at_12_2 (op : BitVec 6) (a b : Reg) (m : BitVec 2) (n l : BitVec 6) (s z : BitVec 1) : (fmtX op a b m n l s z).extractLsb' 12 2 = n.extractLsb' 4 2 := by
  simp only [fmtX]
  rw [ext_hi _ _ (by decide), ext_hi _ _ (by decide), ext_hi _ _ (by decide), ext_lo _ _ (by decide)]
@[simp] theorem fmtX_ordOf (op : BitVec 6) (a b : Reg) (m : BitVec 2) (n l : BitVec 6) (s z : BitVec 1) : ordOf (fmtX op a b m n l s z) = n.extractLsb' 2 2 := by
  simp only [ordOf, fmtX]
  rw [ext_hi _ _ (by decide), ext_hi _ _ (by decide), ext_hi _ _ (by decide), ext_lo _ _ (by decide)]
@[simp] theorem fmtX_at_9_4 (op : BitVec 6) (a b : Reg) (m : BitVec 2) (n l : BitVec 6) (s z : BitVec 1) : (fmtX op a b m n l s z).extractLsb' 9 4 = n.extractLsb' 1 4 := by
  simp only [fmtX]
  rw [ext_hi _ _ (by decide), ext_hi _ _ (by decide), ext_hi _ _ (by decide), ext_lo _ _ (by decide)]
@[simp] theorem fmtX_at_9_2 (op : BitVec 6) (a b : Reg) (m : BitVec 2) (n l : BitVec 6) (s z : BitVec 1) : (fmtX op a b m n l s z).extractLsb' 9 2 = n.extractLsb' 1 2 := by
  simp only [fmtX]
  rw [ext_hi _ _ (by decide), ext_hi _ _ (by decide), ext_hi _ _ (by decide), ext_lo _ _ (by decide)]
@[simp] theorem fmtX_at_8_6 (op : BitVec 6) (a b : Reg) (m : BitVec 2) (n l : BitVec 6) (s z : BitVec 1) : (fmtX op a b m n l s z).extractLsb' 8 6 = n := by
  simp only [fmtX]
  rw [ext_hi _ _ (by decide), ext_hi _ _ (by decide), ext_hi _ _ (by decide), ext_lo _ _ (by decide)]
  simp
@[simp] theorem fmtX_at_8_3 (op : BitVec 6) (a b : Reg) (m : BitVec 2) (n l : BitVec 6) (s z : BitVec 1) : (fmtX op a b m n l s z).extractLsb' 8 3 = n.extractLsb' 0 3 := by
  simp only [fmtX]
  rw [ext_hi _ _ (by decide), ext_hi _ _ (by decide), ext_hi _ _ (by decide), ext_lo _ _ (by decide)]
@[simp] theorem fmtX_at_8_1 (op : BitVec 6) (a b : Reg) (m : BitVec 2) (n l : BitVec 6) (s z : BitVec 1) : (fmtX op a b m n l s z).extractLsb' 8 1 = n.extractLsb' 0 1 := by
  simp only [fmtX]
  rw [ext_hi _ _ (by decide), ext_hi _ _ (by decide), ext_hi _ _ (by decide), ext_lo _ _ (by decide)]
@[simp] theorem fmtX_at_5_2 (op : BitVec 6) (a b : Reg) (m : BitVec 2) (n l : BitVec 6) (s z : BitVec 1) : (fmtX op a b m n l s z).extractLsb' 5 2 = l.extractLsb' 3 2 := by
  simp only [fmtX]
  rw [ext_hi _ _ (by decide), ext_hi _ _ (by decide), ext_lo _ _ (by decide)]
@[simp] theorem fmtX_at_4_1 (op : BitVec 6) (a b : Reg) (m : BitVec 2) (n l : BitVec 6) (s z : BitVec 1) : (fmtX op a b m n l s z).extractLsb' 4 1 = l.extractLsb' 2 1 := by
  simp only [fmtX]
  rw [ext_hi _ _ (by decide), ext_hi _ _ (by decide), ext_lo _ _ (by decide)]
@[simp] theorem fmtX_at_2_6 (op : BitVec 6) (a b : Reg) (m : BitVec 2) (n l : BitVec 6) (s z : BitVec 1) : (fmtX op a b m n l s z).extractLsb' 2 6 = l := by
  simp only [fmtX]
  rw [ext_hi _ _ (by decide), ext_hi _ _ (by decide), ext_lo _ _ (by decide)]
  simp
@[simp] theorem fmtX_at_1_1 (op : BitVec 6) (a b : Reg) (m : BitVec 2) (n l : BitVec 6) (s z : BitVec 1) : (fmtX op a b m n l s z).extractLsb' 1 1 = s := by
  simp only [fmtX]
  rw [ext_hi _ _ (by decide), ext_lo _ _ (by decide)]
  simp
@[simp] theorem fmtX_at_0_1 (op : BitVec 6) (a b : Reg) (m : BitVec 2) (n l : BitVec 6) (s z : BitVec 1) : (fmtX op a b m n l s z).extractLsb' 0 1 = z := by
  simp only [fmtX]
  rw [ext_lo _ _ (by decide)]
  simp

/-! ### Format S -/

@[simp] theorem fmtS_opOf (op : BitVec 6) (d a : Reg) (sub : BitVec 4) (i : BitVec 12) : opOf (fmtS op d a sub i) = op := by
  simp only [opOf, fmtS]
  rw [ext_hi _ _ (by decide), ext_hi _ _ (by decide), ext_hi _ _ (by decide), ext_hi _ _ (by decide)]
  simp
@[simp] theorem fmtS_at_23_3 (op : BitVec 6) (d a : Reg) (sub : BitVec 4) (i : BitVec 12) : (fmtS op d a sub i).extractLsb' 23 3 = d.extractLsb' 2 3 := by
  simp only [fmtS]
  rw [ext_hi _ _ (by decide), ext_hi _ _ (by decide), ext_hi _ _ (by decide), ext_lo _ _ (by decide)]
@[simp] theorem fmtS_at_22_4 (op : BitVec 6) (d a : Reg) (sub : BitVec 4) (i : BitVec 12) : (fmtS op d a sub i).extractLsb' 22 4 = d.extractLsb' 1 4 := by
  simp only [fmtS]
  rw [ext_hi _ _ (by decide), ext_hi _ _ (by decide), ext_hi _ _ (by decide), ext_lo _ _ (by decide)]
@[simp] theorem fmtS_dOf (op : BitVec 6) (d a : Reg) (sub : BitVec 4) (i : BitVec 12) : dOf (fmtS op d a sub i) = d := by
  simp only [dOf, fmtS]
  rw [ext_hi _ _ (by decide), ext_hi _ _ (by decide), ext_hi _ _ (by decide), ext_lo _ _ (by decide)]
  simp
@[simp] theorem fmtS_at_21_1 (op : BitVec 6) (d a : Reg) (sub : BitVec 4) (i : BitVec 12) : (fmtS op d a sub i).extractLsb' 21 1 = d.extractLsb' 0 1 := by
  simp only [fmtS]
  rw [ext_hi _ _ (by decide), ext_hi _ _ (by decide), ext_hi _ _ (by decide), ext_lo _ _ (by decide)]
@[simp] theorem fmtS_at_17_4 (op : BitVec 6) (d a : Reg) (sub : BitVec 4) (i : BitVec 12) : (fmtS op d a sub i).extractLsb' 17 4 = a.extractLsb' 1 4 := by
  simp only [fmtS]
  rw [ext_hi _ _ (by decide), ext_hi _ _ (by decide), ext_lo _ _ (by decide)]
@[simp] theorem fmtS_aOf (op : BitVec 6) (d a : Reg) (sub : BitVec 4) (i : BitVec 12) : aOf (fmtS op d a sub i) = a := by
  simp only [aOf, fmtS]
  rw [ext_hi _ _ (by decide), ext_hi _ _ (by decide), ext_lo _ _ (by decide)]
  simp
@[simp] theorem fmtS_at_15_1 (op : BitVec 6) (d a : Reg) (sub : BitVec 4) (i : BitVec 12) : (fmtS op d a sub i).extractLsb' 15 1 = sub.extractLsb' 3 1 := by
  simp only [fmtS]
  rw [ext_hi _ _ (by decide), ext_lo _ _ (by decide)]
@[simp] theorem fmtS_at_14_2 (op : BitVec 6) (d a : Reg) (sub : BitVec 4) (i : BitVec 12) : (fmtS op d a sub i).extractLsb' 14 2 = sub.extractLsb' 2 2 := by
  simp only [fmtS]
  rw [ext_hi _ _ (by decide), ext_lo _ _ (by decide)]
@[simp] theorem fmtS_fmtOf (op : BitVec 6) (d a : Reg) (sub : BitVec 4) (i : BitVec 12) : fmtOf (fmtS op d a sub i) = sub := by
  simp only [fmtOf, fmtS]
  rw [ext_hi _ _ (by decide), ext_lo _ _ (by decide)]
  simp
@[simp] theorem fmtS_at_12_3 (op : BitVec 6) (d a : Reg) (sub : BitVec 4) (i : BitVec 12) : (fmtS op d a sub i).extractLsb' 12 3 = sub.extractLsb' 0 3 := by
  simp only [fmtS]
  rw [ext_hi _ _ (by decide), ext_lo _ _ (by decide)]
@[simp] theorem fmtS_at_12_2 (op : BitVec 6) (d a : Reg) (sub : BitVec 4) (i : BitVec 12) : (fmtS op d a sub i).extractLsb' 12 2 = sub.extractLsb' 0 2 := by
  simp only [fmtS]
  rw [ext_hi _ _ (by decide), ext_lo _ _ (by decide)]
@[simp] theorem fmtS_ordOf (op : BitVec 6) (d a : Reg) (sub : BitVec 4) (i : BitVec 12) : ordOf (fmtS op d a sub i) = i.extractLsb' 10 2 := by
  simp only [ordOf, fmtS]
  rw [ext_lo _ _ (by decide)]
@[simp] theorem fmtS_at_9_2 (op : BitVec 6) (d a : Reg) (sub : BitVec 4) (i : BitVec 12) : (fmtS op d a sub i).extractLsb' 9 2 = i.extractLsb' 9 2 := by
  simp only [fmtS]
  rw [ext_lo _ _ (by decide)]
@[simp] theorem fmtS_at_8_3 (op : BitVec 6) (d a : Reg) (sub : BitVec 4) (i : BitVec 12) : (fmtS op d a sub i).extractLsb' 8 3 = i.extractLsb' 8 3 := by
  simp only [fmtS]
  rw [ext_lo _ _ (by decide)]
@[simp] theorem fmtS_at_8_1 (op : BitVec 6) (d a : Reg) (sub : BitVec 4) (i : BitVec 12) : (fmtS op d a sub i).extractLsb' 8 1 = i.extractLsb' 8 1 := by
  simp only [fmtS]
  rw [ext_lo _ _ (by decide)]
@[simp] theorem fmtS_at_7_5 (op : BitVec 6) (d a : Reg) (sub : BitVec 4) (i : BitVec 12) : (fmtS op d a sub i).extractLsb' 7 5 = i.extractLsb' 7 5 := by
  simp only [fmtS]
  rw [ext_lo _ _ (by decide)]
@[simp] theorem fmtS_at_7_4 (op : BitVec 6) (d a : Reg) (sub : BitVec 4) (i : BitVec 12) : (fmtS op d a sub i).extractLsb' 7 4 = i.extractLsb' 7 4 := by
  simp only [fmtS]
  rw [ext_lo _ _ (by decide)]
@[simp] theorem fmtS_at_6_6 (op : BitVec 6) (d a : Reg) (sub : BitVec 4) (i : BitVec 12) : (fmtS op d a sub i).extractLsb' 6 6 = i.extractLsb' 6 6 := by
  simp only [fmtS]
  rw [ext_lo _ _ (by decide)]
@[simp] theorem fmtS_cOf (op : BitVec 6) (d a : Reg) (sub : BitVec 4) (i : BitVec 12) : cOf (fmtS op d a sub i) = i.extractLsb' 6 5 := by
  simp only [cOf, fmtS]
  rw [ext_lo _ _ (by decide)]
@[simp] theorem fmtS_at_6_4 (op : BitVec 6) (d a : Reg) (sub : BitVec 4) (i : BitVec 12) : (fmtS op d a sub i).extractLsb' 6 4 = i.extractLsb' 6 4 := by
  simp only [fmtS]
  rw [ext_lo _ _ (by decide)]
@[simp] theorem fmtS_at_5_5 (op : BitVec 6) (d a : Reg) (sub : BitVec 4) (i : BitVec 12) : (fmtS op d a sub i).extractLsb' 5 5 = i.extractLsb' 5 5 := by
  simp only [fmtS]
  rw [ext_lo _ _ (by decide)]
@[simp] theorem fmtS_at_5_4 (op : BitVec 6) (d a : Reg) (sub : BitVec 4) (i : BitVec 12) : (fmtS op d a sub i).extractLsb' 5 4 = i.extractLsb' 5 4 := by
  simp only [fmtS]
  rw [ext_lo _ _ (by decide)]
@[simp] theorem fmtS_at_5_2 (op : BitVec 6) (d a : Reg) (sub : BitVec 4) (i : BitVec 12) : (fmtS op d a sub i).extractLsb' 5 2 = i.extractLsb' 5 2 := by
  simp only [fmtS]
  rw [ext_lo _ _ (by decide)]
@[simp] theorem fmtS_at_4_1 (op : BitVec 6) (d a : Reg) (sub : BitVec 4) (i : BitVec 12) : (fmtS op d a sub i).extractLsb' 4 1 = i.extractLsb' 4 1 := by
  simp only [fmtS]
  rw [ext_lo _ _ (by decide)]
@[simp] theorem fmtS_at_3_8 (op : BitVec 6) (d a : Reg) (sub : BitVec 4) (i : BitVec 12) : (fmtS op d a sub i).extractLsb' 3 8 = i.extractLsb' 3 8 := by
  simp only [fmtS]
  rw [ext_lo _ _ (by decide)]
@[simp] theorem fmtS_at_2_6 (op : BitVec 6) (d a : Reg) (sub : BitVec 4) (i : BitVec 12) : (fmtS op d a sub i).extractLsb' 2 6 = i.extractLsb' 2 6 := by
  simp only [fmtS]
  rw [ext_lo _ _ (by decide)]
@[simp] theorem fmtS_at_1_4 (op : BitVec 6) (d a : Reg) (sub : BitVec 4) (i : BitVec 12) : (fmtS op d a sub i).extractLsb' 1 4 = i.extractLsb' 1 4 := by
  simp only [fmtS]
  rw [ext_lo _ _ (by decide)]
@[simp] theorem fmtS_at_1_3 (op : BitVec 6) (d a : Reg) (sub : BitVec 4) (i : BitVec 12) : (fmtS op d a sub i).extractLsb' 1 3 = i.extractLsb' 1 3 := by
  simp only [fmtS]
  rw [ext_lo _ _ (by decide)]
@[simp] theorem fmtS_at_1_1 (op : BitVec 6) (d a : Reg) (sub : BitVec 4) (i : BitVec 12) : (fmtS op d a sub i).extractLsb' 1 1 = i.extractLsb' 1 1 := by
  simp only [fmtS]
  rw [ext_lo _ _ (by decide)]
@[simp] theorem fmtS_at_0_12 (op : BitVec 6) (d a : Reg) (sub : BitVec 4) (i : BitVec 12) : (fmtS op d a sub i).extractLsb' 0 12 = i := by
  simp only [fmtS]
  rw [ext_lo _ _ (by decide)]
  simp
@[simp] theorem fmtS_fnOf (op : BitVec 6) (d a : Reg) (sub : BitVec 4) (i : BitVec 12) : fnOf (fmtS op d a sub i) = i.extractLsb' 0 11 := by
  simp only [fnOf, fmtS]
  rw [ext_lo _ _ (by decide)]
@[simp] theorem fmtS_dispOf (op : BitVec 6) (d a : Reg) (sub : BitVec 4) (i : BitVec 12) : dispOf (fmtS op d a sub i) = i.extractLsb' 0 10 := by
  simp only [dispOf, fmtS]
  rw [ext_lo _ _ (by decide)]
@[simp] theorem fmtS_at_0_9 (op : BitVec 6) (d a : Reg) (sub : BitVec 4) (i : BitVec 12) : (fmtS op d a sub i).extractLsb' 0 9 = i.extractLsb' 0 9 := by
  simp only [fmtS]
  rw [ext_lo _ _ (by decide)]
@[simp] theorem fmtS_at_0_8 (op : BitVec 6) (d a : Reg) (sub : BitVec 4) (i : BitVec 12) : (fmtS op d a sub i).extractLsb' 0 8 = i.extractLsb' 0 8 := by
  simp only [fmtS]
  rw [ext_lo _ _ (by decide)]
@[simp] theorem fmtS_at_0_7 (op : BitVec 6) (d a : Reg) (sub : BitVec 4) (i : BitVec 12) : (fmtS op d a sub i).extractLsb' 0 7 = i.extractLsb' 0 7 := by
  simp only [fmtS]
  rw [ext_lo _ _ (by decide)]
@[simp] theorem fmtS_at_0_6 (op : BitVec 6) (d a : Reg) (sub : BitVec 4) (i : BitVec 12) : (fmtS op d a sub i).extractLsb' 0 6 = i.extractLsb' 0 6 := by
  simp only [fmtS]
  rw [ext_lo _ _ (by decide)]
@[simp] theorem fmtS_at_0_5 (op : BitVec 6) (d a : Reg) (sub : BitVec 4) (i : BitVec 12) : (fmtS op d a sub i).extractLsb' 0 5 = i.extractLsb' 0 5 := by
  simp only [fmtS]
  rw [ext_lo _ _ (by decide)]
@[simp] theorem fmtS_at_0_4 (op : BitVec 6) (d a : Reg) (sub : BitVec 4) (i : BitVec 12) : (fmtS op d a sub i).extractLsb' 0 4 = i.extractLsb' 0 4 := by
  simp only [fmtS]
  rw [ext_lo _ _ (by decide)]
@[simp] theorem fmtS_at_0_3 (op : BitVec 6) (d a : Reg) (sub : BitVec 4) (i : BitVec 12) : (fmtS op d a sub i).extractLsb' 0 3 = i.extractLsb' 0 3 := by
  simp only [fmtS]
  rw [ext_lo _ _ (by decide)]
@[simp] theorem fmtS_at_0_2 (op : BitVec 6) (d a : Reg) (sub : BitVec 4) (i : BitVec 12) : (fmtS op d a sub i).extractLsb' 0 2 = i.extractLsb' 0 2 := by
  simp only [fmtS]
  rw [ext_lo _ _ (by decide)]
@[simp] theorem fmtS_at_0_1 (op : BitVec 6) (d a : Reg) (sub : BitVec 4) (i : BitVec 12) : (fmtS op d a sub i).extractLsb' 0 1 = i.extractLsb' 0 1 := by
  simp only [fmtS]
  rw [ext_lo _ _ (by decide)]

/-! ### Format H -/

@[simp] theorem fmtH_opOf (kind : BitVec 3) (p : BitVec 23) : opOf (fmtH kind p) = 0x3F#6 := by
  simp only [opOf, fmtH]
  rw [ext_hi _ _ (by decide), ext_hi _ _ (by decide)]
  rfl
@[simp] theorem fmtH_at_23_3 (kind : BitVec 3) (p : BitVec 23) : (fmtH kind p).extractLsb' 23 3 = kind := by
  simp only [fmtH]
  rw [ext_hi _ _ (by decide), ext_lo _ _ (by decide)]
  simp
@[simp] theorem fmtH_at_21_1 (kind : BitVec 3) (p : BitVec 23) : (fmtH kind p).extractLsb' 21 1 = p.extractLsb' 21 1 := by
  simp only [fmtH]
  rw [ext_lo _ _ (by decide)]
@[simp] theorem fmtH_at_17_4 (kind : BitVec 3) (p : BitVec 23) : (fmtH kind p).extractLsb' 17 4 = p.extractLsb' 17 4 := by
  simp only [fmtH]
  rw [ext_lo _ _ (by decide)]
@[simp] theorem fmtH_aOf (kind : BitVec 3) (p : BitVec 23) : aOf (fmtH kind p) = p.extractLsb' 16 5 := by
  simp only [aOf, fmtH]
  rw [ext_lo _ _ (by decide)]
@[simp] theorem fmtH_at_15_1 (kind : BitVec 3) (p : BitVec 23) : (fmtH kind p).extractLsb' 15 1 = p.extractLsb' 15 1 := by
  simp only [fmtH]
  rw [ext_lo _ _ (by decide)]
@[simp] theorem fmtH_at_14_2 (kind : BitVec 3) (p : BitVec 23) : (fmtH kind p).extractLsb' 14 2 = p.extractLsb' 14 2 := by
  simp only [fmtH]
  rw [ext_lo _ _ (by decide)]
@[simp] theorem fmtH_at_13_4 (kind : BitVec 3) (p : BitVec 23) : (fmtH kind p).extractLsb' 13 4 = p.extractLsb' 13 4 := by
  simp only [fmtH]
  rw [ext_lo _ _ (by decide)]
@[simp] theorem fmtH_fmtOf (kind : BitVec 3) (p : BitVec 23) : fmtOf (fmtH kind p) = p.extractLsb' 12 4 := by
  simp only [fmtOf, fmtH]
  rw [ext_lo _ _ (by decide)]
@[simp] theorem fmtH_at_12_3 (kind : BitVec 3) (p : BitVec 23) : (fmtH kind p).extractLsb' 12 3 = p.extractLsb' 12 3 := by
  simp only [fmtH]
  rw [ext_lo _ _ (by decide)]
@[simp] theorem fmtH_at_12_2 (kind : BitVec 3) (p : BitVec 23) : (fmtH kind p).extractLsb' 12 2 = p.extractLsb' 12 2 := by
  simp only [fmtH]
  rw [ext_lo _ _ (by decide)]
@[simp] theorem fmtH_bOf (kind : BitVec 3) (p : BitVec 23) : bOf (fmtH kind p) = p.extractLsb' 11 5 := by
  simp only [bOf, fmtH]
  rw [ext_lo _ _ (by decide)]
@[simp] theorem fmtH_at_10_5 (kind : BitVec 3) (p : BitVec 23) : (fmtH kind p).extractLsb' 10 5 = p.extractLsb' 10 5 := by
  simp only [fmtH]
  rw [ext_lo _ _ (by decide)]
@[simp] theorem fmtH_ordOf (kind : BitVec 3) (p : BitVec 23) : ordOf (fmtH kind p) = p.extractLsb' 10 2 := by
  simp only [ordOf, fmtH]
  rw [ext_lo _ _ (by decide)]
@[simp] theorem fmtH_at_9_4 (kind : BitVec 3) (p : BitVec 23) : (fmtH kind p).extractLsb' 9 4 = p.extractLsb' 9 4 := by
  simp only [fmtH]
  rw [ext_lo _ _ (by decide)]
@[simp] theorem fmtH_at_9_2 (kind : BitVec 3) (p : BitVec 23) : (fmtH kind p).extractLsb' 9 2 = p.extractLsb' 9 2 := by
  simp only [fmtH]
  rw [ext_lo _ _ (by decide)]
@[simp] theorem fmtH_at_8_6 (kind : BitVec 3) (p : BitVec 23) : (fmtH kind p).extractLsb' 8 6 = p.extractLsb' 8 6 := by
  simp only [fmtH]
  rw [ext_lo _ _ (by decide)]
@[simp] theorem fmtH_at_8_3 (kind : BitVec 3) (p : BitVec 23) : (fmtH kind p).extractLsb' 8 3 = p.extractLsb' 8 3 := by
  simp only [fmtH]
  rw [ext_lo _ _ (by decide)]
@[simp] theorem fmtH_at_8_1 (kind : BitVec 3) (p : BitVec 23) : (fmtH kind p).extractLsb' 8 1 = p.extractLsb' 8 1 := by
  simp only [fmtH]
  rw [ext_lo _ _ (by decide)]
@[simp] theorem fmtH_at_7_16 (kind : BitVec 3) (p : BitVec 23) : (fmtH kind p).extractLsb' 7 16 = p.extractLsb' 7 16 := by
  simp only [fmtH]
  rw [ext_lo _ _ (by decide)]
@[simp] theorem fmtH_at_7_5 (kind : BitVec 3) (p : BitVec 23) : (fmtH kind p).extractLsb' 7 5 = p.extractLsb' 7 5 := by
  simp only [fmtH]
  rw [ext_lo _ _ (by decide)]
@[simp] theorem fmtH_at_7_4 (kind : BitVec 3) (p : BitVec 23) : (fmtH kind p).extractLsb' 7 4 = p.extractLsb' 7 4 := by
  simp only [fmtH]
  rw [ext_lo _ _ (by decide)]
@[simp] theorem fmtH_at_6_6 (kind : BitVec 3) (p : BitVec 23) : (fmtH kind p).extractLsb' 6 6 = p.extractLsb' 6 6 := by
  simp only [fmtH]
  rw [ext_lo _ _ (by decide)]
@[simp] theorem fmtH_cOf (kind : BitVec 3) (p : BitVec 23) : cOf (fmtH kind p) = p.extractLsb' 6 5 := by
  simp only [cOf, fmtH]
  rw [ext_lo _ _ (by decide)]
@[simp] theorem fmtH_at_6_4 (kind : BitVec 3) (p : BitVec 23) : (fmtH kind p).extractLsb' 6 4 = p.extractLsb' 6 4 := by
  simp only [fmtH]
  rw [ext_lo _ _ (by decide)]
@[simp] theorem fmtH_at_5_18 (kind : BitVec 3) (p : BitVec 23) : (fmtH kind p).extractLsb' 5 18 = p.extractLsb' 5 18 := by
  simp only [fmtH]
  rw [ext_lo _ _ (by decide)]
@[simp] theorem fmtH_at_5_5 (kind : BitVec 3) (p : BitVec 23) : (fmtH kind p).extractLsb' 5 5 = p.extractLsb' 5 5 := by
  simp only [fmtH]
  rw [ext_lo _ _ (by decide)]
@[simp] theorem fmtH_at_5_4 (kind : BitVec 3) (p : BitVec 23) : (fmtH kind p).extractLsb' 5 4 = p.extractLsb' 5 4 := by
  simp only [fmtH]
  rw [ext_lo _ _ (by decide)]
@[simp] theorem fmtH_at_5_2 (kind : BitVec 3) (p : BitVec 23) : (fmtH kind p).extractLsb' 5 2 = p.extractLsb' 5 2 := by
  simp only [fmtH]
  rw [ext_lo _ _ (by decide)]
@[simp] theorem fmtH_at_4_1 (kind : BitVec 3) (p : BitVec 23) : (fmtH kind p).extractLsb' 4 1 = p.extractLsb' 4 1 := by
  simp only [fmtH]
  rw [ext_lo _ _ (by decide)]
@[simp] theorem fmtH_at_3_8 (kind : BitVec 3) (p : BitVec 23) : (fmtH kind p).extractLsb' 3 8 = p.extractLsb' 3 8 := by
  simp only [fmtH]
  rw [ext_lo _ _ (by decide)]
@[simp] theorem fmtH_at_2_21 (kind : BitVec 3) (p : BitVec 23) : (fmtH kind p).extractLsb' 2 21 = p.extractLsb' 2 21 := by
  simp only [fmtH]
  rw [ext_lo _ _ (by decide)]
@[simp] theorem fmtH_at_2_6 (kind : BitVec 3) (p : BitVec 23) : (fmtH kind p).extractLsb' 2 6 = p.extractLsb' 2 6 := by
  simp only [fmtH]
  rw [ext_lo _ _ (by decide)]
@[simp] theorem fmtH_at_1_4 (kind : BitVec 3) (p : BitVec 23) : (fmtH kind p).extractLsb' 1 4 = p.extractLsb' 1 4 := by
  simp only [fmtH]
  rw [ext_lo _ _ (by decide)]
@[simp] theorem fmtH_at_1_3 (kind : BitVec 3) (p : BitVec 23) : (fmtH kind p).extractLsb' 1 3 = p.extractLsb' 1 3 := by
  simp only [fmtH]
  rw [ext_lo _ _ (by decide)]
@[simp] theorem fmtH_at_1_1 (kind : BitVec 3) (p : BitVec 23) : (fmtH kind p).extractLsb' 1 1 = p.extractLsb' 1 1 := by
  simp only [fmtH]
  rw [ext_lo _ _ (by decide)]
@[simp] theorem fmtH_at_0_23 (kind : BitVec 3) (p : BitVec 23) : (fmtH kind p).extractLsb' 0 23 = p := by
  simp only [fmtH]
  rw [ext_lo _ _ (by decide)]
  simp
@[simp] theorem fmtH_immOf (kind : BitVec 3) (p : BitVec 23) : immOf (fmtH kind p) = p.extractLsb' 0 16 := by
  simp only [immOf, fmtH]
  rw [ext_lo _ _ (by decide)]
@[simp] theorem fmtH_at_0_12 (kind : BitVec 3) (p : BitVec 23) : (fmtH kind p).extractLsb' 0 12 = p.extractLsb' 0 12 := by
  simp only [fmtH]
  rw [ext_lo _ _ (by decide)]
@[simp] theorem fmtH_fnOf (kind : BitVec 3) (p : BitVec 23) : fnOf (fmtH kind p) = p.extractLsb' 0 11 := by
  simp only [fnOf, fmtH]
  rw [ext_lo _ _ (by decide)]
@[simp] theorem fmtH_dispOf (kind : BitVec 3) (p : BitVec 23) : dispOf (fmtH kind p) = p.extractLsb' 0 10 := by
  simp only [dispOf, fmtH]
  rw [ext_lo _ _ (by decide)]
@[simp] theorem fmtH_at_0_9 (kind : BitVec 3) (p : BitVec 23) : (fmtH kind p).extractLsb' 0 9 = p.extractLsb' 0 9 := by
  simp only [fmtH]
  rw [ext_lo _ _ (by decide)]
@[simp] theorem fmtH_at_0_8 (kind : BitVec 3) (p : BitVec 23) : (fmtH kind p).extractLsb' 0 8 = p.extractLsb' 0 8 := by
  simp only [fmtH]
  rw [ext_lo _ _ (by decide)]
@[simp] theorem fmtH_at_0_7 (kind : BitVec 3) (p : BitVec 23) : (fmtH kind p).extractLsb' 0 7 = p.extractLsb' 0 7 := by
  simp only [fmtH]
  rw [ext_lo _ _ (by decide)]
@[simp] theorem fmtH_at_0_6 (kind : BitVec 3) (p : BitVec 23) : (fmtH kind p).extractLsb' 0 6 = p.extractLsb' 0 6 := by
  simp only [fmtH]
  rw [ext_lo _ _ (by decide)]
@[simp] theorem fmtH_at_0_5 (kind : BitVec 3) (p : BitVec 23) : (fmtH kind p).extractLsb' 0 5 = p.extractLsb' 0 5 := by
  simp only [fmtH]
  rw [ext_lo _ _ (by decide)]
@[simp] theorem fmtH_at_0_4 (kind : BitVec 3) (p : BitVec 23) : (fmtH kind p).extractLsb' 0 4 = p.extractLsb' 0 4 := by
  simp only [fmtH]
  rw [ext_lo _ _ (by decide)]
@[simp] theorem fmtH_at_0_3 (kind : BitVec 3) (p : BitVec 23) : (fmtH kind p).extractLsb' 0 3 = p.extractLsb' 0 3 := by
  simp only [fmtH]
  rw [ext_lo _ _ (by decide)]
@[simp] theorem fmtH_at_0_2 (kind : BitVec 3) (p : BitVec 23) : (fmtH kind p).extractLsb' 0 2 = p.extractLsb' 0 2 := by
  simp only [fmtH]
  rw [ext_lo _ _ (by decide)]
@[simp] theorem fmtH_at_0_1 (kind : BitVec 3) (p : BitVec 23) : (fmtH kind p).extractLsb' 0 1 = p.extractLsb' 0 1 := by
  simp only [fmtH]
  rw [ext_lo _ _ (by decide)]

/-! ### Parts of fields -/

@[simp] theorem part_0b10_v6_at_0_6 (u : BitVec 6) : (0#10 ++ u : BitVec 16).extractLsb' 0 6 = u := by
  rw [ext_lo _ _ (by decide)]
  simp
@[simp] theorem part_0b10_v6_at_6_4 (u : BitVec 6) : (0#10 ++ u : BitVec 16).extractLsb' 6 4 = 0#4 := by
  rw [ext_hi _ _ (by decide)]
  rfl
@[simp] theorem part_0b10_v6_at_10_2 (u : BitVec 6) : (0#10 ++ u : BitVec 16).extractLsb' 10 2 = 0#2 := by
  rw [ext_hi _ _ (by decide)]
  rfl
@[simp] theorem part_0b10_v6_at_12_4 (u : BitVec 6) : (0#10 ++ u : BitVec 16).extractLsb' 12 4 = 0#4 := by
  rw [ext_hi _ _ (by decide)]
  rfl
@[simp] theorem part_64b10_v6_at_0_6 (u : BitVec 6) : (64#10 ++ u : BitVec 16).extractLsb' 0 6 = u := by
  rw [ext_lo _ _ (by decide)]
  simp
@[simp] theorem part_64b10_v6_at_6_4 (u : BitVec 6) : (64#10 ++ u : BitVec 16).extractLsb' 6 4 = 0#4 := by
  rw [ext_hi _ _ (by decide)]
  rfl
@[simp] theorem part_64b10_v6_at_10_2 (u : BitVec 6) : (64#10 ++ u : BitVec 16).extractLsb' 10 2 = 0#2 := by
  rw [ext_hi _ _ (by decide)]
  rfl
@[simp] theorem part_64b10_v6_at_12_4 (u : BitVec 6) : (64#10 ++ u : BitVec 16).extractLsb' 12 4 = 1#4 := by
  rw [ext_hi _ _ (by decide)]
  rfl
@[simp] theorem part_128b10_v6_at_0_6 (u : BitVec 6) : (128#10 ++ u : BitVec 16).extractLsb' 0 6 = u := by
  rw [ext_lo _ _ (by decide)]
  simp
@[simp] theorem part_128b10_v6_at_6_4 (u : BitVec 6) : (128#10 ++ u : BitVec 16).extractLsb' 6 4 = 0#4 := by
  rw [ext_hi _ _ (by decide)]
  rfl
@[simp] theorem part_128b10_v6_at_10_2 (u : BitVec 6) : (128#10 ++ u : BitVec 16).extractLsb' 10 2 = 0#2 := by
  rw [ext_hi _ _ (by decide)]
  rfl
@[simp] theorem part_128b10_v6_at_12_4 (u : BitVec 6) : (128#10 ++ u : BitVec 16).extractLsb' 12 4 = 2#4 := by
  rw [ext_hi _ _ (by decide)]
  rfl
@[simp] theorem part_192b10_v6_at_0_6 (u : BitVec 6) : (192#10 ++ u : BitVec 16).extractLsb' 0 6 = u := by
  rw [ext_lo _ _ (by decide)]
  simp
@[simp] theorem part_192b10_v6_at_6_4 (u : BitVec 6) : (192#10 ++ u : BitVec 16).extractLsb' 6 4 = 0#4 := by
  rw [ext_hi _ _ (by decide)]
  rfl
@[simp] theorem part_192b10_v6_at_10_2 (u : BitVec 6) : (192#10 ++ u : BitVec 16).extractLsb' 10 2 = 0#2 := by
  rw [ext_hi _ _ (by decide)]
  rfl
@[simp] theorem part_192b10_v6_at_12_4 (u : BitVec 6) : (192#10 ++ u : BitVec 16).extractLsb' 12 4 = 3#4 := by
  rw [ext_hi _ _ (by decide)]
  rfl
@[simp] theorem part_512b11_v5_at_0_5 (u : BitVec 5) : (512#11 ++ u : BitVec 16).extractLsb' 0 5 = u := by
  rw [ext_lo _ _ (by decide)]
  simp
@[simp] theorem part_512b11_v5_at_5_5 (u : BitVec 5) : (512#11 ++ u : BitVec 16).extractLsb' 5 5 = 0#5 := by
  rw [ext_hi _ _ (by decide)]
  rfl
@[simp] theorem part_512b11_v5_at_6_4 (u : BitVec 5) : (512#11 ++ u : BitVec 16).extractLsb' 6 4 = 0#4 := by
  rw [ext_hi _ _ (by decide)]
  rfl
@[simp] theorem part_512b11_v5_at_10_2 (u : BitVec 5) : (512#11 ++ u : BitVec 16).extractLsb' 10 2 = 0#2 := by
  rw [ext_hi _ _ (by decide)]
  rfl
@[simp] theorem part_512b11_v5_at_12_4 (u : BitVec 5) : (512#11 ++ u : BitVec 16).extractLsb' 12 4 = 4#4 := by
  rw [ext_hi _ _ (by decide)]
  rfl
@[simp] theorem part_640b11_v5_at_0_5 (u : BitVec 5) : (640#11 ++ u : BitVec 16).extractLsb' 0 5 = u := by
  rw [ext_lo _ _ (by decide)]
  simp
@[simp] theorem part_640b11_v5_at_5_5 (u : BitVec 5) : (640#11 ++ u : BitVec 16).extractLsb' 5 5 = 0#5 := by
  rw [ext_hi _ _ (by decide)]
  rfl
@[simp] theorem part_640b11_v5_at_6_4 (u : BitVec 5) : (640#11 ++ u : BitVec 16).extractLsb' 6 4 = 0#4 := by
  rw [ext_hi _ _ (by decide)]
  rfl
@[simp] theorem part_640b11_v5_at_10_2 (u : BitVec 5) : (640#11 ++ u : BitVec 16).extractLsb' 10 2 = 0#2 := by
  rw [ext_hi _ _ (by decide)]
  rfl
@[simp] theorem part_640b11_v5_at_12_4 (u : BitVec 5) : (640#11 ++ u : BitVec 16).extractLsb' 12 4 = 5#4 := by
  rw [ext_hi _ _ (by decide)]
  rfl
@[simp] theorem part_768b11_v5_at_0_5 (u : BitVec 5) : (768#11 ++ u : BitVec 16).extractLsb' 0 5 = u := by
  rw [ext_lo _ _ (by decide)]
  simp
@[simp] theorem part_768b11_v5_at_5_5 (u : BitVec 5) : (768#11 ++ u : BitVec 16).extractLsb' 5 5 = 0#5 := by
  rw [ext_hi _ _ (by decide)]
  rfl
@[simp] theorem part_768b11_v5_at_6_4 (u : BitVec 5) : (768#11 ++ u : BitVec 16).extractLsb' 6 4 = 0#4 := by
  rw [ext_hi _ _ (by decide)]
  rfl
@[simp] theorem part_768b11_v5_at_10_2 (u : BitVec 5) : (768#11 ++ u : BitVec 16).extractLsb' 10 2 = 0#2 := by
  rw [ext_hi _ _ (by decide)]
  rfl
@[simp] theorem part_768b11_v5_at_12_4 (u : BitVec 5) : (768#11 ++ u : BitVec 16).extractLsb' 12 4 = 6#4 := by
  rw [ext_hi _ _ (by decide)]
  rfl
@[simp] theorem part_0b4_v6_v6_at_0_6 (u : BitVec 6) (v : BitVec 6) : (0#4 ++ u ++ v : BitVec 16).extractLsb' 0 6 = v := by
  rw [ext_lo _ _ (by decide)]
  simp
@[simp] theorem part_0b4_v6_v6_at_6_6 (u : BitVec 6) (v : BitVec 6) : (0#4 ++ u ++ v : BitVec 16).extractLsb' 6 6 = u := by
  rw [ext_hi _ _ (by decide), ext_lo _ _ (by decide)]
  simp
@[simp] theorem part_0b4_v6_v6_at_12_2 (u : BitVec 6) (v : BitVec 6) : (0#4 ++ u ++ v : BitVec 16).extractLsb' 12 2 = 0#2 := by
  rw [ext_hi _ _ (by decide), ext_hi _ _ (by decide)]
  rfl
@[simp] theorem part_0b4_v6_v6_at_14_2 (u : BitVec 6) (v : BitVec 6) : (0#4 ++ u ++ v : BitVec 16).extractLsb' 14 2 = 0#2 := by
  rw [ext_hi _ _ (by decide), ext_hi _ _ (by decide)]
  rfl
@[simp] theorem part_4b4_v6_v6_at_0_6 (u : BitVec 6) (v : BitVec 6) : (4#4 ++ u ++ v : BitVec 16).extractLsb' 0 6 = v := by
  rw [ext_lo _ _ (by decide)]
  simp
@[simp] theorem part_4b4_v6_v6_at_6_6 (u : BitVec 6) (v : BitVec 6) : (4#4 ++ u ++ v : BitVec 16).extractLsb' 6 6 = u := by
  rw [ext_hi _ _ (by decide), ext_lo _ _ (by decide)]
  simp
@[simp] theorem part_4b4_v6_v6_at_12_2 (u : BitVec 6) (v : BitVec 6) : (4#4 ++ u ++ v : BitVec 16).extractLsb' 12 2 = 0#2 := by
  rw [ext_hi _ _ (by decide), ext_hi _ _ (by decide)]
  rfl
@[simp] theorem part_4b4_v6_v6_at_14_2 (u : BitVec 6) (v : BitVec 6) : (4#4 ++ u ++ v : BitVec 16).extractLsb' 14 2 = 1#2 := by
  rw [ext_hi _ _ (by decide), ext_hi _ _ (by decide)]
  rfl
@[simp] theorem part_8b4_v6_v6_at_0_6 (u : BitVec 6) (v : BitVec 6) : (8#4 ++ u ++ v : BitVec 16).extractLsb' 0 6 = v := by
  rw [ext_lo _ _ (by decide)]
  simp
@[simp] theorem part_8b4_v6_v6_at_6_6 (u : BitVec 6) (v : BitVec 6) : (8#4 ++ u ++ v : BitVec 16).extractLsb' 6 6 = u := by
  rw [ext_hi _ _ (by decide), ext_lo _ _ (by decide)]
  simp
@[simp] theorem part_8b4_v6_v6_at_12_2 (u : BitVec 6) (v : BitVec 6) : (8#4 ++ u ++ v : BitVec 16).extractLsb' 12 2 = 0#2 := by
  rw [ext_hi _ _ (by decide), ext_hi _ _ (by decide)]
  rfl
@[simp] theorem part_8b4_v6_v6_at_14_2 (u : BitVec 6) (v : BitVec 6) : (8#4 ++ u ++ v : BitVec 16).extractLsb' 14 2 = 2#2 := by
  rw [ext_hi _ _ (by decide), ext_hi _ _ (by decide)]
  rfl
@[simp] theorem part_v4_0b1_at_0_1 (u : BitVec 4) : (u ++ 0#1 : BitVec 5).extractLsb' 0 1 = 0#1 := by
  rw [ext_lo _ _ (by decide)]
  rfl
@[simp] theorem part_v4_0b1_at_1_4 (u : BitVec 4) : (u ++ 0#1 : BitVec 5).extractLsb' 1 4 = u := by
  rw [ext_hi _ _ (by decide)]
  simp
@[simp] theorem part_0b1_v3_at_0_3 (u : BitVec 3) : (0#1 ++ u : BitVec 4).extractLsb' 0 3 = u := by
  rw [ext_lo _ _ (by decide)]
  simp
@[simp] theorem part_0b1_v3_at_3_1 (u : BitVec 3) : (0#1 ++ u : BitVec 4).extractLsb' 3 1 = 0#1 := by
  rw [ext_hi _ _ (by decide)]
  rfl
@[simp] theorem part_1b1_v3_at_0_3 (u : BitVec 3) : (1#1 ++ u : BitVec 4).extractLsb' 0 3 = u := by
  rw [ext_lo _ _ (by decide)]
  simp
@[simp] theorem part_1b1_v3_at_3_1 (u : BitVec 3) : (1#1 ++ u : BitVec 4).extractLsb' 3 1 = 1#1 := by
  rw [ext_hi _ _ (by decide)]
  rfl
@[simp] theorem part_0b4_v2_v1_0b4_at_0_1 (u : BitVec 2) (v : BitVec 1) : (0#4 ++ u ++ v ++ 0#4 : BitVec 11).extractLsb' 0 1 = 0#1 := by
  rw [ext_lo _ _ (by decide)]
  rfl
@[simp] theorem part_0b4_v2_v1_0b4_at_0_4 (u : BitVec 2) (v : BitVec 1) : (0#4 ++ u ++ v ++ 0#4 : BitVec 11).extractLsb' 0 4 = 0#4 := by
  rw [ext_lo _ _ (by decide)]
  rfl
@[simp] theorem part_0b4_v2_v1_0b4_at_1_3 (u : BitVec 2) (v : BitVec 1) : (0#4 ++ u ++ v ++ 0#4 : BitVec 11).extractLsb' 1 3 = 0#3 := by
  rw [ext_lo _ _ (by decide)]
  rfl
@[simp] theorem part_0b4_v2_v1_0b4_at_4_1 (u : BitVec 2) (v : BitVec 1) : (0#4 ++ u ++ v ++ 0#4 : BitVec 11).extractLsb' 4 1 = v := by
  rw [ext_hi _ _ (by decide), ext_lo _ _ (by decide)]
  simp
@[simp] theorem part_0b4_v2_v1_0b4_at_5_2 (u : BitVec 2) (v : BitVec 1) : (0#4 ++ u ++ v ++ 0#4 : BitVec 11).extractLsb' 5 2 = u := by
  rw [ext_hi _ _ (by decide), ext_hi _ _ (by decide), ext_lo _ _ (by decide)]
  simp
@[simp] theorem part_0b4_v2_v1_0b4_at_7_4 (u : BitVec 2) (v : BitVec 1) : (0#4 ++ u ++ v ++ 0#4 : BitVec 11).extractLsb' 7 4 = 0#4 := by
  rw [ext_hi _ _ (by decide), ext_hi _ _ (by decide), ext_hi _ _ (by decide)]
  rfl
@[simp] theorem part_1b4_v2_v1_0b4_at_0_4 (u : BitVec 2) (v : BitVec 1) : (1#4 ++ u ++ v ++ 0#4 : BitVec 11).extractLsb' 0 4 = 0#4 := by
  rw [ext_lo _ _ (by decide)]
  rfl
@[simp] theorem part_1b4_v2_v1_0b4_at_4_1 (u : BitVec 2) (v : BitVec 1) : (1#4 ++ u ++ v ++ 0#4 : BitVec 11).extractLsb' 4 1 = v := by
  rw [ext_hi _ _ (by decide), ext_lo _ _ (by decide)]
  simp
@[simp] theorem part_1b4_v2_v1_0b4_at_5_2 (u : BitVec 2) (v : BitVec 1) : (1#4 ++ u ++ v ++ 0#4 : BitVec 11).extractLsb' 5 2 = u := by
  rw [ext_hi _ _ (by decide), ext_hi _ _ (by decide), ext_lo _ _ (by decide)]
  simp
@[simp] theorem part_1b4_v2_v1_0b4_at_7_4 (u : BitVec 2) (v : BitVec 1) : (1#4 ++ u ++ v ++ 0#4 : BitVec 11).extractLsb' 7 4 = 1#4 := by
  rw [ext_hi _ _ (by decide), ext_hi _ _ (by decide), ext_hi _ _ (by decide)]
  rfl
@[simp] theorem part_2b4_v2_v1_0b4_at_0_4 (u : BitVec 2) (v : BitVec 1) : (2#4 ++ u ++ v ++ 0#4 : BitVec 11).extractLsb' 0 4 = 0#4 := by
  rw [ext_lo _ _ (by decide)]
  rfl
@[simp] theorem part_2b4_v2_v1_0b4_at_4_1 (u : BitVec 2) (v : BitVec 1) : (2#4 ++ u ++ v ++ 0#4 : BitVec 11).extractLsb' 4 1 = v := by
  rw [ext_hi _ _ (by decide), ext_lo _ _ (by decide)]
  simp
@[simp] theorem part_2b4_v2_v1_0b4_at_5_2 (u : BitVec 2) (v : BitVec 1) : (2#4 ++ u ++ v ++ 0#4 : BitVec 11).extractLsb' 5 2 = u := by
  rw [ext_hi _ _ (by decide), ext_hi _ _ (by decide), ext_lo _ _ (by decide)]
  simp
@[simp] theorem part_2b4_v2_v1_0b4_at_7_4 (u : BitVec 2) (v : BitVec 1) : (2#4 ++ u ++ v ++ 0#4 : BitVec 11).extractLsb' 7 4 = 2#4 := by
  rw [ext_hi _ _ (by decide), ext_hi _ _ (by decide), ext_hi _ _ (by decide)]
  rfl
@[simp] theorem part_3b4_v2_v1_0b4_at_0_4 (u : BitVec 2) (v : BitVec 1) : (3#4 ++ u ++ v ++ 0#4 : BitVec 11).extractLsb' 0 4 = 0#4 := by
  rw [ext_lo _ _ (by decide)]
  rfl
@[simp] theorem part_3b4_v2_v1_0b4_at_4_1 (u : BitVec 2) (v : BitVec 1) : (3#4 ++ u ++ v ++ 0#4 : BitVec 11).extractLsb' 4 1 = v := by
  rw [ext_hi _ _ (by decide), ext_lo _ _ (by decide)]
  simp
@[simp] theorem part_3b4_v2_v1_0b4_at_5_2 (u : BitVec 2) (v : BitVec 1) : (3#4 ++ u ++ v ++ 0#4 : BitVec 11).extractLsb' 5 2 = u := by
  rw [ext_hi _ _ (by decide), ext_hi _ _ (by decide), ext_lo _ _ (by decide)]
  simp
@[simp] theorem part_3b4_v2_v1_0b4_at_7_4 (u : BitVec 2) (v : BitVec 1) : (3#4 ++ u ++ v ++ 0#4 : BitVec 11).extractLsb' 7 4 = 3#4 := by
  rw [ext_hi _ _ (by decide), ext_hi _ _ (by decide), ext_hi _ _ (by decide)]
  rfl
@[simp] theorem part_4b4_v2_v1_0b4_at_0_4 (u : BitVec 2) (v : BitVec 1) : (4#4 ++ u ++ v ++ 0#4 : BitVec 11).extractLsb' 0 4 = 0#4 := by
  rw [ext_lo _ _ (by decide)]
  rfl
@[simp] theorem part_4b4_v2_v1_0b4_at_4_1 (u : BitVec 2) (v : BitVec 1) : (4#4 ++ u ++ v ++ 0#4 : BitVec 11).extractLsb' 4 1 = v := by
  rw [ext_hi _ _ (by decide), ext_lo _ _ (by decide)]
  simp
@[simp] theorem part_4b4_v2_v1_0b4_at_5_2 (u : BitVec 2) (v : BitVec 1) : (4#4 ++ u ++ v ++ 0#4 : BitVec 11).extractLsb' 5 2 = u := by
  rw [ext_hi _ _ (by decide), ext_hi _ _ (by decide), ext_lo _ _ (by decide)]
  simp
@[simp] theorem part_4b4_v2_v1_0b4_at_7_4 (u : BitVec 2) (v : BitVec 1) : (4#4 ++ u ++ v ++ 0#4 : BitVec 11).extractLsb' 7 4 = 4#4 := by
  rw [ext_hi _ _ (by decide), ext_hi _ _ (by decide), ext_hi _ _ (by decide)]
  rfl
@[simp] theorem part_5b4_v2_v1_0b4_at_0_4 (u : BitVec 2) (v : BitVec 1) : (5#4 ++ u ++ v ++ 0#4 : BitVec 11).extractLsb' 0 4 = 0#4 := by
  rw [ext_lo _ _ (by decide)]
  rfl
@[simp] theorem part_5b4_v2_v1_0b4_at_4_1 (u : BitVec 2) (v : BitVec 1) : (5#4 ++ u ++ v ++ 0#4 : BitVec 11).extractLsb' 4 1 = v := by
  rw [ext_hi _ _ (by decide), ext_lo _ _ (by decide)]
  simp
@[simp] theorem part_5b4_v2_v1_0b4_at_5_2 (u : BitVec 2) (v : BitVec 1) : (5#4 ++ u ++ v ++ 0#4 : BitVec 11).extractLsb' 5 2 = u := by
  rw [ext_hi _ _ (by decide), ext_hi _ _ (by decide), ext_lo _ _ (by decide)]
  simp
@[simp] theorem part_5b4_v2_v1_0b4_at_7_4 (u : BitVec 2) (v : BitVec 1) : (5#4 ++ u ++ v ++ 0#4 : BitVec 11).extractLsb' 7 4 = 5#4 := by
  rw [ext_hi _ _ (by decide), ext_hi _ _ (by decide), ext_hi _ _ (by decide)]
  rfl
@[simp] theorem part_6b4_v2_v1_0b4_at_0_4 (u : BitVec 2) (v : BitVec 1) : (6#4 ++ u ++ v ++ 0#4 : BitVec 11).extractLsb' 0 4 = 0#4 := by
  rw [ext_lo _ _ (by decide)]
  rfl
@[simp] theorem part_6b4_v2_v1_0b4_at_4_1 (u : BitVec 2) (v : BitVec 1) : (6#4 ++ u ++ v ++ 0#4 : BitVec 11).extractLsb' 4 1 = v := by
  rw [ext_hi _ _ (by decide), ext_lo _ _ (by decide)]
  simp
@[simp] theorem part_6b4_v2_v1_0b4_at_5_2 (u : BitVec 2) (v : BitVec 1) : (6#4 ++ u ++ v ++ 0#4 : BitVec 11).extractLsb' 5 2 = u := by
  rw [ext_hi _ _ (by decide), ext_hi _ _ (by decide), ext_lo _ _ (by decide)]
  simp
@[simp] theorem part_6b4_v2_v1_0b4_at_7_4 (u : BitVec 2) (v : BitVec 1) : (6#4 ++ u ++ v ++ 0#4 : BitVec 11).extractLsb' 7 4 = 6#4 := by
  rw [ext_hi _ _ (by decide), ext_hi _ _ (by decide), ext_hi _ _ (by decide)]
  rfl
@[simp] theorem part_7b4_v2_v1_0b4_at_0_4 (u : BitVec 2) (v : BitVec 1) : (7#4 ++ u ++ v ++ 0#4 : BitVec 11).extractLsb' 0 4 = 0#4 := by
  rw [ext_lo _ _ (by decide)]
  rfl
@[simp] theorem part_7b4_v2_v1_0b4_at_4_1 (u : BitVec 2) (v : BitVec 1) : (7#4 ++ u ++ v ++ 0#4 : BitVec 11).extractLsb' 4 1 = v := by
  rw [ext_hi _ _ (by decide), ext_lo _ _ (by decide)]
  simp
@[simp] theorem part_7b4_v2_v1_0b4_at_5_2 (u : BitVec 2) (v : BitVec 1) : (7#4 ++ u ++ v ++ 0#4 : BitVec 11).extractLsb' 5 2 = u := by
  rw [ext_hi _ _ (by decide), ext_hi _ _ (by decide), ext_lo _ _ (by decide)]
  simp
@[simp] theorem part_7b4_v2_v1_0b4_at_7_4 (u : BitVec 2) (v : BitVec 1) : (7#4 ++ u ++ v ++ 0#4 : BitVec 11).extractLsb' 7 4 = 7#4 := by
  rw [ext_hi _ _ (by decide), ext_hi _ _ (by decide), ext_hi _ _ (by decide)]
  rfl
@[simp] theorem part_8b4_v2_v1_0b4_at_0_4 (u : BitVec 2) (v : BitVec 1) : (8#4 ++ u ++ v ++ 0#4 : BitVec 11).extractLsb' 0 4 = 0#4 := by
  rw [ext_lo _ _ (by decide)]
  rfl
@[simp] theorem part_8b4_v2_v1_0b4_at_4_1 (u : BitVec 2) (v : BitVec 1) : (8#4 ++ u ++ v ++ 0#4 : BitVec 11).extractLsb' 4 1 = v := by
  rw [ext_hi _ _ (by decide), ext_lo _ _ (by decide)]
  simp
@[simp] theorem part_8b4_v2_v1_0b4_at_5_2 (u : BitVec 2) (v : BitVec 1) : (8#4 ++ u ++ v ++ 0#4 : BitVec 11).extractLsb' 5 2 = u := by
  rw [ext_hi _ _ (by decide), ext_hi _ _ (by decide), ext_lo _ _ (by decide)]
  simp
@[simp] theorem part_8b4_v2_v1_0b4_at_7_4 (u : BitVec 2) (v : BitVec 1) : (8#4 ++ u ++ v ++ 0#4 : BitVec 11).extractLsb' 7 4 = 8#4 := by
  rw [ext_hi _ _ (by decide), ext_hi _ _ (by decide), ext_hi _ _ (by decide)]
  rfl
@[simp] theorem part_0b4_v2_1b5_at_0_1 (u : BitVec 2) : (0#4 ++ u ++ 1#5 : BitVec 11).extractLsb' 0 1 = 1#1 := by
  rw [ext_lo _ _ (by decide)]
  rfl
@[simp] theorem part_0b4_v2_1b5_at_1_3 (u : BitVec 2) : (0#4 ++ u ++ 1#5 : BitVec 11).extractLsb' 1 3 = 0#3 := by
  rw [ext_lo _ _ (by decide)]
  rfl
@[simp] theorem part_0b4_v2_1b5_at_1_4 (u : BitVec 2) : (0#4 ++ u ++ 1#5 : BitVec 11).extractLsb' 1 4 = 0#4 := by
  rw [ext_lo _ _ (by decide)]
  rfl
@[simp] theorem part_0b4_v2_1b5_at_5_2 (u : BitVec 2) : (0#4 ++ u ++ 1#5 : BitVec 11).extractLsb' 5 2 = u := by
  rw [ext_hi _ _ (by decide), ext_lo _ _ (by decide)]
  simp
@[simp] theorem part_0b4_v2_1b5_at_7_4 (u : BitVec 2) : (0#4 ++ u ++ 1#5 : BitVec 11).extractLsb' 7 4 = 0#4 := by
  rw [ext_hi _ _ (by decide), ext_hi _ _ (by decide)]
  rfl
@[simp] theorem part_0b1_v8_at_0_8 (u : BitVec 8) : (0#1 ++ u : BitVec 9).extractLsb' 0 8 = u := by
  rw [ext_lo _ _ (by decide)]
  simp
@[simp] theorem part_0b1_v8_at_8_1 (u : BitVec 8) : (0#1 ++ u : BitVec 9).extractLsb' 8 1 = 0#1 := by
  rw [ext_hi _ _ (by decide)]
  rfl
@[simp] theorem part_1b1_v8_at_0_8 (u : BitVec 8) : (1#1 ++ u : BitVec 9).extractLsb' 0 8 = u := by
  rw [ext_lo _ _ (by decide)]
  simp
@[simp] theorem part_1b1_v8_at_8_1 (u : BitVec 8) : (1#1 ++ u : BitVec 9).extractLsb' 8 1 = 1#1 := by
  rw [ext_hi _ _ (by decide)]
  rfl
@[simp] theorem part_v2_0b9_at_0_9 (u : BitVec 2) : (u ++ 0#9 : BitVec 11).extractLsb' 0 9 = 0#9 := by
  rw [ext_lo _ _ (by decide)]
  rfl
@[simp] theorem part_v2_0b9_at_9_2 (u : BitVec 2) : (u ++ 0#9 : BitVec 11).extractLsb' 9 2 = u := by
  rw [ext_hi _ _ (by decide)]
  simp
@[simp] theorem part_v2_1b9_at_0_9 (u : BitVec 2) : (u ++ 1#9 : BitVec 11).extractLsb' 0 9 = 1#9 := by
  rw [ext_lo _ _ (by decide)]
  rfl
@[simp] theorem part_v2_1b9_at_9_2 (u : BitVec 2) : (u ++ 1#9 : BitVec 11).extractLsb' 9 2 = u := by
  rw [ext_hi _ _ (by decide)]
  simp
@[simp] theorem part_v2_2b9_at_0_9 (u : BitVec 2) : (u ++ 2#9 : BitVec 11).extractLsb' 0 9 = 2#9 := by
  rw [ext_lo _ _ (by decide)]
  rfl
@[simp] theorem part_v2_2b9_at_9_2 (u : BitVec 2) : (u ++ 2#9 : BitVec 11).extractLsb' 9 2 = u := by
  rw [ext_hi _ _ (by decide)]
  simp
@[simp] theorem part_v2_3b9_at_0_9 (u : BitVec 2) : (u ++ 3#9 : BitVec 11).extractLsb' 0 9 = 3#9 := by
  rw [ext_lo _ _ (by decide)]
  rfl
@[simp] theorem part_v2_3b9_at_9_2 (u : BitVec 2) : (u ++ 3#9 : BitVec 11).extractLsb' 9 2 = u := by
  rw [ext_hi _ _ (by decide)]
  simp
@[simp] theorem part_v2_4b9_at_0_9 (u : BitVec 2) : (u ++ 4#9 : BitVec 11).extractLsb' 0 9 = 4#9 := by
  rw [ext_lo _ _ (by decide)]
  rfl
@[simp] theorem part_v2_4b9_at_9_2 (u : BitVec 2) : (u ++ 4#9 : BitVec 11).extractLsb' 9 2 = u := by
  rw [ext_hi _ _ (by decide)]
  simp
@[simp] theorem part_v2_5b9_at_0_9 (u : BitVec 2) : (u ++ 5#9 : BitVec 11).extractLsb' 0 9 = 5#9 := by
  rw [ext_lo _ _ (by decide)]
  rfl
@[simp] theorem part_v2_5b9_at_9_2 (u : BitVec 2) : (u ++ 5#9 : BitVec 11).extractLsb' 9 2 = u := by
  rw [ext_hi _ _ (by decide)]
  simp
@[simp] theorem part_v2_6b9_at_0_9 (u : BitVec 2) : (u ++ 6#9 : BitVec 11).extractLsb' 0 9 = 6#9 := by
  rw [ext_lo _ _ (by decide)]
  rfl
@[simp] theorem part_v2_6b9_at_9_2 (u : BitVec 2) : (u ++ 6#9 : BitVec 11).extractLsb' 9 2 = u := by
  rw [ext_hi _ _ (by decide)]
  simp
@[simp] theorem part_v2_7b9_at_0_9 (u : BitVec 2) : (u ++ 7#9 : BitVec 11).extractLsb' 0 9 = 7#9 := by
  rw [ext_lo _ _ (by decide)]
  rfl
@[simp] theorem part_v2_7b9_at_9_2 (u : BitVec 2) : (u ++ 7#9 : BitVec 11).extractLsb' 9 2 = u := by
  rw [ext_hi _ _ (by decide)]
  simp
@[simp] theorem part_v2_8b9_at_0_9 (u : BitVec 2) : (u ++ 8#9 : BitVec 11).extractLsb' 0 9 = 8#9 := by
  rw [ext_lo _ _ (by decide)]
  rfl
@[simp] theorem part_v2_8b9_at_9_2 (u : BitVec 2) : (u ++ 8#9 : BitVec 11).extractLsb' 9 2 = u := by
  rw [ext_hi _ _ (by decide)]
  simp
@[simp] theorem part_v2_9b9_at_0_9 (u : BitVec 2) : (u ++ 9#9 : BitVec 11).extractLsb' 0 9 = 9#9 := by
  rw [ext_lo _ _ (by decide)]
  rfl
@[simp] theorem part_v2_9b9_at_9_2 (u : BitVec 2) : (u ++ 9#9 : BitVec 11).extractLsb' 9 2 = u := by
  rw [ext_hi _ _ (by decide)]
  simp
@[simp] theorem part_v2_10b9_at_0_9 (u : BitVec 2) : (u ++ 10#9 : BitVec 11).extractLsb' 0 9 = 10#9 := by
  rw [ext_lo _ _ (by decide)]
  rfl
@[simp] theorem part_v2_10b9_at_9_2 (u : BitVec 2) : (u ++ 10#9 : BitVec 11).extractLsb' 9 2 = u := by
  rw [ext_hi _ _ (by decide)]
  simp
@[simp] theorem part_v2_11b9_at_0_9 (u : BitVec 2) : (u ++ 11#9 : BitVec 11).extractLsb' 0 9 = 11#9 := by
  rw [ext_lo _ _ (by decide)]
  rfl
@[simp] theorem part_v2_11b9_at_9_2 (u : BitVec 2) : (u ++ 11#9 : BitVec 11).extractLsb' 9 2 = u := by
  rw [ext_hi _ _ (by decide)]
  simp
@[simp] theorem part_v2_12b9_at_0_9 (u : BitVec 2) : (u ++ 12#9 : BitVec 11).extractLsb' 0 9 = 12#9 := by
  rw [ext_lo _ _ (by decide)]
  rfl
@[simp] theorem part_v2_12b9_at_9_2 (u : BitVec 2) : (u ++ 12#9 : BitVec 11).extractLsb' 9 2 = u := by
  rw [ext_hi _ _ (by decide)]
  simp
@[simp] theorem part_v2_13b9_at_0_9 (u : BitVec 2) : (u ++ 13#9 : BitVec 11).extractLsb' 0 9 = 13#9 := by
  rw [ext_lo _ _ (by decide)]
  rfl
@[simp] theorem part_v2_13b9_at_9_2 (u : BitVec 2) : (u ++ 13#9 : BitVec 11).extractLsb' 9 2 = u := by
  rw [ext_hi _ _ (by decide)]
  simp
@[simp] theorem part_v2_14b9_at_0_9 (u : BitVec 2) : (u ++ 14#9 : BitVec 11).extractLsb' 0 9 = 14#9 := by
  rw [ext_lo _ _ (by decide)]
  rfl
@[simp] theorem part_v2_14b9_at_9_2 (u : BitVec 2) : (u ++ 14#9 : BitVec 11).extractLsb' 9 2 = u := by
  rw [ext_hi _ _ (by decide)]
  simp
@[simp] theorem part_v2_15b9_at_0_9 (u : BitVec 2) : (u ++ 15#9 : BitVec 11).extractLsb' 0 9 = 15#9 := by
  rw [ext_lo _ _ (by decide)]
  rfl
@[simp] theorem part_v2_15b9_at_9_2 (u : BitVec 2) : (u ++ 15#9 : BitVec 11).extractLsb' 9 2 = u := by
  rw [ext_hi _ _ (by decide)]
  simp
@[simp] theorem part_v2_16b9_at_0_9 (u : BitVec 2) : (u ++ 16#9 : BitVec 11).extractLsb' 0 9 = 16#9 := by
  rw [ext_lo _ _ (by decide)]
  rfl
@[simp] theorem part_v2_16b9_at_9_2 (u : BitVec 2) : (u ++ 16#9 : BitVec 11).extractLsb' 9 2 = u := by
  rw [ext_hi _ _ (by decide)]
  simp
@[simp] theorem part_v2_17b9_at_0_9 (u : BitVec 2) : (u ++ 17#9 : BitVec 11).extractLsb' 0 9 = 17#9 := by
  rw [ext_lo _ _ (by decide)]
  rfl
@[simp] theorem part_v2_17b9_at_9_2 (u : BitVec 2) : (u ++ 17#9 : BitVec 11).extractLsb' 9 2 = u := by
  rw [ext_hi _ _ (by decide)]
  simp
@[simp] theorem part_v2_18b9_at_0_9 (u : BitVec 2) : (u ++ 18#9 : BitVec 11).extractLsb' 0 9 = 18#9 := by
  rw [ext_lo _ _ (by decide)]
  rfl
@[simp] theorem part_v2_18b9_at_9_2 (u : BitVec 2) : (u ++ 18#9 : BitVec 11).extractLsb' 9 2 = u := by
  rw [ext_hi _ _ (by decide)]
  simp
@[simp] theorem part_v2_19b9_at_0_9 (u : BitVec 2) : (u ++ 19#9 : BitVec 11).extractLsb' 0 9 = 19#9 := by
  rw [ext_lo _ _ (by decide)]
  rfl
@[simp] theorem part_v2_19b9_at_9_2 (u : BitVec 2) : (u ++ 19#9 : BitVec 11).extractLsb' 9 2 = u := by
  rw [ext_hi _ _ (by decide)]
  simp
@[simp] theorem part_v2_20b9_at_0_9 (u : BitVec 2) : (u ++ 20#9 : BitVec 11).extractLsb' 0 9 = 20#9 := by
  rw [ext_lo _ _ (by decide)]
  rfl
@[simp] theorem part_v2_20b9_at_9_2 (u : BitVec 2) : (u ++ 20#9 : BitVec 11).extractLsb' 9 2 = u := by
  rw [ext_hi _ _ (by decide)]
  simp
@[simp] theorem part_v2_0b4_v5_at_0_5 (u : BitVec 2) (v : BitVec 5) : (u ++ 0#4 ++ v : BitVec 11).extractLsb' 0 5 = v := by
  rw [ext_lo _ _ (by decide)]
  simp
@[simp] theorem part_v2_0b4_v5_at_5_4 (u : BitVec 2) (v : BitVec 5) : (u ++ 0#4 ++ v : BitVec 11).extractLsb' 5 4 = 0#4 := by
  rw [ext_hi _ _ (by decide), ext_lo _ _ (by decide)]
  rfl
@[simp] theorem part_v2_0b4_v5_at_9_2 (u : BitVec 2) (v : BitVec 5) : (u ++ 0#4 ++ v : BitVec 11).extractLsb' 9 2 = u := by
  rw [ext_hi _ _ (by decide), ext_hi _ _ (by decide)]
  simp
@[simp] theorem part_v2_1b4_v5_at_0_5 (u : BitVec 2) (v : BitVec 5) : (u ++ 1#4 ++ v : BitVec 11).extractLsb' 0 5 = v := by
  rw [ext_lo _ _ (by decide)]
  simp
@[simp] theorem part_v2_1b4_v5_at_5_4 (u : BitVec 2) (v : BitVec 5) : (u ++ 1#4 ++ v : BitVec 11).extractLsb' 5 4 = 1#4 := by
  rw [ext_hi _ _ (by decide), ext_lo _ _ (by decide)]
  rfl
@[simp] theorem part_v2_1b4_v5_at_9_2 (u : BitVec 2) (v : BitVec 5) : (u ++ 1#4 ++ v : BitVec 11).extractLsb' 9 2 = u := by
  rw [ext_hi _ _ (by decide), ext_hi _ _ (by decide)]
  simp
@[simp] theorem part_v2_2b4_v5_at_0_5 (u : BitVec 2) (v : BitVec 5) : (u ++ 2#4 ++ v : BitVec 11).extractLsb' 0 5 = v := by
  rw [ext_lo _ _ (by decide)]
  simp
@[simp] theorem part_v2_2b4_v5_at_5_4 (u : BitVec 2) (v : BitVec 5) : (u ++ 2#4 ++ v : BitVec 11).extractLsb' 5 4 = 2#4 := by
  rw [ext_hi _ _ (by decide), ext_lo _ _ (by decide)]
  rfl
@[simp] theorem part_v2_2b4_v5_at_9_2 (u : BitVec 2) (v : BitVec 5) : (u ++ 2#4 ++ v : BitVec 11).extractLsb' 9 2 = u := by
  rw [ext_hi _ _ (by decide), ext_hi _ _ (by decide)]
  simp
@[simp] theorem part_v2_3b4_v5_at_0_5 (u : BitVec 2) (v : BitVec 5) : (u ++ 3#4 ++ v : BitVec 11).extractLsb' 0 5 = v := by
  rw [ext_lo _ _ (by decide)]
  simp
@[simp] theorem part_v2_3b4_v5_at_5_4 (u : BitVec 2) (v : BitVec 5) : (u ++ 3#4 ++ v : BitVec 11).extractLsb' 5 4 = 3#4 := by
  rw [ext_hi _ _ (by decide), ext_lo _ _ (by decide)]
  rfl
@[simp] theorem part_v2_3b4_v5_at_9_2 (u : BitVec 2) (v : BitVec 5) : (u ++ 3#4 ++ v : BitVec 11).extractLsb' 9 2 = u := by
  rw [ext_hi _ _ (by decide), ext_hi _ _ (by decide)]
  simp
@[simp] theorem part_v2_128b9_at_0_5 (u : BitVec 2) : (u ++ 128#9 : BitVec 11).extractLsb' 0 5 = 0#5 := by
  rw [ext_lo _ _ (by decide)]
  rfl
@[simp] theorem part_v2_128b9_at_5_4 (u : BitVec 2) : (u ++ 128#9 : BitVec 11).extractLsb' 5 4 = 4#4 := by
  rw [ext_lo _ _ (by decide)]
  rfl
@[simp] theorem part_v2_128b9_at_9_2 (u : BitVec 2) : (u ++ 128#9 : BitVec 11).extractLsb' 9 2 = u := by
  rw [ext_hi _ _ (by decide)]
  simp
@[simp] theorem part_v2_160b9_at_0_5 (u : BitVec 2) : (u ++ 160#9 : BitVec 11).extractLsb' 0 5 = 0#5 := by
  rw [ext_lo _ _ (by decide)]
  rfl
@[simp] theorem part_v2_160b9_at_5_4 (u : BitVec 2) : (u ++ 160#9 : BitVec 11).extractLsb' 5 4 = 5#4 := by
  rw [ext_lo _ _ (by decide)]
  rfl
@[simp] theorem part_v2_160b9_at_9_2 (u : BitVec 2) : (u ++ 160#9 : BitVec 11).extractLsb' 9 2 = u := by
  rw [ext_hi _ _ (by decide)]
  simp
@[simp] theorem part_v2_192b9_at_0_5 (u : BitVec 2) : (u ++ 192#9 : BitVec 11).extractLsb' 0 5 = 0#5 := by
  rw [ext_lo _ _ (by decide)]
  rfl
@[simp] theorem part_v2_192b9_at_5_4 (u : BitVec 2) : (u ++ 192#9 : BitVec 11).extractLsb' 5 4 = 6#4 := by
  rw [ext_lo _ _ (by decide)]
  rfl
@[simp] theorem part_v2_192b9_at_9_2 (u : BitVec 2) : (u ++ 192#9 : BitVec 11).extractLsb' 9 2 = u := by
  rw [ext_hi _ _ (by decide)]
  simp
@[simp] theorem part_v2_224b9_at_0_5 (u : BitVec 2) : (u ++ 224#9 : BitVec 11).extractLsb' 0 5 = 0#5 := by
  rw [ext_lo _ _ (by decide)]
  rfl
@[simp] theorem part_v2_224b9_at_5_4 (u : BitVec 2) : (u ++ 224#9 : BitVec 11).extractLsb' 5 4 = 7#4 := by
  rw [ext_lo _ _ (by decide)]
  rfl
@[simp] theorem part_v2_224b9_at_9_2 (u : BitVec 2) : (u ++ 224#9 : BitVec 11).extractLsb' 9 2 = u := by
  rw [ext_hi _ _ (by decide)]
  simp
@[simp] theorem part_v2_256b9_at_0_5 (u : BitVec 2) : (u ++ 256#9 : BitVec 11).extractLsb' 0 5 = 0#5 := by
  rw [ext_lo _ _ (by decide)]
  rfl
@[simp] theorem part_v2_256b9_at_5_4 (u : BitVec 2) : (u ++ 256#9 : BitVec 11).extractLsb' 5 4 = 8#4 := by
  rw [ext_lo _ _ (by decide)]
  rfl
@[simp] theorem part_v2_256b9_at_9_2 (u : BitVec 2) : (u ++ 256#9 : BitVec 11).extractLsb' 9 2 = u := by
  rw [ext_hi _ _ (by decide)]
  simp
@[simp] theorem part_v2_288b9_at_0_5 (u : BitVec 2) : (u ++ 288#9 : BitVec 11).extractLsb' 0 5 = 0#5 := by
  rw [ext_lo _ _ (by decide)]
  rfl
@[simp] theorem part_v2_288b9_at_5_4 (u : BitVec 2) : (u ++ 288#9 : BitVec 11).extractLsb' 5 4 = 9#4 := by
  rw [ext_lo _ _ (by decide)]
  rfl
@[simp] theorem part_v2_288b9_at_9_2 (u : BitVec 2) : (u ++ 288#9 : BitVec 11).extractLsb' 9 2 = u := by
  rw [ext_hi _ _ (by decide)]
  simp
@[simp] theorem part_v2_320b9_at_0_5 (u : BitVec 2) : (u ++ 320#9 : BitVec 11).extractLsb' 0 5 = 0#5 := by
  rw [ext_lo _ _ (by decide)]
  rfl
@[simp] theorem part_v2_320b9_at_5_4 (u : BitVec 2) : (u ++ 320#9 : BitVec 11).extractLsb' 5 4 = 10#4 := by
  rw [ext_lo _ _ (by decide)]
  rfl
@[simp] theorem part_v2_320b9_at_9_2 (u : BitVec 2) : (u ++ 320#9 : BitVec 11).extractLsb' 9 2 = u := by
  rw [ext_hi _ _ (by decide)]
  simp
@[simp] theorem part_v2_12b4_v5_at_0_5 (u : BitVec 2) (v : BitVec 5) : (u ++ 12#4 ++ v : BitVec 11).extractLsb' 0 5 = v := by
  rw [ext_lo _ _ (by decide)]
  simp
@[simp] theorem part_v2_12b4_v5_at_5_4 (u : BitVec 2) (v : BitVec 5) : (u ++ 12#4 ++ v : BitVec 11).extractLsb' 5 4 = 12#4 := by
  rw [ext_hi _ _ (by decide), ext_lo _ _ (by decide)]
  rfl
@[simp] theorem part_v2_12b4_v5_at_9_2 (u : BitVec 2) (v : BitVec 5) : (u ++ 12#4 ++ v : BitVec 11).extractLsb' 9 2 = u := by
  rw [ext_hi _ _ (by decide), ext_hi _ _ (by decide)]
  simp
@[simp] theorem part_v2_13b4_v5_at_0_5 (u : BitVec 2) (v : BitVec 5) : (u ++ 13#4 ++ v : BitVec 11).extractLsb' 0 5 = v := by
  rw [ext_lo _ _ (by decide)]
  simp
@[simp] theorem part_v2_13b4_v5_at_5_4 (u : BitVec 2) (v : BitVec 5) : (u ++ 13#4 ++ v : BitVec 11).extractLsb' 5 4 = 13#4 := by
  rw [ext_hi _ _ (by decide), ext_lo _ _ (by decide)]
  rfl
@[simp] theorem part_v2_13b4_v5_at_9_2 (u : BitVec 2) (v : BitVec 5) : (u ++ 13#4 ++ v : BitVec 11).extractLsb' 9 2 = u := by
  rw [ext_hi _ _ (by decide), ext_hi _ _ (by decide)]
  simp
@[simp] theorem part_v2_14b4_v5_at_0_5 (u : BitVec 2) (v : BitVec 5) : (u ++ 14#4 ++ v : BitVec 11).extractLsb' 0 5 = v := by
  rw [ext_lo _ _ (by decide)]
  simp
@[simp] theorem part_v2_14b4_v5_at_5_4 (u : BitVec 2) (v : BitVec 5) : (u ++ 14#4 ++ v : BitVec 11).extractLsb' 5 4 = 14#4 := by
  rw [ext_hi _ _ (by decide), ext_lo _ _ (by decide)]
  rfl
@[simp] theorem part_v2_14b4_v5_at_9_2 (u : BitVec 2) (v : BitVec 5) : (u ++ 14#4 ++ v : BitVec 11).extractLsb' 9 2 = u := by
  rw [ext_hi _ _ (by decide), ext_hi _ _ (by decide)]
  simp
@[simp] theorem part_v3_0b8_at_0_8 (u : BitVec 3) : (u ++ 0#8 : BitVec 11).extractLsb' 0 8 = 0#8 := by
  rw [ext_lo _ _ (by decide)]
  rfl
@[simp] theorem part_v3_0b8_at_8_3 (u : BitVec 3) : (u ++ 0#8 : BitVec 11).extractLsb' 8 3 = u := by
  rw [ext_hi _ _ (by decide)]
  simp
@[simp] theorem part_v3_1b8_at_0_8 (u : BitVec 3) : (u ++ 1#8 : BitVec 11).extractLsb' 0 8 = 1#8 := by
  rw [ext_lo _ _ (by decide)]
  rfl
@[simp] theorem part_v3_1b8_at_8_3 (u : BitVec 3) : (u ++ 1#8 : BitVec 11).extractLsb' 8 3 = u := by
  rw [ext_hi _ _ (by decide)]
  simp
@[simp] theorem part_v3_2b8_at_0_8 (u : BitVec 3) : (u ++ 2#8 : BitVec 11).extractLsb' 0 8 = 2#8 := by
  rw [ext_lo _ _ (by decide)]
  rfl
@[simp] theorem part_v3_2b8_at_8_3 (u : BitVec 3) : (u ++ 2#8 : BitVec 11).extractLsb' 8 3 = u := by
  rw [ext_hi _ _ (by decide)]
  simp
@[simp] theorem part_v3_3b8_at_0_8 (u : BitVec 3) : (u ++ 3#8 : BitVec 11).extractLsb' 0 8 = 3#8 := by
  rw [ext_lo _ _ (by decide)]
  rfl
@[simp] theorem part_v3_3b8_at_8_3 (u : BitVec 3) : (u ++ 3#8 : BitVec 11).extractLsb' 8 3 = u := by
  rw [ext_hi _ _ (by decide)]
  simp
@[simp] theorem part_v3_4b8_at_0_8 (u : BitVec 3) : (u ++ 4#8 : BitVec 11).extractLsb' 0 8 = 4#8 := by
  rw [ext_lo _ _ (by decide)]
  rfl
@[simp] theorem part_v3_4b8_at_8_3 (u : BitVec 3) : (u ++ 4#8 : BitVec 11).extractLsb' 8 3 = u := by
  rw [ext_hi _ _ (by decide)]
  simp
@[simp] theorem part_v3_14b8_at_0_8 (u : BitVec 3) : (u ++ 14#8 : BitVec 11).extractLsb' 0 8 = 14#8 := by
  rw [ext_lo _ _ (by decide)]
  rfl
@[simp] theorem part_v3_14b8_at_8_3 (u : BitVec 3) : (u ++ 14#8 : BitVec 11).extractLsb' 8 3 = u := by
  rw [ext_hi _ _ (by decide)]
  simp
@[simp] theorem part_4b8_v3_at_0_3 (u : BitVec 3) : (4#8 ++ u : BitVec 11).extractLsb' 0 3 = u := by
  rw [ext_lo _ _ (by decide)]
  simp
@[simp] theorem part_4b8_v3_at_3_8 (u : BitVec 3) : (4#8 ++ u : BitVec 11).extractLsb' 3 8 = 4#8 := by
  rw [ext_hi _ _ (by decide)]
  rfl
@[simp] theorem part_20b8_v3_at_0_3 (u : BitVec 3) : (20#8 ++ u : BitVec 11).extractLsb' 0 3 = u := by
  rw [ext_lo _ _ (by decide)]
  simp
@[simp] theorem part_20b8_v3_at_3_8 (u : BitVec 3) : (20#8 ++ u : BitVec 11).extractLsb' 3 8 = 20#8 := by
  rw [ext_hi _ _ (by decide)]
  rfl
@[simp] theorem part_36b8_v3_at_0_3 (u : BitVec 3) : (36#8 ++ u : BitVec 11).extractLsb' 0 3 = u := by
  rw [ext_lo _ _ (by decide)]
  simp
@[simp] theorem part_36b8_v3_at_3_8 (u : BitVec 3) : (36#8 ++ u : BitVec 11).extractLsb' 3 8 = 36#8 := by
  rw [ext_hi _ _ (by decide)]
  rfl
@[simp] theorem part_52b8_v3_at_0_3 (u : BitVec 3) : (52#8 ++ u : BitVec 11).extractLsb' 0 3 = u := by
  rw [ext_lo _ _ (by decide)]
  simp
@[simp] theorem part_52b8_v3_at_3_8 (u : BitVec 3) : (52#8 ++ u : BitVec 11).extractLsb' 3 8 = 52#8 := by
  rw [ext_hi _ _ (by decide)]
  rfl
@[simp] theorem part_100b8_v3_at_0_3 (u : BitVec 3) : (100#8 ++ u : BitVec 11).extractLsb' 0 3 = u := by
  rw [ext_lo _ _ (by decide)]
  simp
@[simp] theorem part_100b8_v3_at_3_8 (u : BitVec 3) : (100#8 ++ u : BitVec 11).extractLsb' 3 8 = 100#8 := by
  rw [ext_hi _ _ (by decide)]
  rfl
@[simp] theorem part_116b8_v3_at_0_3 (u : BitVec 3) : (116#8 ++ u : BitVec 11).extractLsb' 0 3 = u := by
  rw [ext_lo _ _ (by decide)]
  simp
@[simp] theorem part_116b8_v3_at_3_8 (u : BitVec 3) : (116#8 ++ u : BitVec 11).extractLsb' 3 8 = 116#8 := by
  rw [ext_hi _ _ (by decide)]
  rfl
@[simp] theorem part_64b8_v3_at_0_3 (u : BitVec 3) : (64#8 ++ u : BitVec 11).extractLsb' 0 3 = u := by
  rw [ext_lo _ _ (by decide)]
  simp
@[simp] theorem part_64b8_v3_at_3_8 (u : BitVec 3) : (64#8 ++ u : BitVec 11).extractLsb' 3 8 = 64#8 := by
  rw [ext_hi _ _ (by decide)]
  rfl
@[simp] theorem part_65b8_v3_at_0_3 (u : BitVec 3) : (65#8 ++ u : BitVec 11).extractLsb' 0 3 = u := by
  rw [ext_lo _ _ (by decide)]
  simp
@[simp] theorem part_65b8_v3_at_3_8 (u : BitVec 3) : (65#8 ++ u : BitVec 11).extractLsb' 3 8 = 65#8 := by
  rw [ext_hi _ _ (by decide)]
  rfl
@[simp] theorem part_66b8_v3_at_0_3 (u : BitVec 3) : (66#8 ++ u : BitVec 11).extractLsb' 0 3 = u := by
  rw [ext_lo _ _ (by decide)]
  simp
@[simp] theorem part_66b8_v3_at_3_8 (u : BitVec 3) : (66#8 ++ u : BitVec 11).extractLsb' 3 8 = 66#8 := by
  rw [ext_hi _ _ (by decide)]
  rfl
@[simp] theorem part_67b8_v3_at_0_3 (u : BitVec 3) : (67#8 ++ u : BitVec 11).extractLsb' 0 3 = u := by
  rw [ext_lo _ _ (by decide)]
  simp
@[simp] theorem part_67b8_v3_at_3_8 (u : BitVec 3) : (67#8 ++ u : BitVec 11).extractLsb' 3 8 = 67#8 := by
  rw [ext_hi _ _ (by decide)]
  rfl
@[simp] theorem part_70b8_v3_at_0_3 (u : BitVec 3) : (70#8 ++ u : BitVec 11).extractLsb' 0 3 = u := by
  rw [ext_lo _ _ (by decide)]
  simp
@[simp] theorem part_70b8_v3_at_3_8 (u : BitVec 3) : (70#8 ++ u : BitVec 11).extractLsb' 3 8 = 70#8 := by
  rw [ext_hi _ _ (by decide)]
  rfl
@[simp] theorem part_71b8_v3_at_0_3 (u : BitVec 3) : (71#8 ++ u : BitVec 11).extractLsb' 0 3 = u := by
  rw [ext_lo _ _ (by decide)]
  simp
@[simp] theorem part_71b8_v3_at_3_8 (u : BitVec 3) : (71#8 ++ u : BitVec 11).extractLsb' 3 8 = 71#8 := by
  rw [ext_hi _ _ (by decide)]
  rfl
@[simp] theorem part_69b8_v3_at_0_3 (u : BitVec 3) : (69#8 ++ u : BitVec 11).extractLsb' 0 3 = u := by
  rw [ext_lo _ _ (by decide)]
  simp
@[simp] theorem part_69b8_v3_at_3_8 (u : BitVec 3) : (69#8 ++ u : BitVec 11).extractLsb' 3 8 = 69#8 := by
  rw [ext_hi _ _ (by decide)]
  rfl
@[simp] theorem part_84b8_v3_at_0_3 (u : BitVec 3) : (84#8 ++ u : BitVec 11).extractLsb' 0 3 = u := by
  rw [ext_lo _ _ (by decide)]
  simp
@[simp] theorem part_84b8_v3_at_3_8 (u : BitVec 3) : (84#8 ++ u : BitVec 11).extractLsb' 3 8 = 84#8 := by
  rw [ext_hi _ _ (by decide)]
  rfl
@[simp] theorem part_0b16_v7_at_0_7 (u : BitVec 7) : (0#16 ++ u : BitVec 23).extractLsb' 0 7 = u := by
  rw [ext_lo _ _ (by decide)]
  simp
@[simp] theorem part_0b16_v7_at_7_16 (u : BitVec 7) : (0#16 ++ u : BitVec 23).extractLsb' 7 16 = 0#16 := by
  rw [ext_hi _ _ (by decide)]
  rfl
@[simp] theorem part_0b18_v5_at_0_5 (u : BitVec 5) : (0#18 ++ u : BitVec 23).extractLsb' 0 5 = u := by
  rw [ext_lo _ _ (by decide)]
  simp
@[simp] theorem part_0b18_v5_at_5_18 (u : BitVec 5) : (0#18 ++ u : BitVec 23).extractLsb' 5 18 = 0#18 := by
  rw [ext_hi _ _ (by decide)]
  rfl
@[simp] theorem part_0b18_v5_at_7_16 (u : BitVec 5) : (0#18 ++ u : BitVec 23).extractLsb' 7 16 = 0#16 := by
  rw [ext_hi _ _ (by decide)]
  rfl
@[simp] theorem part_0b21_v2_at_0_2 (u : BitVec 2) : (0#21 ++ u : BitVec 23).extractLsb' 0 2 = u := by
  rw [ext_lo _ _ (by decide)]
  simp
@[simp] theorem part_0b21_v2_at_2_21 (u : BitVec 2) : (0#21 ++ u : BitVec 23).extractLsb' 2 21 = 0#21 := by
  rw [ext_hi _ _ (by decide)]
  rfl
@[simp] theorem part_0b21_v2_at_5_18 (u : BitVec 2) : (0#21 ++ u : BitVec 23).extractLsb' 5 18 = 0#18 := by
  rw [ext_hi _ _ (by decide)]
  rfl
@[simp] theorem part_0b21_v2_at_7_16 (u : BitVec 2) : (0#21 ++ u : BitVec 23).extractLsb' 7 16 = 0#16 := by
  rw [ext_hi _ _ (by decide)]
  rfl

end Sys2Proof
end

