-- ==== Sys2Proof/Laws/Memory.lean ====
section
/-!
SUPPORT. Memory: what a read gives after a write, and that every operation keeps the canonical form.
-/

namespace Sys2Proof.Machine

open Sys2Proof

/-! ### The canonical form -/

theorem Memory.wfFrom_mono {lo lo' : Nat} (h : lo ≤ lo') {m : Memory} (hm : m.wfFrom lo' = true) : m.wfFrom lo = true := by
  cases m with
  | nil => rfl
  | cons c cs =>
    simp [Memory.wfFrom] at hm ⊢
    exact ⟨⟨by omega, hm.1.2⟩, hm.2⟩

/-- Every address of a canonical memory is at least its bound. -/
theorem Memory.read_below {lo : Nat} {m : Memory} (hm : m.wfFrom lo = true) {a : Nat} (h : a < lo) : m.read a = 0 := by
  cases m with
  | nil => rfl
  | cons c cs =>
    simp [Memory.wfFrom] at hm
    simp [Memory.read, show c.1 ≠ a by omega, show a < c.1 by omega]

theorem Memory.wfFrom_write {a : Nat} {b : Byte} {m : Memory} :
    ∀ {lo : Nat}, lo ≤ a → m.wfFrom lo = true → (m.write a b).wfFrom lo = true := by
  induction m with
  | nil =>
    intro lo h _
    simp only [Memory.write]
    split <;> simp_all [Memory.wfFrom]
  | cons c cs ih =>
    intro lo h hm
    simp [Memory.wfFrom] at hm
    obtain ⟨⟨h1, h2⟩, h3⟩ := hm
    simp only [Memory.write]
    split
    · rename_i e
      split
      · exact Memory.wfFrom_mono (by omega) h3
      · simp_all [Memory.wfFrom]
    · split
      · split <;> simp_all [Memory.wfFrom]
      · have := ih (lo := c.1 + 1) (by omega) h3
        simp_all [Memory.wfFrom]

/-- A write keeps the canonical form. -/
theorem Memory.wf_write {m : Memory} (h : m.wf = true) (a : Nat) (b : Byte) : (m.write a b).wf = true :=
  Memory.wfFrom_write (Nat.zero_le a) h

theorem Memory.wf_writeN {m : Memory} (h : m.wf = true) (a n v : Nat) : (m.writeN a n v).wf = true := by
  induction n generalizing m a v with
  | zero => exact h
  | succ n ih => exact ih (Memory.wf_write h _ _) _ _

theorem Memory.wf_writeBytes {m : Memory} (h : m.wf = true) (a : Nat) (bs : List Byte) : (m.writeBytes a bs).wf = true := by
  induction bs generalizing m a with
  | nil => exact h
  | cons b bs ih => exact ih (Memory.wf_write h _ _) _

theorem Memory.wf_merge {m : Memory} (h : m.wf = true) (a : Nat) (mask : BitVec 128) (data : BitVec 1024) (n : Nat) :
    (m.merge a mask data n).wf = true := by
  induction n with
  | zero => exact h
  | succ n ih =>
    simp only [Memory.merge]
    split
    · exact Memory.wf_write ih _ _
    · exact ih

theorem Memory.wfFrom_filter (p : Nat × Byte → Bool) {m : Memory} :
    ∀ {lo : Nat}, m.wfFrom lo = true → Memory.wfFrom lo (m.filter p) = true := by
  induction m with
  | nil => intro lo h; exact h
  | cons c cs ih =>
    intro lo h
    simp [Memory.wfFrom] at h
    obtain ⟨⟨h1, h2⟩, h3⟩ := h
    simp only [List.filter_cons]
    split
    · simp [Memory.wfFrom, h1, h2, ih h3]
    · exact Memory.wfFrom_mono (by omega) (ih h3)

/-- Removing entries keeps the canonical form. -/
theorem Memory.wf_filter (p : Nat × Byte → Bool) {m : Memory} (h : m.wf = true) : Memory.wf (m.filter p) = true :=
  Memory.wfFrom_filter p h

@[simp] theorem Memory.wf_nil : Memory.wf [] = true := rfl

/-! ### Reads and writes -/

/-- A read after a write to the same address gives what was written. -/
theorem Memory.read_write_same {m : Memory} {lo : Nat} (h : m.wfFrom lo = true) (a : Nat) (b : Byte) : (m.write a b).read a = b := by
  induction m generalizing lo with
  | nil =>
    simp only [Memory.write]
    split
    · simp_all [Memory.read]
    · simp [Memory.read]
  | cons c cs ih =>
    simp [Memory.wfFrom] at h
    obtain ⟨⟨h1, h2⟩, h3⟩ := h
    simp only [Memory.write]
    split
    · rename_i e
      split
      · rename_i hb
        rw [hb]; exact Memory.read_below h3 (by omega)
      · simp [Memory.read]
    · split
      · split
        · simp_all [Memory.read]
        · simp [Memory.read]
      · rename_i e l
        simp [Memory.read, e, l, ih h3]

/-- A write leaves every other address alone. -/
theorem Memory.read_write_other {m : Memory} {a a' : Nat} (h : a' ≠ a) (b : Byte) {lo : Nat} (hm : m.wfFrom lo = true) :
    (m.write a b).read a' = m.read a' := by
  induction m generalizing lo with
  | nil =>
    simp only [Memory.write]
    split
    · rfl
    · simp [Memory.read, Ne.symm h]
  | cons c cs ih =>
    simp [Memory.wfFrom] at hm
    obtain ⟨⟨h1, h2⟩, h3⟩ := hm
    simp only [Memory.write]
    split
    · rename_i e
      have hc : c.1 ≠ a' := by omega
      split
      · simp only [Memory.read, hc, if_false]
        split
        · exact Memory.read_below h3 (by omega)
        · rfl
      · simp [Memory.read, Ne.symm h, e]
    · split
      · split
        · rfl
        · simp only [Memory.read, Ne.symm h, if_false]
          split
          · rename_i l _ la
            simp [show c.1 ≠ a' by omega, show a' < c.1 by omega]
          · rfl
      · simp [Memory.read, ih h3]

/-- A write of some bytes leaves every address outside them alone. -/
theorem Memory.read_writeN_other {m : Memory} (hm : m.wf = true) (a n v a' : Nat) (h : a' < a ∨ a + n ≤ a') :
    (m.writeN a n v).read a' = m.read a' := by
  induction n generalizing m a v with
  | zero => rfl
  | succ n ih =>
    simp only [Memory.writeN]
    rw [ih (Memory.wf_write hm _ _) _ _ (by omega)]
    exact Memory.read_write_other (by omega) _ hm

/-- Reading back the bytes that were written. -/
theorem Memory.readN_writeN_same {m : Memory} (hm : m.wf = true) (a n v : Nat) :
    (m.writeN a n v).readN a n = v % 256 ^ n := by
  induction n generalizing m a v with
  | zero => simp [Memory.readN, Nat.mod_one]
  | succ n ih =>
    have hw := Memory.wf_write hm a (BitVec.ofNat 8 v)
    simp only [Memory.readN, Memory.writeN]
    rw [ih hw, Memory.read_writeN_other hw _ _ _ _ (by omega), Memory.read_write_same hm]
    have e : 256 ^ (n + 1) = 256 * 256 ^ n := by rw [pow_succ, Nat.mul_comm]
    rw [e, Nat.mod_mul, BitVec.toNat_ofNat]

/-- Reading `n` bytes depends on those bytes only. -/
theorem Memory.readN_congr {m m' : Memory} {a n : Nat} (h : ∀ i, i < n → m.read (a + i) = m'.read (a + i)) :
    m.readN a n = m'.readN a n := by
  induction n generalizing a with
  | zero => rfl
  | succ n ih =>
    simp only [Memory.readN]
    rw [show m.read a = m'.read a from h 0 (by omega), ih (a := a + 1)]
    intro i hi
    have := h (i + 1) (by omega)
    rwa [show a + 1 + i = a + (i + 1) by omega]

theorem Memory.readN_writeN_other {m : Memory} (hm : m.wf = true) (a n v a' k : Nat) (h : a' + k ≤ a ∨ a + n ≤ a') :
    (m.writeN a n v).readN a' k = m.readN a' k :=
  Memory.readN_congr fun i hi => Memory.read_writeN_other hm _ _ _ _ (by omega)

/-- A value of `n` bytes. -/
theorem Memory.readN_lt (m : Memory) (a n : Nat) : m.readN a n < 256 ^ n := by
  induction n generalizing a with
  | zero => simp [Memory.readN]
  | succ n ih =>
    have h1 := ih (a + 1)
    have h2 := (m.read a).isLt
    simp only [Memory.readN, pow_succ]
    omega

end Sys2Proof.Machine
end

