-- ==== Sys2Proof/Laws/State.lean ====
section
/-!
SUPPORT. One lemma for each field and each named update of the state, so that no proof unfolds a record
update.
-/

namespace Sys2Proof.Machine

open Sys2Proof

/-! ### wr -/

@[simp] theorem wr_others (r : Reg) (v : Word64) (s : State) : (wr r v s).others = s.others := rfl
@[simp] theorem wr_cores (r : Reg) (v : Word64) (s : State) : (wr r v s).cores = s.cores := rfl
@[simp] theorem wr_tiles (r : Reg) (v : Word64) (s : State) : (wr r v s).tiles = s.tiles := rfl
@[simp] theorem wr_clusters (r : Reg) (v : Word64) (s : State) : (wr r v s).clusters = s.clusters := rfl
@[simp] theorem wr_banks (r : Reg) (v : Word64) (s : State) : (wr r v s).banks = s.banks := rfl
@[simp] theorem wr_mem (r : Reg) (v : Word64) (s : State) : (wr r v s).mem = s.mem := rfl
@[simp] theorem wr_homes (r : Reg) (v : Word64) (s : State) : (wr r v s).homes = s.homes := rfl
@[simp] theorem wr_disp (r : Reg) (v : Word64) (s : State) : (wr r v s).disp = s.disp := rfl
@[simp] theorem wr_plat (r : Reg) (v : Word64) (s : State) : (wr r v s).plat = s.plat := rfl
@[simp] theorem wr_host (r : Reg) (v : Word64) (s : State) : (wr r v s).host = s.host := rfl
@[simp] theorem wr_agenda (r : Reg) (v : Word64) (s : State) : (wr r v s).agenda = s.agenda := rfl
@[simp] theorem wr_inbox (r : Reg) (v : Word64) (s : State) : (wr r v s).inbox = s.inbox := rfl
@[simp] theorem wr_steps (r : Reg) (v : Word64) (s : State) : (wr r v s).steps = s.steps := rfl
@[simp] theorem wr_fresh (r : Reg) (v : Word64) (s : State) : (wr r v s).fresh = s.fresh := rfl
@[simp] theorem wr_cur_id (r : Reg) (v : Word64) (s : State) : (wr r v s).cur.id = s.cur.id := rfl
@[simp] theorem wr_cur_bind (r : Reg) (v : Word64) (s : State) : (wr r v s).cur.bind = s.cur.bind := rfl
@[simp] theorem wr_cur_handles (r : Reg) (v : Word64) (s : State) : (wr r v s).cur.handles = s.cur.handles := rfl
@[simp] theorem wr_cur_floor (r : Reg) (v : Word64) (s : State) : (wr r v s).cur.floor = s.cur.floor := rfl
@[simp] theorem wr_cur_handoff (r : Reg) (v : Word64) (s : State) : (wr r v s).cur.handoff = s.cur.handoff := rfl
@[simp] theorem wr_cur_wakeFrom (r : Reg) (v : Word64) (s : State) : (wr r v s).cur.wakeFrom = s.cur.wakeFrom := rfl
@[simp] theorem wr_cur_pre (r : Reg) (v : Word64) (s : State) : (wr r v s).cur.pre = s.cur.pre := rfl
@[simp] theorem wr_cur_blk (r : Reg) (v : Word64) (s : State) : (wr r v s).cur.blk = s.cur.blk := rfl
@[simp] theorem wr_cur_taken (r : Reg) (v : Word64) (s : State) : (wr r v s).cur.taken = s.cur.taken := rfl
@[simp] theorem wr_cur_busyUntil (r : Reg) (v : Word64) (s : State) : (wr r v s).cur.busyUntil = s.cur.busyUntil := rfl
@[simp] theorem wr_cur_posted (r : Reg) (v : Word64) (s : State) : (wr r v s).cur.posted = s.cur.posted := rfl
@[simp] theorem wr_cur_burst (r : Reg) (v : Word64) (s : State) : (wr r v s).cur.burst = s.cur.burst := rfl
@[simp] theorem wr_cur_half0 (r : Reg) (v : Word64) (s : State) : (wr r v s).cur.half0 = s.cur.half0 := rfl
@[simp] theorem wr_cur_half1 (r : Reg) (v : Word64) (s : State) : (wr r v s).cur.half1 = s.cur.half1 := rfl
@[simp] theorem wr_cur_issued (r : Reg) (v : Word64) (s : State) : (wr r v s).cur.issued = s.cur.issued := rfl
@[simp] theorem wr_cur_waited (r : Reg) (v : Word64) (s : State) : (wr r v s).cur.waited = s.cur.waited := rfl
@[simp] theorem wr_cur_run (r : Reg) (v : Word64) (s : State) : (wr r v s).cur.run = s.cur.run := rfl
@[simp] theorem wr_cur_brp (r : Reg) (v : Word64) (s : State) : (wr r v s).cur.brp = s.cur.brp := rfl
@[simp] theorem wr_cur_prio (r : Reg) (v : Word64) (s : State) : (wr r v s).cur.prio = s.cur.prio := rfl
@[simp] theorem wr_cur_stream (r : Reg) (v : Word64) (s : State) : (wr r v s).cur.stream = s.cur.stream := rfl
@[simp] theorem wr_c (r : Reg) (v : Word64) (s : State) : (wr r v s).cur.a.c = s.cur.a.c := rfl
@[simp] theorem wr_pc (r : Reg) (v : Word64) (s : State) : (wr r v s).cur.a.pc = s.cur.a.pc := rfl
@[simp] theorem wr_immx (r : Reg) (v : Word64) (s : State) : (wr r v s).cur.a.immx = s.cur.a.immx := rfl
@[simp] theorem wr_handler (r : Reg) (v : Word64) (s : State) : (wr r v s).cur.a.handler = s.cur.a.handler := rfl
@[simp] theorem wr_sr (r : Reg) (v : Word64) (s : State) : (wr r v s).cur.a.sr = s.cur.a.sr := rfl
@[simp] theorem wr_wake (r : Reg) (v : Word64) (s : State) : (wr r v s).cur.a.wake = s.cur.a.wake := rfl
@[simp] theorem wr_kept (r : Reg) (v : Word64) (s : State) : (wr r v s).cur.a.kept = s.cur.a.kept := rfl
@[simp] theorem wr_efault (r : Reg) (v : Word64) (s : State) : (wr r v s).cur.a.efault = s.cur.a.efault := rfl
@[simp] theorem wr_eflags (r : Reg) (v : Word64) (s : State) : (wr r v s).cur.a.eflags = s.cur.a.eflags := rfl

/-! ### addFlags -/

@[simp] theorem addFlags_others (f : Nat) (s : State) : (addFlags f s).others = s.others := rfl
@[simp] theorem addFlags_cores (f : Nat) (s : State) : (addFlags f s).cores = s.cores := rfl
@[simp] theorem addFlags_tiles (f : Nat) (s : State) : (addFlags f s).tiles = s.tiles := rfl
@[simp] theorem addFlags_clusters (f : Nat) (s : State) : (addFlags f s).clusters = s.clusters := rfl
@[simp] theorem addFlags_banks (f : Nat) (s : State) : (addFlags f s).banks = s.banks := rfl
@[simp] theorem addFlags_mem (f : Nat) (s : State) : (addFlags f s).mem = s.mem := rfl
@[simp] theorem addFlags_homes (f : Nat) (s : State) : (addFlags f s).homes = s.homes := rfl
@[simp] theorem addFlags_disp (f : Nat) (s : State) : (addFlags f s).disp = s.disp := rfl
@[simp] theorem addFlags_plat (f : Nat) (s : State) : (addFlags f s).plat = s.plat := rfl
@[simp] theorem addFlags_host (f : Nat) (s : State) : (addFlags f s).host = s.host := rfl
@[simp] theorem addFlags_agenda (f : Nat) (s : State) : (addFlags f s).agenda = s.agenda := rfl
@[simp] theorem addFlags_inbox (f : Nat) (s : State) : (addFlags f s).inbox = s.inbox := rfl
@[simp] theorem addFlags_steps (f : Nat) (s : State) : (addFlags f s).steps = s.steps := rfl
@[simp] theorem addFlags_fresh (f : Nat) (s : State) : (addFlags f s).fresh = s.fresh := rfl
@[simp] theorem addFlags_cur_id (f : Nat) (s : State) : (addFlags f s).cur.id = s.cur.id := rfl
@[simp] theorem addFlags_cur_bind (f : Nat) (s : State) : (addFlags f s).cur.bind = s.cur.bind := rfl
@[simp] theorem addFlags_cur_handles (f : Nat) (s : State) : (addFlags f s).cur.handles = s.cur.handles := rfl
@[simp] theorem addFlags_cur_floor (f : Nat) (s : State) : (addFlags f s).cur.floor = s.cur.floor := rfl
@[simp] theorem addFlags_cur_handoff (f : Nat) (s : State) : (addFlags f s).cur.handoff = s.cur.handoff := rfl
@[simp] theorem addFlags_cur_wakeFrom (f : Nat) (s : State) : (addFlags f s).cur.wakeFrom = s.cur.wakeFrom := rfl
@[simp] theorem addFlags_cur_pre (f : Nat) (s : State) : (addFlags f s).cur.pre = s.cur.pre := rfl
@[simp] theorem addFlags_cur_blk (f : Nat) (s : State) : (addFlags f s).cur.blk = s.cur.blk := rfl
@[simp] theorem addFlags_cur_taken (f : Nat) (s : State) : (addFlags f s).cur.taken = s.cur.taken := rfl
@[simp] theorem addFlags_cur_busyUntil (f : Nat) (s : State) : (addFlags f s).cur.busyUntil = s.cur.busyUntil := rfl
@[simp] theorem addFlags_cur_posted (f : Nat) (s : State) : (addFlags f s).cur.posted = s.cur.posted := rfl
@[simp] theorem addFlags_cur_burst (f : Nat) (s : State) : (addFlags f s).cur.burst = s.cur.burst := rfl
@[simp] theorem addFlags_cur_half0 (f : Nat) (s : State) : (addFlags f s).cur.half0 = s.cur.half0 := rfl
@[simp] theorem addFlags_cur_half1 (f : Nat) (s : State) : (addFlags f s).cur.half1 = s.cur.half1 := rfl
@[simp] theorem addFlags_cur_issued (f : Nat) (s : State) : (addFlags f s).cur.issued = s.cur.issued := rfl
@[simp] theorem addFlags_cur_waited (f : Nat) (s : State) : (addFlags f s).cur.waited = s.cur.waited := rfl
@[simp] theorem addFlags_cur_run (f : Nat) (s : State) : (addFlags f s).cur.run = s.cur.run := rfl
@[simp] theorem addFlags_cur_brp (f : Nat) (s : State) : (addFlags f s).cur.brp = s.cur.brp := rfl
@[simp] theorem addFlags_cur_prio (f : Nat) (s : State) : (addFlags f s).cur.prio = s.cur.prio := rfl
@[simp] theorem addFlags_cur_stream (f : Nat) (s : State) : (addFlags f s).cur.stream = s.cur.stream := rfl
@[simp] theorem addFlags_g (f : Nat) (s : State) : (addFlags f s).cur.a.g = s.cur.a.g := rfl
@[simp] theorem addFlags_c (f : Nat) (s : State) : (addFlags f s).cur.a.c = s.cur.a.c := rfl
@[simp] theorem addFlags_pc (f : Nat) (s : State) : (addFlags f s).cur.a.pc = s.cur.a.pc := rfl
@[simp] theorem addFlags_immx (f : Nat) (s : State) : (addFlags f s).cur.a.immx = s.cur.a.immx := rfl
@[simp] theorem addFlags_handler (f : Nat) (s : State) : (addFlags f s).cur.a.handler = s.cur.a.handler := rfl
@[simp] theorem addFlags_wake (f : Nat) (s : State) : (addFlags f s).cur.a.wake = s.cur.a.wake := rfl
@[simp] theorem addFlags_kept (f : Nat) (s : State) : (addFlags f s).cur.a.kept = s.cur.a.kept := rfl
@[simp] theorem addFlags_efault (f : Nat) (s : State) : (addFlags f s).cur.a.efault = s.cur.a.efault := rfl
@[simp] theorem addFlags_eflags (f : Nat) (s : State) : (addFlags f s).cur.a.eflags = s.cur.a.eflags := rfl

/-! ### modSr -/

@[simp] theorem modSr_others (f : SRegs → SRegs) (s : State) : (modSr f s).others = s.others := rfl
@[simp] theorem modSr_cores (f : SRegs → SRegs) (s : State) : (modSr f s).cores = s.cores := rfl
@[simp] theorem modSr_tiles (f : SRegs → SRegs) (s : State) : (modSr f s).tiles = s.tiles := rfl
@[simp] theorem modSr_clusters (f : SRegs → SRegs) (s : State) : (modSr f s).clusters = s.clusters := rfl
@[simp] theorem modSr_banks (f : SRegs → SRegs) (s : State) : (modSr f s).banks = s.banks := rfl
@[simp] theorem modSr_mem (f : SRegs → SRegs) (s : State) : (modSr f s).mem = s.mem := rfl
@[simp] theorem modSr_homes (f : SRegs → SRegs) (s : State) : (modSr f s).homes = s.homes := rfl
@[simp] theorem modSr_disp (f : SRegs → SRegs) (s : State) : (modSr f s).disp = s.disp := rfl
@[simp] theorem modSr_plat (f : SRegs → SRegs) (s : State) : (modSr f s).plat = s.plat := rfl
@[simp] theorem modSr_host (f : SRegs → SRegs) (s : State) : (modSr f s).host = s.host := rfl
@[simp] theorem modSr_agenda (f : SRegs → SRegs) (s : State) : (modSr f s).agenda = s.agenda := rfl
@[simp] theorem modSr_inbox (f : SRegs → SRegs) (s : State) : (modSr f s).inbox = s.inbox := rfl
@[simp] theorem modSr_steps (f : SRegs → SRegs) (s : State) : (modSr f s).steps = s.steps := rfl
@[simp] theorem modSr_fresh (f : SRegs → SRegs) (s : State) : (modSr f s).fresh = s.fresh := rfl
@[simp] theorem modSr_cur_id (f : SRegs → SRegs) (s : State) : (modSr f s).cur.id = s.cur.id := rfl
@[simp] theorem modSr_cur_bind (f : SRegs → SRegs) (s : State) : (modSr f s).cur.bind = s.cur.bind := rfl
@[simp] theorem modSr_cur_handles (f : SRegs → SRegs) (s : State) : (modSr f s).cur.handles = s.cur.handles := rfl
@[simp] theorem modSr_cur_floor (f : SRegs → SRegs) (s : State) : (modSr f s).cur.floor = s.cur.floor := rfl
@[simp] theorem modSr_cur_handoff (f : SRegs → SRegs) (s : State) : (modSr f s).cur.handoff = s.cur.handoff := rfl
@[simp] theorem modSr_cur_wakeFrom (f : SRegs → SRegs) (s : State) : (modSr f s).cur.wakeFrom = s.cur.wakeFrom := rfl
@[simp] theorem modSr_cur_pre (f : SRegs → SRegs) (s : State) : (modSr f s).cur.pre = s.cur.pre := rfl
@[simp] theorem modSr_cur_blk (f : SRegs → SRegs) (s : State) : (modSr f s).cur.blk = s.cur.blk := rfl
@[simp] theorem modSr_cur_taken (f : SRegs → SRegs) (s : State) : (modSr f s).cur.taken = s.cur.taken := rfl
@[simp] theorem modSr_cur_busyUntil (f : SRegs → SRegs) (s : State) : (modSr f s).cur.busyUntil = s.cur.busyUntil := rfl
@[simp] theorem modSr_cur_posted (f : SRegs → SRegs) (s : State) : (modSr f s).cur.posted = s.cur.posted := rfl
@[simp] theorem modSr_cur_burst (f : SRegs → SRegs) (s : State) : (modSr f s).cur.burst = s.cur.burst := rfl
@[simp] theorem modSr_cur_half0 (f : SRegs → SRegs) (s : State) : (modSr f s).cur.half0 = s.cur.half0 := rfl
@[simp] theorem modSr_cur_half1 (f : SRegs → SRegs) (s : State) : (modSr f s).cur.half1 = s.cur.half1 := rfl
@[simp] theorem modSr_cur_issued (f : SRegs → SRegs) (s : State) : (modSr f s).cur.issued = s.cur.issued := rfl
@[simp] theorem modSr_cur_waited (f : SRegs → SRegs) (s : State) : (modSr f s).cur.waited = s.cur.waited := rfl
@[simp] theorem modSr_cur_run (f : SRegs → SRegs) (s : State) : (modSr f s).cur.run = s.cur.run := rfl
@[simp] theorem modSr_cur_brp (f : SRegs → SRegs) (s : State) : (modSr f s).cur.brp = s.cur.brp := rfl
@[simp] theorem modSr_cur_prio (f : SRegs → SRegs) (s : State) : (modSr f s).cur.prio = s.cur.prio := rfl
@[simp] theorem modSr_cur_stream (f : SRegs → SRegs) (s : State) : (modSr f s).cur.stream = s.cur.stream := rfl
@[simp] theorem modSr_g (f : SRegs → SRegs) (s : State) : (modSr f s).cur.a.g = s.cur.a.g := rfl
@[simp] theorem modSr_c (f : SRegs → SRegs) (s : State) : (modSr f s).cur.a.c = s.cur.a.c := rfl
@[simp] theorem modSr_pc (f : SRegs → SRegs) (s : State) : (modSr f s).cur.a.pc = s.cur.a.pc := rfl
@[simp] theorem modSr_immx (f : SRegs → SRegs) (s : State) : (modSr f s).cur.a.immx = s.cur.a.immx := rfl
@[simp] theorem modSr_handler (f : SRegs → SRegs) (s : State) : (modSr f s).cur.a.handler = s.cur.a.handler := rfl
@[simp] theorem modSr_wake (f : SRegs → SRegs) (s : State) : (modSr f s).cur.a.wake = s.cur.a.wake := rfl
@[simp] theorem modSr_kept (f : SRegs → SRegs) (s : State) : (modSr f s).cur.a.kept = s.cur.a.kept := rfl
@[simp] theorem modSr_efault (f : SRegs → SRegs) (s : State) : (modSr f s).cur.a.efault = s.cur.a.efault := rfl
@[simp] theorem modSr_eflags (f : SRegs → SRegs) (s : State) : (modSr f s).cur.a.eflags = s.cur.a.eflags := rfl

/-! ### setPc -/

@[simp] theorem setPc_others (pc : Word64) (s : State) : (setPc pc s).others = s.others := rfl
@[simp] theorem setPc_cores (pc : Word64) (s : State) : (setPc pc s).cores = s.cores := rfl
@[simp] theorem setPc_tiles (pc : Word64) (s : State) : (setPc pc s).tiles = s.tiles := rfl
@[simp] theorem setPc_clusters (pc : Word64) (s : State) : (setPc pc s).clusters = s.clusters := rfl
@[simp] theorem setPc_banks (pc : Word64) (s : State) : (setPc pc s).banks = s.banks := rfl
@[simp] theorem setPc_mem (pc : Word64) (s : State) : (setPc pc s).mem = s.mem := rfl
@[simp] theorem setPc_homes (pc : Word64) (s : State) : (setPc pc s).homes = s.homes := rfl
@[simp] theorem setPc_disp (pc : Word64) (s : State) : (setPc pc s).disp = s.disp := rfl
@[simp] theorem setPc_plat (pc : Word64) (s : State) : (setPc pc s).plat = s.plat := rfl
@[simp] theorem setPc_host (pc : Word64) (s : State) : (setPc pc s).host = s.host := rfl
@[simp] theorem setPc_agenda (pc : Word64) (s : State) : (setPc pc s).agenda = s.agenda := rfl
@[simp] theorem setPc_inbox (pc : Word64) (s : State) : (setPc pc s).inbox = s.inbox := rfl
@[simp] theorem setPc_steps (pc : Word64) (s : State) : (setPc pc s).steps = s.steps := rfl
@[simp] theorem setPc_fresh (pc : Word64) (s : State) : (setPc pc s).fresh = s.fresh := rfl
@[simp] theorem setPc_cur_id (pc : Word64) (s : State) : (setPc pc s).cur.id = s.cur.id := rfl
@[simp] theorem setPc_cur_bind (pc : Word64) (s : State) : (setPc pc s).cur.bind = s.cur.bind := rfl
@[simp] theorem setPc_cur_handles (pc : Word64) (s : State) : (setPc pc s).cur.handles = s.cur.handles := rfl
@[simp] theorem setPc_cur_floor (pc : Word64) (s : State) : (setPc pc s).cur.floor = s.cur.floor := rfl
@[simp] theorem setPc_cur_handoff (pc : Word64) (s : State) : (setPc pc s).cur.handoff = s.cur.handoff := rfl
@[simp] theorem setPc_cur_wakeFrom (pc : Word64) (s : State) : (setPc pc s).cur.wakeFrom = s.cur.wakeFrom := rfl
@[simp] theorem setPc_cur_pre (pc : Word64) (s : State) : (setPc pc s).cur.pre = s.cur.pre := rfl
@[simp] theorem setPc_cur_blk (pc : Word64) (s : State) : (setPc pc s).cur.blk = s.cur.blk := rfl
@[simp] theorem setPc_cur_taken (pc : Word64) (s : State) : (setPc pc s).cur.taken = s.cur.taken := rfl
@[simp] theorem setPc_cur_busyUntil (pc : Word64) (s : State) : (setPc pc s).cur.busyUntil = s.cur.busyUntil := rfl
@[simp] theorem setPc_cur_posted (pc : Word64) (s : State) : (setPc pc s).cur.posted = s.cur.posted := rfl
@[simp] theorem setPc_cur_burst (pc : Word64) (s : State) : (setPc pc s).cur.burst = s.cur.burst := rfl
@[simp] theorem setPc_cur_half0 (pc : Word64) (s : State) : (setPc pc s).cur.half0 = s.cur.half0 := rfl
@[simp] theorem setPc_cur_half1 (pc : Word64) (s : State) : (setPc pc s).cur.half1 = s.cur.half1 := rfl
@[simp] theorem setPc_cur_issued (pc : Word64) (s : State) : (setPc pc s).cur.issued = s.cur.issued := rfl
@[simp] theorem setPc_cur_waited (pc : Word64) (s : State) : (setPc pc s).cur.waited = s.cur.waited := rfl
@[simp] theorem setPc_cur_run (pc : Word64) (s : State) : (setPc pc s).cur.run = s.cur.run := rfl
@[simp] theorem setPc_cur_brp (pc : Word64) (s : State) : (setPc pc s).cur.brp = s.cur.brp := rfl
@[simp] theorem setPc_cur_prio (pc : Word64) (s : State) : (setPc pc s).cur.prio = s.cur.prio := rfl
@[simp] theorem setPc_cur_stream (pc : Word64) (s : State) : (setPc pc s).cur.stream = s.cur.stream := rfl
@[simp] theorem setPc_g (pc : Word64) (s : State) : (setPc pc s).cur.a.g = s.cur.a.g := rfl
@[simp] theorem setPc_c (pc : Word64) (s : State) : (setPc pc s).cur.a.c = s.cur.a.c := rfl
@[simp] theorem setPc_handler (pc : Word64) (s : State) : (setPc pc s).cur.a.handler = s.cur.a.handler := rfl
@[simp] theorem setPc_sr (pc : Word64) (s : State) : (setPc pc s).cur.a.sr = s.cur.a.sr := rfl
@[simp] theorem setPc_wake (pc : Word64) (s : State) : (setPc pc s).cur.a.wake = s.cur.a.wake := rfl
@[simp] theorem setPc_kept (pc : Word64) (s : State) : (setPc pc s).cur.a.kept = s.cur.a.kept := rfl
@[simp] theorem setPc_efault (pc : Word64) (s : State) : (setPc pc s).cur.a.efault = s.cur.a.efault := rfl
@[simp] theorem setPc_eflags (pc : Word64) (s : State) : (setPc pc s).cur.a.eflags = s.cur.a.eflags := rfl

/-! ### retire -/

@[simp] theorem retire_others (s : State) : (retire s).others = s.others := rfl
@[simp] theorem retire_cores (s : State) : (retire s).cores = s.cores := rfl
@[simp] theorem retire_tiles (s : State) : (retire s).tiles = s.tiles := rfl
@[simp] theorem retire_clusters (s : State) : (retire s).clusters = s.clusters := rfl
@[simp] theorem retire_banks (s : State) : (retire s).banks = s.banks := rfl
@[simp] theorem retire_mem (s : State) : (retire s).mem = s.mem := rfl
@[simp] theorem retire_homes (s : State) : (retire s).homes = s.homes := rfl
@[simp] theorem retire_disp (s : State) : (retire s).disp = s.disp := rfl
@[simp] theorem retire_plat (s : State) : (retire s).plat = s.plat := rfl
@[simp] theorem retire_host (s : State) : (retire s).host = s.host := rfl
@[simp] theorem retire_agenda (s : State) : (retire s).agenda = s.agenda := rfl
@[simp] theorem retire_inbox (s : State) : (retire s).inbox = s.inbox := rfl
@[simp] theorem retire_steps (s : State) : (retire s).steps = s.steps := rfl
@[simp] theorem retire_fresh (s : State) : (retire s).fresh = s.fresh := rfl
@[simp] theorem retire_cur_id (s : State) : (retire s).cur.id = s.cur.id := rfl
@[simp] theorem retire_cur_bind (s : State) : (retire s).cur.bind = s.cur.bind := rfl
@[simp] theorem retire_cur_handles (s : State) : (retire s).cur.handles = s.cur.handles := rfl
@[simp] theorem retire_cur_floor (s : State) : (retire s).cur.floor = s.cur.floor := rfl
@[simp] theorem retire_cur_handoff (s : State) : (retire s).cur.handoff = s.cur.handoff := rfl
@[simp] theorem retire_cur_wakeFrom (s : State) : (retire s).cur.wakeFrom = s.cur.wakeFrom := rfl
@[simp] theorem retire_cur_pre (s : State) : (retire s).cur.pre = s.cur.pre := rfl
@[simp] theorem retire_cur_blk (s : State) : (retire s).cur.blk = s.cur.blk := rfl
@[simp] theorem retire_cur_taken (s : State) : (retire s).cur.taken = s.cur.taken := rfl
@[simp] theorem retire_cur_busyUntil (s : State) : (retire s).cur.busyUntil = s.cur.busyUntil := rfl
@[simp] theorem retire_cur_posted (s : State) : (retire s).cur.posted = s.cur.posted := rfl
@[simp] theorem retire_cur_burst (s : State) : (retire s).cur.burst = s.cur.burst := rfl
@[simp] theorem retire_cur_half0 (s : State) : (retire s).cur.half0 = s.cur.half0 := rfl
@[simp] theorem retire_cur_half1 (s : State) : (retire s).cur.half1 = s.cur.half1 := rfl
@[simp] theorem retire_cur_issued (s : State) : (retire s).cur.issued = s.cur.issued := rfl
@[simp] theorem retire_cur_waited (s : State) : (retire s).cur.waited = s.cur.waited := rfl
@[simp] theorem retire_cur_run (s : State) : (retire s).cur.run = s.cur.run := rfl
@[simp] theorem retire_cur_brp (s : State) : (retire s).cur.brp = s.cur.brp := rfl
@[simp] theorem retire_cur_prio (s : State) : (retire s).cur.prio = s.cur.prio := rfl
@[simp] theorem retire_cur_stream (s : State) : (retire s).cur.stream = s.cur.stream := rfl
@[simp] theorem retire_g (s : State) : (retire s).cur.a.g = s.cur.a.g := rfl
@[simp] theorem retire_c (s : State) : (retire s).cur.a.c = s.cur.a.c := rfl
@[simp] theorem retire_handler (s : State) : (retire s).cur.a.handler = s.cur.a.handler := rfl
@[simp] theorem retire_sr (s : State) : (retire s).cur.a.sr = s.cur.a.sr := rfl
@[simp] theorem retire_wake (s : State) : (retire s).cur.a.wake = s.cur.a.wake := rfl
@[simp] theorem retire_kept (s : State) : (retire s).cur.a.kept = s.cur.a.kept := rfl
@[simp] theorem retire_efault (s : State) : (retire s).cur.a.efault = s.cur.a.efault := rfl
@[simp] theorem retire_eflags (s : State) : (retire s).cur.a.eflags = s.cur.a.eflags := rfl

/-! ### park -/

@[simp] theorem park_others (w : Wait) (s : State) : (park w s).others = s.others := rfl
@[simp] theorem park_cores (w : Wait) (s : State) : (park w s).cores = s.cores := rfl
@[simp] theorem park_tiles (w : Wait) (s : State) : (park w s).tiles = s.tiles := rfl
@[simp] theorem park_clusters (w : Wait) (s : State) : (park w s).clusters = s.clusters := rfl
@[simp] theorem park_banks (w : Wait) (s : State) : (park w s).banks = s.banks := rfl
@[simp] theorem park_mem (w : Wait) (s : State) : (park w s).mem = s.mem := rfl
@[simp] theorem park_homes (w : Wait) (s : State) : (park w s).homes = s.homes := rfl
@[simp] theorem park_disp (w : Wait) (s : State) : (park w s).disp = s.disp := rfl
@[simp] theorem park_plat (w : Wait) (s : State) : (park w s).plat = s.plat := rfl
@[simp] theorem park_host (w : Wait) (s : State) : (park w s).host = s.host := rfl
@[simp] theorem park_agenda (w : Wait) (s : State) : (park w s).agenda = s.agenda := rfl
@[simp] theorem park_inbox (w : Wait) (s : State) : (park w s).inbox = s.inbox := rfl
@[simp] theorem park_steps (w : Wait) (s : State) : (park w s).steps = s.steps := rfl
@[simp] theorem park_fresh (w : Wait) (s : State) : (park w s).fresh = s.fresh := rfl
@[simp] theorem park_cur_id (w : Wait) (s : State) : (park w s).cur.id = s.cur.id := rfl
@[simp] theorem park_cur_bind (w : Wait) (s : State) : (park w s).cur.bind = s.cur.bind := rfl
@[simp] theorem park_cur_handles (w : Wait) (s : State) : (park w s).cur.handles = s.cur.handles := rfl
@[simp] theorem park_cur_floor (w : Wait) (s : State) : (park w s).cur.floor = s.cur.floor := rfl
@[simp] theorem park_cur_handoff (w : Wait) (s : State) : (park w s).cur.handoff = s.cur.handoff := rfl
@[simp] theorem park_cur_wakeFrom (w : Wait) (s : State) : (park w s).cur.wakeFrom = s.cur.wakeFrom := rfl
@[simp] theorem park_cur_pre (w : Wait) (s : State) : (park w s).cur.pre = s.cur.pre := rfl
@[simp] theorem park_cur_blk (w : Wait) (s : State) : (park w s).cur.blk = s.cur.blk := rfl
@[simp] theorem park_cur_taken (w : Wait) (s : State) : (park w s).cur.taken = s.cur.taken := rfl
@[simp] theorem park_cur_busyUntil (w : Wait) (s : State) : (park w s).cur.busyUntil = s.cur.busyUntil := rfl
@[simp] theorem park_cur_posted (w : Wait) (s : State) : (park w s).cur.posted = s.cur.posted := rfl
@[simp] theorem park_cur_burst (w : Wait) (s : State) : (park w s).cur.burst = s.cur.burst := rfl
@[simp] theorem park_cur_half0 (w : Wait) (s : State) : (park w s).cur.half0 = s.cur.half0 := rfl
@[simp] theorem park_cur_half1 (w : Wait) (s : State) : (park w s).cur.half1 = s.cur.half1 := rfl
@[simp] theorem park_cur_issued (w : Wait) (s : State) : (park w s).cur.issued = s.cur.issued := rfl
@[simp] theorem park_cur_waited (w : Wait) (s : State) : (park w s).cur.waited = s.cur.waited := rfl
@[simp] theorem park_cur_brp (w : Wait) (s : State) : (park w s).cur.brp = s.cur.brp := rfl
@[simp] theorem park_cur_prio (w : Wait) (s : State) : (park w s).cur.prio = s.cur.prio := rfl
@[simp] theorem park_cur_stream (w : Wait) (s : State) : (park w s).cur.stream = s.cur.stream := rfl
@[simp] theorem park_g (w : Wait) (s : State) : (park w s).cur.a.g = s.cur.a.g := rfl
@[simp] theorem park_c (w : Wait) (s : State) : (park w s).cur.a.c = s.cur.a.c := rfl
@[simp] theorem park_pc (w : Wait) (s : State) : (park w s).cur.a.pc = s.cur.a.pc := rfl
@[simp] theorem park_immx (w : Wait) (s : State) : (park w s).cur.a.immx = s.cur.a.immx := rfl
@[simp] theorem park_handler (w : Wait) (s : State) : (park w s).cur.a.handler = s.cur.a.handler := rfl
@[simp] theorem park_sr (w : Wait) (s : State) : (park w s).cur.a.sr = s.cur.a.sr := rfl
@[simp] theorem park_wake (w : Wait) (s : State) : (park w s).cur.a.wake = s.cur.a.wake := rfl
@[simp] theorem park_kept (w : Wait) (s : State) : (park w s).cur.a.kept = s.cur.a.kept := rfl
@[simp] theorem park_efault (w : Wait) (s : State) : (park w s).cur.a.efault = s.cur.a.efault := rfl
@[simp] theorem park_eflags (w : Wait) (s : State) : (park w s).cur.a.eflags = s.cur.a.eflags := rfl

/-! ### raiseAt -/

@[simp] theorem raiseAt_others (pc : Word64) (c : Cause) (v : Word64) (s : State) : (raiseAt pc c v s).others = s.others := rfl
@[simp] theorem raiseAt_cores (pc : Word64) (c : Cause) (v : Word64) (s : State) : (raiseAt pc c v s).cores = s.cores := rfl
@[simp] theorem raiseAt_tiles (pc : Word64) (c : Cause) (v : Word64) (s : State) : (raiseAt pc c v s).tiles = s.tiles := rfl
@[simp] theorem raiseAt_clusters (pc : Word64) (c : Cause) (v : Word64) (s : State) : (raiseAt pc c v s).clusters = s.clusters := rfl
@[simp] theorem raiseAt_banks (pc : Word64) (c : Cause) (v : Word64) (s : State) : (raiseAt pc c v s).banks = s.banks := rfl
@[simp] theorem raiseAt_mem (pc : Word64) (c : Cause) (v : Word64) (s : State) : (raiseAt pc c v s).mem = s.mem := rfl
@[simp] theorem raiseAt_homes (pc : Word64) (c : Cause) (v : Word64) (s : State) : (raiseAt pc c v s).homes = s.homes := rfl
@[simp] theorem raiseAt_disp (pc : Word64) (c : Cause) (v : Word64) (s : State) : (raiseAt pc c v s).disp = s.disp := rfl
@[simp] theorem raiseAt_plat (pc : Word64) (c : Cause) (v : Word64) (s : State) : (raiseAt pc c v s).plat = s.plat := rfl
@[simp] theorem raiseAt_host (pc : Word64) (c : Cause) (v : Word64) (s : State) : (raiseAt pc c v s).host = s.host := rfl
@[simp] theorem raiseAt_agenda (pc : Word64) (c : Cause) (v : Word64) (s : State) : (raiseAt pc c v s).agenda = s.agenda := rfl
@[simp] theorem raiseAt_steps (pc : Word64) (c : Cause) (v : Word64) (s : State) : (raiseAt pc c v s).steps = s.steps := rfl
@[simp] theorem raiseAt_fresh (pc : Word64) (c : Cause) (v : Word64) (s : State) : (raiseAt pc c v s).fresh = s.fresh := rfl
@[simp] theorem raiseAt_cur_id (pc : Word64) (c : Cause) (v : Word64) (s : State) : (raiseAt pc c v s).cur.id = s.cur.id := rfl
@[simp] theorem raiseAt_cur_bind (pc : Word64) (c : Cause) (v : Word64) (s : State) : (raiseAt pc c v s).cur.bind = s.cur.bind := rfl
@[simp] theorem raiseAt_cur_handles (pc : Word64) (c : Cause) (v : Word64) (s : State) : (raiseAt pc c v s).cur.handles = s.cur.handles := rfl
@[simp] theorem raiseAt_cur_floor (pc : Word64) (c : Cause) (v : Word64) (s : State) : (raiseAt pc c v s).cur.floor = s.cur.floor := rfl
@[simp] theorem raiseAt_cur_handoff (pc : Word64) (c : Cause) (v : Word64) (s : State) : (raiseAt pc c v s).cur.handoff = s.cur.handoff := rfl
@[simp] theorem raiseAt_cur_wakeFrom (pc : Word64) (c : Cause) (v : Word64) (s : State) : (raiseAt pc c v s).cur.wakeFrom = s.cur.wakeFrom := rfl
@[simp] theorem raiseAt_cur_pre (pc : Word64) (c : Cause) (v : Word64) (s : State) : (raiseAt pc c v s).cur.pre = s.cur.pre := rfl
@[simp] theorem raiseAt_cur_busyUntil (pc : Word64) (c : Cause) (v : Word64) (s : State) : (raiseAt pc c v s).cur.busyUntil = s.cur.busyUntil := rfl
@[simp] theorem raiseAt_cur_issued (pc : Word64) (c : Cause) (v : Word64) (s : State) : (raiseAt pc c v s).cur.issued = s.cur.issued := rfl
@[simp] theorem raiseAt_cur_waited (pc : Word64) (c : Cause) (v : Word64) (s : State) : (raiseAt pc c v s).cur.waited = s.cur.waited := rfl
@[simp] theorem raiseAt_g (pc : Word64) (c : Cause) (v : Word64) (s : State) : (raiseAt pc c v s).cur.a.g = s.cur.a.g := rfl
@[simp] theorem raiseAt_c (pc : Word64) (c : Cause) (v : Word64) (s : State) : (raiseAt pc c v s).cur.a.c = s.cur.a.c := rfl
@[simp] theorem raiseAt_handler (pc : Word64) (c : Cause) (v : Word64) (s : State) : (raiseAt pc c v s).cur.a.handler = s.cur.a.handler := rfl
@[simp] theorem raiseAt_sr (pc : Word64) (c : Cause) (v : Word64) (s : State) : (raiseAt pc c v s).cur.a.sr = s.cur.a.sr := rfl
@[simp] theorem raiseAt_wake (pc : Word64) (c : Cause) (v : Word64) (s : State) : (raiseAt pc c v s).cur.a.wake = s.cur.a.wake := rfl
@[simp] theorem raiseAt_kept (pc : Word64) (c : Cause) (v : Word64) (s : State) : (raiseAt pc c v s).cur.a.kept = s.cur.a.kept := rfl
@[simp] theorem raiseAt_efault (pc : Word64) (c : Cause) (v : Word64) (s : State) : (raiseAt pc c v s).cur.a.efault = s.cur.a.efault := rfl
@[simp] theorem raiseAt_eflags (pc : Word64) (c : Cause) (v : Word64) (s : State) : (raiseAt pc c v s).cur.a.eflags = s.cur.a.eflags := rfl

/-! ### putCore -/

@[simp] theorem putCore_cur (k : Core) (s : State) : (putCore k s).cur = s.cur := rfl
@[simp] theorem putCore_others (k : Core) (s : State) : (putCore k s).others = s.others := rfl
@[simp] theorem putCore_tiles (k : Core) (s : State) : (putCore k s).tiles = s.tiles := rfl
@[simp] theorem putCore_clusters (k : Core) (s : State) : (putCore k s).clusters = s.clusters := rfl
@[simp] theorem putCore_banks (k : Core) (s : State) : (putCore k s).banks = s.banks := rfl
@[simp] theorem putCore_mem (k : Core) (s : State) : (putCore k s).mem = s.mem := rfl
@[simp] theorem putCore_homes (k : Core) (s : State) : (putCore k s).homes = s.homes := rfl
@[simp] theorem putCore_disp (k : Core) (s : State) : (putCore k s).disp = s.disp := rfl
@[simp] theorem putCore_plat (k : Core) (s : State) : (putCore k s).plat = s.plat := rfl
@[simp] theorem putCore_host (k : Core) (s : State) : (putCore k s).host = s.host := rfl
@[simp] theorem putCore_agenda (k : Core) (s : State) : (putCore k s).agenda = s.agenda := rfl
@[simp] theorem putCore_inbox (k : Core) (s : State) : (putCore k s).inbox = s.inbox := rfl
@[simp] theorem putCore_steps (k : Core) (s : State) : (putCore k s).steps = s.steps := rfl
@[simp] theorem putCore_fresh (k : Core) (s : State) : (putCore k s).fresh = s.fresh := rfl

/-! ### putTile -/

@[simp] theorem putTile_cur (t : Tile) (s : State) : (putTile t s).cur = s.cur := rfl
@[simp] theorem putTile_others (t : Tile) (s : State) : (putTile t s).others = s.others := rfl
@[simp] theorem putTile_cores (t : Tile) (s : State) : (putTile t s).cores = s.cores := rfl
@[simp] theorem putTile_clusters (t : Tile) (s : State) : (putTile t s).clusters = s.clusters := rfl
@[simp] theorem putTile_banks (t : Tile) (s : State) : (putTile t s).banks = s.banks := rfl
@[simp] theorem putTile_mem (t : Tile) (s : State) : (putTile t s).mem = s.mem := rfl
@[simp] theorem putTile_homes (t : Tile) (s : State) : (putTile t s).homes = s.homes := rfl
@[simp] theorem putTile_disp (t : Tile) (s : State) : (putTile t s).disp = s.disp := rfl
@[simp] theorem putTile_plat (t : Tile) (s : State) : (putTile t s).plat = s.plat := rfl
@[simp] theorem putTile_host (t : Tile) (s : State) : (putTile t s).host = s.host := rfl
@[simp] theorem putTile_agenda (t : Tile) (s : State) : (putTile t s).agenda = s.agenda := rfl
@[simp] theorem putTile_inbox (t : Tile) (s : State) : (putTile t s).inbox = s.inbox := rfl
@[simp] theorem putTile_steps (t : Tile) (s : State) : (putTile t s).steps = s.steps := rfl
@[simp] theorem putTile_fresh (t : Tile) (s : State) : (putTile t s).fresh = s.fresh := rfl

/-! ### putCluster -/

@[simp] theorem putCluster_cur (c : Cluster) (s : State) : (putCluster c s).cur = s.cur := rfl
@[simp] theorem putCluster_others (c : Cluster) (s : State) : (putCluster c s).others = s.others := rfl
@[simp] theorem putCluster_cores (c : Cluster) (s : State) : (putCluster c s).cores = s.cores := rfl
@[simp] theorem putCluster_tiles (c : Cluster) (s : State) : (putCluster c s).tiles = s.tiles := rfl
@[simp] theorem putCluster_banks (c : Cluster) (s : State) : (putCluster c s).banks = s.banks := rfl
@[simp] theorem putCluster_mem (c : Cluster) (s : State) : (putCluster c s).mem = s.mem := rfl
@[simp] theorem putCluster_homes (c : Cluster) (s : State) : (putCluster c s).homes = s.homes := rfl
@[simp] theorem putCluster_disp (c : Cluster) (s : State) : (putCluster c s).disp = s.disp := rfl
@[simp] theorem putCluster_plat (c : Cluster) (s : State) : (putCluster c s).plat = s.plat := rfl
@[simp] theorem putCluster_host (c : Cluster) (s : State) : (putCluster c s).host = s.host := rfl
@[simp] theorem putCluster_agenda (c : Cluster) (s : State) : (putCluster c s).agenda = s.agenda := rfl
@[simp] theorem putCluster_inbox (c : Cluster) (s : State) : (putCluster c s).inbox = s.inbox := rfl
@[simp] theorem putCluster_steps (c : Cluster) (s : State) : (putCluster c s).steps = s.steps := rfl
@[simp] theorem putCluster_fresh (c : Cluster) (s : State) : (putCluster c s).fresh = s.fresh := rfl

/-! ### putBank -/

@[simp] theorem putBank_cur (b : Bank) (s : State) : (putBank b s).cur = s.cur := rfl
@[simp] theorem putBank_others (b : Bank) (s : State) : (putBank b s).others = s.others := rfl
@[simp] theorem putBank_cores (b : Bank) (s : State) : (putBank b s).cores = s.cores := rfl
@[simp] theorem putBank_tiles (b : Bank) (s : State) : (putBank b s).tiles = s.tiles := rfl
@[simp] theorem putBank_clusters (b : Bank) (s : State) : (putBank b s).clusters = s.clusters := rfl
@[simp] theorem putBank_mem (b : Bank) (s : State) : (putBank b s).mem = s.mem := rfl
@[simp] theorem putBank_homes (b : Bank) (s : State) : (putBank b s).homes = s.homes := rfl
@[simp] theorem putBank_disp (b : Bank) (s : State) : (putBank b s).disp = s.disp := rfl
@[simp] theorem putBank_plat (b : Bank) (s : State) : (putBank b s).plat = s.plat := rfl
@[simp] theorem putBank_host (b : Bank) (s : State) : (putBank b s).host = s.host := rfl
@[simp] theorem putBank_agenda (b : Bank) (s : State) : (putBank b s).agenda = s.agenda := rfl
@[simp] theorem putBank_inbox (b : Bank) (s : State) : (putBank b s).inbox = s.inbox := rfl
@[simp] theorem putBank_steps (b : Bank) (s : State) : (putBank b s).steps = s.steps := rfl
@[simp] theorem putBank_fresh (b : Bank) (s : State) : (putBank b s).fresh = s.fresh := rfl

/-! ### putLaunch -/

@[simp] theorem putLaunch_cur (l : Launch) (s : State) : (putLaunch l s).cur = s.cur := rfl
@[simp] theorem putLaunch_others (l : Launch) (s : State) : (putLaunch l s).others = s.others := rfl
@[simp] theorem putLaunch_cores (l : Launch) (s : State) : (putLaunch l s).cores = s.cores := rfl
@[simp] theorem putLaunch_tiles (l : Launch) (s : State) : (putLaunch l s).tiles = s.tiles := rfl
@[simp] theorem putLaunch_clusters (l : Launch) (s : State) : (putLaunch l s).clusters = s.clusters := rfl
@[simp] theorem putLaunch_banks (l : Launch) (s : State) : (putLaunch l s).banks = s.banks := rfl
@[simp] theorem putLaunch_mem (l : Launch) (s : State) : (putLaunch l s).mem = s.mem := rfl
@[simp] theorem putLaunch_homes (l : Launch) (s : State) : (putLaunch l s).homes = s.homes := rfl
@[simp] theorem putLaunch_plat (l : Launch) (s : State) : (putLaunch l s).plat = s.plat := rfl
@[simp] theorem putLaunch_host (l : Launch) (s : State) : (putLaunch l s).host = s.host := rfl
@[simp] theorem putLaunch_agenda (l : Launch) (s : State) : (putLaunch l s).agenda = s.agenda := rfl
@[simp] theorem putLaunch_inbox (l : Launch) (s : State) : (putLaunch l s).inbox = s.inbox := rfl
@[simp] theorem putLaunch_steps (l : Launch) (s : State) : (putLaunch l s).steps = s.steps := rfl
@[simp] theorem putLaunch_fresh (l : Launch) (s : State) : (putLaunch l s).fresh = s.fresh := rfl

/-! ### putQueue -/

@[simp] theorem putQueue_cur (q : Queue) (s : State) : (putQueue q s).cur = s.cur := rfl
@[simp] theorem putQueue_others (q : Queue) (s : State) : (putQueue q s).others = s.others := rfl
@[simp] theorem putQueue_cores (q : Queue) (s : State) : (putQueue q s).cores = s.cores := rfl
@[simp] theorem putQueue_tiles (q : Queue) (s : State) : (putQueue q s).tiles = s.tiles := rfl
@[simp] theorem putQueue_clusters (q : Queue) (s : State) : (putQueue q s).clusters = s.clusters := rfl
@[simp] theorem putQueue_banks (q : Queue) (s : State) : (putQueue q s).banks = s.banks := rfl
@[simp] theorem putQueue_mem (q : Queue) (s : State) : (putQueue q s).mem = s.mem := rfl
@[simp] theorem putQueue_homes (q : Queue) (s : State) : (putQueue q s).homes = s.homes := rfl
@[simp] theorem putQueue_plat (q : Queue) (s : State) : (putQueue q s).plat = s.plat := rfl
@[simp] theorem putQueue_host (q : Queue) (s : State) : (putQueue q s).host = s.host := rfl
@[simp] theorem putQueue_agenda (q : Queue) (s : State) : (putQueue q s).agenda = s.agenda := rfl
@[simp] theorem putQueue_inbox (q : Queue) (s : State) : (putQueue q s).inbox = s.inbox := rfl
@[simp] theorem putQueue_steps (q : Queue) (s : State) : (putQueue q s).steps = s.steps := rfl
@[simp] theorem putQueue_fresh (q : Queue) (s : State) : (putQueue q s).fresh = s.fresh := rfl

/-! ### useFree -/

@[simp] theorem useFree_cur (s : State) : (useFree s).cur = s.cur := rfl
@[simp] theorem useFree_others (s : State) : (useFree s).others = s.others := rfl
@[simp] theorem useFree_cores (s : State) : (useFree s).cores = s.cores := rfl
@[simp] theorem useFree_tiles (s : State) : (useFree s).tiles = s.tiles := rfl
@[simp] theorem useFree_clusters (s : State) : (useFree s).clusters = s.clusters := rfl
@[simp] theorem useFree_banks (s : State) : (useFree s).banks = s.banks := rfl
@[simp] theorem useFree_mem (s : State) : (useFree s).mem = s.mem := rfl
@[simp] theorem useFree_homes (s : State) : (useFree s).homes = s.homes := rfl
@[simp] theorem useFree_disp (s : State) : (useFree s).disp = s.disp := rfl
@[simp] theorem useFree_plat (s : State) : (useFree s).plat = s.plat := rfl
@[simp] theorem useFree_host (s : State) : (useFree s).host = s.host := rfl
@[simp] theorem useFree_agenda (s : State) : (useFree s).agenda = s.agenda := rfl
@[simp] theorem useFree_inbox (s : State) : (useFree s).inbox = s.inbox := rfl
@[simp] theorem useFree_steps (s : State) : (useFree s).steps = s.steps := rfl

/-! ### setFull -/

@[simp] theorem setFull_cur (k : Nat) (f : Bool) (s : State) : (setFull k f s).cur = s.cur := by unfold setFull; split <;> rfl
@[simp] theorem setFull_others (k : Nat) (f : Bool) (s : State) : (setFull k f s).others = s.others := by unfold setFull; split <;> rfl
@[simp] theorem setFull_cores (k : Nat) (f : Bool) (s : State) : (setFull k f s).cores = s.cores := by unfold setFull; split <;> rfl
@[simp] theorem setFull_tiles (k : Nat) (f : Bool) (s : State) : (setFull k f s).tiles = s.tiles := by unfold setFull; split <;> rfl
@[simp] theorem setFull_clusters (k : Nat) (f : Bool) (s : State) : (setFull k f s).clusters = s.clusters := by unfold setFull; split <;> rfl
@[simp] theorem setFull_banks (k : Nat) (f : Bool) (s : State) : (setFull k f s).banks = s.banks := by unfold setFull; split <;> rfl
@[simp] theorem setFull_homes (k : Nat) (f : Bool) (s : State) : (setFull k f s).homes = s.homes := by unfold setFull; split <;> rfl
@[simp] theorem setFull_disp (k : Nat) (f : Bool) (s : State) : (setFull k f s).disp = s.disp := by unfold setFull; split <;> rfl
@[simp] theorem setFull_plat (k : Nat) (f : Bool) (s : State) : (setFull k f s).plat = s.plat := by unfold setFull; split <;> rfl
@[simp] theorem setFull_host (k : Nat) (f : Bool) (s : State) : (setFull k f s).host = s.host := by unfold setFull; split <;> rfl
@[simp] theorem setFull_agenda (k : Nat) (f : Bool) (s : State) : (setFull k f s).agenda = s.agenda := by unfold setFull; split <;> rfl
@[simp] theorem setFull_inbox (k : Nat) (f : Bool) (s : State) : (setFull k f s).inbox = s.inbox := by unfold setFull; split <;> rfl
@[simp] theorem setFull_steps (k : Nat) (f : Bool) (s : State) : (setFull k f s).steps = s.steps := by unfold setFull; split <;> rfl
@[simp] theorem setFull_fresh (k : Nat) (f : Bool) (s : State) : (setFull k f s).fresh = s.fresh := by unfold setFull; split <;> rfl

/-! ### What the updates write -/

@[simp] theorem setPc_at (pc : Word64) (s : State) : (setPc pc s).cur.a.pc = pc := rfl
@[simp] theorem setPc_group (pc : Word64) (s : State) : (setPc pc s).cur.a.immx = [] := rfl
@[simp] theorem retire_at (s : State) : (retire s).cur.a.pc = s.cur.a.pc + 4 := rfl
@[simp] theorem retire_group (s : State) : (retire s).cur.a.immx = [] := rfl
@[simp] theorem addFlags_afl (f : Nat) (s : State) :
    (addFlags f s).cur.a.sr.afl = s.cur.a.sr.afl ||| nat64 f := rfl
@[simp] theorem modSr_sr (f : SRegs → SRegs) (s : State) : (modSr f s).cur.a.sr = f s.cur.a.sr := rfl
@[simp] theorem park_run (w : Wait) (s : State) : (park w s).cur.run = .parked w := rfl
@[simp] theorem raiseAt_run (pc : Word64) (c : Cause) (v : Word64) (s : State) :
    (raiseAt pc c v s).cur.run = .stopped := rfl
@[simp] theorem raiseAt_at (pc : Word64) (c : Cause) (v : Word64) (s : State) :
    (raiseAt pc c v s).cur.a.pc = pc := rfl
@[simp] theorem raiseAt_fcause (pc : Word64) (c : Cause) (v : Word64) (s : State) :
    (raiseAt pc c v s).cur.fcause = c.code := rfl
@[simp] theorem raiseAt_fval (pc : Word64) (c : Cause) (v : Word64) (s : State) :
    (raiseAt pc c v s).cur.fval = v := rfl
@[simp] theorem raiseAt_fpc (pc : Word64) (c : Cause) (v : Word64) (s : State) :
    (raiseAt pc c v s).cur.fpc = pc := rfl

/-! ### Registers (R14) -/

/-- Every other register keeps its value. -/
theorem rd_wr_other {r q : Reg} (h : q ≠ r) (v : Word64) (s : State) : rd (wr r v s) q = rd s q := by
  simp only [rd, wr, setReg]
  split
  · rfl
  · split
    · rfl
    · have : r.toNat ≠ q.toNat := fun e => h (BitVec.eq_of_toNat_eq e.symm)
      simp [this]

/-- A written register other than g0 reads as what was written. -/
theorem rd_wr_same {r : Reg} (h : r ≠ 0) (v : Word64) (s : State) : rd (wr r v s) r = v := by
  have h' : r ≠ 0#5 := h
  simp [rd, wr, setReg, h']

/-- g0 reads as zero whatever is written to it. -/
@[simp] theorem rd_zero (s : State) : rd s 0 = 0 := by simp [rd]

@[simp] theorem wr_zero (v : Word64) (s : State) : wr 0 v s = s := by simp [wr, setReg]

@[simp] theorem rd_addFlags (f : Nat) (s : State) (r : Reg) : rd (addFlags f s) r = rd s r := rfl
@[simp] theorem rd_modSr (f : SRegs → SRegs) (s : State) (r : Reg) : rd (modSr f s) r = rd s r := rfl
@[simp] theorem rd_setPc (pc : Word64) (s : State) (r : Reg) : rd (setPc pc s) r = rd s r := rfl
@[simp] theorem rd_retire (s : State) (r : Reg) : rd (retire s) r = rd s r := rfl
@[simp] theorem rd_park (w : Wait) (s : State) (r : Reg) : rd (park w s) r = rd s r := rfl
@[simp] theorem rd_raiseAt (pc : Word64) (c : Cause) (v : Word64) (s : State) (r : Reg) :
    rd (raiseAt pc c v s) r = rd s r := rfl

end Sys2Proof.Machine
end

