-- ==== Sys2Proof/Laws/Ops.lean ====
section
/-!
SUPPORT. The shared operations: one lemma each that says everything the operation can do, for proofs to cite
instead of its definition.
-/

namespace Sys2Proof.Machine

open Sys2Proof

/-! ### Sparse lists -/

/-- What was stored under a key is found under it. -/
theorem getBy_putBy_same {α : Type} (key : α → Nat) (x d : α) (xs : List α) : getBy key (key x) d (putBy key x xs) = x := by
  induction xs with
  | nil => simp [putBy, getBy]
  | cons y ys ih =>
    simp only [putBy]
    split
    · simp [getBy]
    · split
      · simp [getBy]
      · rename_i h _
        simp only [getBy, if_neg (fun e : key y = key x => h e.symm)]
        exact ih

/-- Storing under one key leaves what is found under every other. -/
theorem getBy_putBy_other {α : Type} (key : α → Nat) (x d : α) (xs : List α) {k : Nat} (h : k ≠ key x) :
    getBy key k d (putBy key x xs) = getBy key k d xs := by
  induction xs with
  | nil => simp [putBy, getBy, Ne.symm h]
  | cons y ys ih =>
    simp only [putBy]
    split
    · rename_i e
      simp [getBy, Ne.symm h, ← e]
    · split
      · simp [getBy, Ne.symm h]
      · simp only [getBy, ih]

theorem coreAt_putCore_same (c : Core) (s : State) : coreAt (putCore c s) c.id = c := getBy_putBy_same Core.id c _ _
theorem coreAt_putCore_other (c : Core) (s : State) {k : Nat} (h : k ≠ c.id) : coreAt (putCore c s) k = coreAt s k :=
  getBy_putBy_other Core.id c _ _ h
theorem tileAt_putTile_same (t : Tile) (s : State) : tileAt (putTile t s) t.id = t := getBy_putBy_same Tile.id t _ _
theorem tileAt_putTile_other (t : Tile) (s : State) {k : Nat} (h : k ≠ t.id) : tileAt (putTile t s) k = tileAt s k :=
  getBy_putBy_other Tile.id t _ _ h
theorem clusterAt_putCluster_same (c : Cluster) (s : State) : clusterAt (putCluster c s) c.id = c :=
  getBy_putBy_same Cluster.id c _ _
theorem clusterAt_putCluster_other (c : Cluster) (s : State) {k : Nat} (h : k ≠ c.id) :
    clusterAt (putCluster c s) k = clusterAt s k := getBy_putBy_other Cluster.id c _ _ h
theorem bankAt_putBank_same (b : Bank) (s : State) : bankAt (putBank b s) b.id = b := getBy_putBy_same Bank.id b _ _
theorem bankAt_putBank_other (b : Bank) (s : State) {k : Nat} (h : k ≠ b.id) : bankAt (putBank b s) k = bankAt s k :=
  getBy_putBy_other Bank.id b _ _ h
theorem launchAt_putLaunch_same (l : Launch) (s : State) : launchAt (putLaunch l s) l.id = l :=
  getBy_putBy_same Launch.id l _ _
theorem launchAt_putLaunch_other (l : Launch) (s : State) {k : Nat} (h : k ≠ l.id) :
    launchAt (putLaunch l s) k = launchAt s k := getBy_putBy_other Launch.id l _ _ h
theorem queueAt_putQueue_same (q : Queue) (s : State) : queueAt (putQueue q s) q.id = q := getBy_putBy_same Queue.id q _ _
theorem queueAt_putQueue_other (q : Queue) (s : State) {k : Nat} (h : k ≠ q.id) : queueAt (putQueue q s) k = queueAt s k :=
  getBy_putBy_other Queue.id q _ _ h

/-- An element that is found has the key asked for, if the default has. -/
theorem getBy_key {α : Type} (key : α → Nat) (k : Nat) (d : α) (h : key d = k) (xs : List α) : key (getBy key k d xs) = k := by
  induction xs with
  | nil => exact h
  | cons y ys ih => simp only [getBy]; split <;> assumption

@[simp] theorem coreAt_id (s : State) (k : Nat) : (coreAt s k).id = k := getBy_key Core.id k _ rfl _
@[simp] theorem tileAt_id (s : State) (k : Nat) : (tileAt s k).id = k := getBy_key Tile.id k _ rfl _
@[simp] theorem clusterAt_id (s : State) (k : Nat) : (clusterAt s k).id = k := getBy_key Cluster.id k _ rfl _
@[simp] theorem bankAt_id (s : State) (k : Nat) : (bankAt s k).id = k := getBy_key Bank.id k _ rfl _
@[simp] theorem launchAt_id (s : State) (k : Nat) : (launchAt s k).id = k := getBy_key Launch.id k _ rfl _
@[simp] theorem queueAt_id (s : State) (k : Nat) : (queueAt s k).id = k := getBy_key Queue.id k _ rfl _

@[simp] theorem ctxOf_cur (s : State) : ctxOf s s.cur.id = s.cur := by simp [ctxOf]
theorem switchTo_self (s : State) : switchTo s.cur.id s = s := by simp [switchTo]

/-! ### Completing and faulting -/

/-- A result is written, the PC moves on, and the instruction completes. -/
theorem put_eq (d : Reg) (v : Word64) (s : State) : put d v s = .next (retire (wr d v s)) := rfl
theorem putF_eq (d : Reg) (r : Word64 × Nat) (s : State) : putF d r s = .next (retire (addFlags r.2 (wr d r.1 s))) := rfl
theorem putX_eq (d : Reg) (r : Nat × Nat) (s : State) : putX d r s = .next (retire (addFlags r.2 (wr d (nat64 r.1) s))) := rfl
theorem raise_eq (c : Cause) (v : Word64) (s : State) : raise c v s = .next (raiseAt (groupPc s) c v s) := rfl

@[simp] theorem orTrap_ok {α : Type} (s : State) (x : α) (k : α → Out) : orTrap s (.ok x) k = k x := rfl
@[simp] theorem orTrap_error {α : Type} (s : State) (t : Trap) (k : α → Out) :
    orTrap s (.error t) k = .next (raiseAt (groupPc s) t.cause t.val s) := rfl

/-- A check either goes on with its result or answers the fault it found. -/
theorem orTrap_cases {α : Type} (s : State) (e : Except Trap α) (k : α → Out) :
    (∃ x, e = .ok x ∧ orTrap s e k = k x) ∨
    (∃ t, e = .error t ∧ orTrap s e k = .next (raiseAt (groupPc s) t.cause t.val s)) := by
  cases e with
  | ok x => exact .inl ⟨x, rfl, rfl⟩
  | error t => exact .inr ⟨t, rfl, rfl⟩

/-- A register target (R18): in the code and aligned, else BOUNDS before ALIGN. -/
theorem checkTarget_cases (s : State) (t : Word64) :
    (t.toNat < codeSize s ∧ t.toNat % 4 = 0 ∧ checkTarget s t = .ok ()) ∨
    (codeSize s ≤ t.toNat ∧ checkTarget s t = .error ⟨.bounds, t⟩) ∨
    (t.toNat < codeSize s ∧ t.toNat % 4 ≠ 0 ∧ checkTarget s t = .error ⟨.align, t⟩) := by
  unfold checkTarget
  by_cases h : codeSize s ≤ t.toNat
  · exact .inr (.inl ⟨h, if_pos h⟩)
  · by_cases g : t.toNat % 4 = 0
    · exact .inl ⟨by omega, g, by simp [h, g]⟩
    · exact .inr (.inr ⟨by omega, g, by simp [h, g]⟩)

/-- A direct target (R105): PC + 4 x displacement if that lies in the code, else BOUNDS. -/
theorem target_cases (s : State) (disp : Int) :
    let t := (s.cur.a.pc.toNat : Int) + 4 * disp
    (0 ≤ t ∧ t < codeSize s ∧ target s disp = .ok (wrap64 t)) ∨
    ((t < 0 ∨ codeSize s ≤ t) ∧ target s disp = .error ⟨.bounds, wrap64 t⟩) := by
  intro t
  unfold target
  by_cases h : t < 0 ∨ (codeSize s : Int) ≤ t
  · exact .inr ⟨h, if_pos h⟩
  · exact .inl ⟨by omega, by omega, if_neg h⟩

/-- Delivery of a trap (R202): without a vector, or within the handler, the task stops; a bad vector faults; else the
PC goes to it. -/
theorem deliver_cases (c : Cause) (v : Word64) (s : State) :
    ((s.cur.a.sr.tvec = 0 ∨ s.cur.a.handler = true) ∧ deliver c v s = .next (raiseAt (groupPc s) c v s)) ∨
    (¬(s.cur.a.sr.tvec = 0 ∨ s.cur.a.handler = true) ∧
      ((∃ t, checkTarget s s.cur.a.sr.tvec = .error t ∧ deliver c v s = .next (raiseAt (groupPc s) t.cause t.val s)) ∨
       (checkTarget s s.cur.a.sr.tvec = .ok () ∧ deliver c v s = .next { s with
          cur := { dropHints s.cur with
            a := { s.cur.a with
              pc := s.cur.a.sr.tvec, immx := [], handler := true
              sr := { s.cur.a.sr with tpc := groupPc s, tcause := nat64 c.code, tval := v } } } }))) := by
  by_cases h : s.cur.a.sr.tvec = 0 ∨ s.cur.a.handler = true
  · exact .inl ⟨h, by unfold deliver; rw [if_pos h]; rfl⟩
  · refine .inr ⟨h, ?_⟩
    unfold deliver
    rw [if_neg h]
    cases e : checkTarget s s.cur.a.sr.tvec with
    | error t => exact .inl ⟨t, rfl, rfl⟩
    | ok _ => exact .inr ⟨rfl, rfl⟩

/-- Return from a trap (R202). -/
theorem trapReturn_cases (w : BitVec 32) (s : State) :
    (s.cur.a.handler = false ∧ trapReturn w s = .next (raiseAt (groupPc s) .illegal (w.setWidth 64) s)) ∨
    (s.cur.a.handler = true ∧
      ((∃ t, checkTarget s s.cur.a.sr.tpc = .error t ∧ trapReturn w s = .next (raiseAt (groupPc s) t.cause t.val s)) ∨
       (checkTarget s s.cur.a.sr.tpc = .ok () ∧ trapReturn w s = .next { s with
          cur := { s.cur with a := { s.cur.a with handler := false, pc := s.cur.a.sr.tpc, immx := [] } } }))) := by
  cases h : s.cur.a.handler with
  | false => exact .inl ⟨rfl, by unfold trapReturn; rw [if_pos h]; rfl⟩
  | true =>
    refine .inr ⟨rfl, ?_⟩
    unfold trapReturn
    rw [if_neg (by simp [h])]
    cases e : checkTarget s s.cur.a.sr.tpc with
    | error t => exact .inl ⟨t, rfl, rfl⟩
    | ok _ => exact .inr ⟨rfl, rfl⟩

/-! ### The checks of R28 -/

/-- The checks pass exactly when each of the six does, and then give the entry. -/
theorem checkEntry_ok_iff (e x : HandleEntry) (l : List (Nat × Nat × Nat)) (b : Bool) (p : Word64) (n al : Nat) (need : Need) (wh : Where) :
    checkEntry e l b p n al need wh = .ok x ↔ x = e ∧ e.valid = true ∧ ov p + n ≤ e.length ∧ need.ok e = true ∧ b = false ∧
      wh.ok e.space = true ∧ ov p % al = 0 ∧ (e.lease = true → leasedIn l (hv p) (ov p) n = true) := by
  unfold checkEntry
  split
  · simp_all
  · split
    · simp_all
    · split
      · rename_i h
        rcases h with h | h <;> simp [h]
      · split
        · simp_all
        · split
          · simp_all
          · split
            · simp_all
            · constructor
              · intro h
                cases h
                simp_all
              · intro h
                rw [h.1]

/-- A check that fails names one of five causes, and the pointer. -/
theorem checkEntry_error {e : HandleEntry} {l : List (Nat × Nat × Nat)} {b : Bool} {p : Word64} {n al : Nat} {need : Need} {wh : Where}
    {t : Trap} (h : checkEntry e l b p n al need wh = .error t) :
    t.val = p ∧ t.cause ∈ [Cause.bounds, .perm, .space, .align, .notres] := by
  unfold checkEntry at h
  repeat' split at h
  all_goals first | (cases h; simp) | cases h

/-- The byte of LOCAL that a pointer names, or L1PAGE. -/
theorem placeLocal_cases (s : State) (p : Word64) (e : HandleEntry) :
    (∃ k, localKey s (myCluster s) s.cur.bind.area (e.base + ov p) = some k ∧ placeLocal s p e = .ok k) ∨
    (localKey s (myCluster s) s.cur.bind.area (e.base + ov p) = none ∧ placeLocal s p e = .error ⟨.l1page, p⟩) := by
  unfold placeLocal
  cases h : localKey s (myCluster s) s.cur.bind.area (e.base + ov p) with
  | some k => exact .inl ⟨k, rfl, rfl⟩
  | none => exact .inr ⟨rfl, rfl⟩

/-! ### Banks -/

/-- A read at a bank gives its bytes, or POISON. -/
theorem l1Read_cases (s : State) (p : Word64) (key n : Nat) :
    (l1Poisoned s key n = false ∧ l1Read s p key n = .ok (s.mem.l1.readN key n)) ∨
    (l1Poisoned s key n = true ∧ l1Read s p key n = .error ⟨.poison, p⟩) := by
  unfold l1Read
  cases h : l1Poisoned s key n
  · exact .inl ⟨rfl, by simp⟩
  · exact .inr ⟨rfl, by simp⟩

/-- The key that is inserted, and those that were there. -/
theorem mem_insertKey (k x : Nat) (ks : List Nat) : x ∈ insertKey k ks ↔ x = k ∨ x ∈ ks := by
  induction ks with
  | nil => simp [insertKey]
  | cons y ys ih =>
    simp only [insertKey]
    split
    · rename_i h
      simp only [List.mem_cons, h]
      tauto
    · split
      · simp
      · simp only [List.mem_cons, ih]
        tauto

/-- A full/empty bit that is set, and every other as it was. -/
theorem setFull_empty (key x : Nat) (full : Bool) (s : State) :
    x ∈ (setFull key full s).mem.empty ↔ (x = key ∧ full = false) ∨ (x ≠ key ∧ x ∈ s.mem.empty) := by
  unfold setFull
  cases full
  · simp only [Bool.false_eq_true, if_false, mem_insertKey]
    tauto
  · simp
    tauto

@[simp] theorem setFull_mem_l1 (key : Nat) (full : Bool) (s : State) : (setFull key full s).mem.l1 = s.mem.l1 := rfl
@[simp] theorem setFull_mem_hbm (key : Nat) (full : Bool) (s : State) : (setFull key full s).mem.hbm = s.mem.hbm := rfl

/-! ### Writes at a bank -/

/-- Logging changes launches only. -/
theorem logUndo_frame (launch : Nat) (u : Undo) (s : State) :
    ∃ ls, logUndo launch u s = { s with disp := { s.disp with launches := ls } } := by
  unfold logUndo
  dsimp only
  split
  · exact ⟨_, rfl⟩
  · split
    · exact ⟨_, rfl⟩
    · split <;> exact ⟨_, rfl⟩

/-- Notifying a bank changes banks only. -/
theorem notifyWord_frame (w : Nat) (s : State) : ∃ bs, notifyWord w s = { s with banks := bs } := by
  unfold notifyWord
  dsimp only
  split <;> exact ⟨_, rfl⟩

theorem notifyAll_frame (ws : List Nat) (s : State) : ∃ bs, notifyAll ws s = { s with banks := bs } := by
  induction ws generalizing s with
  | nil => exact ⟨_, rfl⟩
  | cons w ws ih =>
    obtain ⟨bs, h⟩ := notifyWord_frame w s
    obtain ⟨cs, g⟩ := ih (notifyWord w s)
    exact ⟨cs, by rw [notifyAll, g, h]⟩

/-- A write at a bank: the bytes of L1, the poison of words written whole, the undo log of the launch and the retry
lists of the banks; nothing else. -/
theorem l1Write_frame (launch key n v : Nat) (s : State) : ∃ ls bs ps, l1Write launch key n v s =
    { s with disp := { s.disp with launches := ls }, banks := bs, mem := { s.mem with l1 := s.mem.l1.writeN key n v, poison := ps } } := by
  obtain ⟨ls, h⟩ := logUndo_frame launch
    { isLocal := true, cluster := key / 2 ^ 28, line := (areaOff s (key / 128 * 128)).2, tag := (areaOff s (key / 128 * 128)).1
      fe := feBits s (key / 128 * 128) 16, old := s.mem.l1.line (key / 128 * 128) } s
  unfold l1Write logLocal
  dsimp only
  rw [h]
  obtain ⟨bs, g⟩ := notifyAll_frame (wordsOf key n) { s with
    disp := { s.disp with launches := ls }
    mem := { s.mem with
      l1 := s.mem.l1.writeN key n v
      poison := s.mem.poison.filter (fun w =>
        !((wordsOf key n).filter (fun w => decide (key ≤ w) && decide (w + 8 ≤ key + n))).contains w) } }
  exact ⟨ls, bs, _, g⟩

/-- A full/empty bit at a bank: the bit, the undo log of the launch and the retry lists of the banks; nothing else. -/
theorem l1SetFull_frame (launch key : Nat) (full : Bool) (s : State) : ∃ ls bs, l1SetFull launch key full s =
    { s with disp := { s.disp with launches := ls }, banks := bs, mem := (setFull key full s).mem } := by
  obtain ⟨ls, h⟩ := logUndo_frame launch
    { isLocal := true, cluster := key / 2 ^ 28, line := (areaOff s (key / 128 * 128)).2, tag := (areaOff s (key / 128 * 128)).1
      fe := feBits s (key / 128 * 128) 16, old := s.mem.l1.line (key / 128 * 128) } s
  unfold l1SetFull logLocal
  dsimp only
  rw [h]
  obtain ⟨bs, g⟩ := notifyWord_frame key (setFull key full { s with disp := { s.disp with launches := ls } })
  exact ⟨ls, bs, g⟩

/-- A write at a bank gives the bytes written and leaves every other byte. -/
theorem l1Write_read (launch key n v : Nat) {s : State} (h : s.mem.l1.wf = true) :
    (l1Write launch key n v s).mem.l1.wf = true ∧ (l1Write launch key n v s).mem.l1.readN key n = v % 256 ^ n ∧
    ∀ a, a < key ∨ key + n ≤ a → (l1Write launch key n v s).mem.l1.read a = s.mem.l1.read a := by
  obtain ⟨ls, bs, ps, e⟩ := l1Write_frame launch key n v s
  rw [e]
  exact ⟨Memory.wf_writeN h _ _ _, Memory.readN_writeN_same h _ _ _, fun a g => Memory.read_writeN_other h _ _ _ _ g⟩

/-! ### Parking at a bank -/

/-- Parking changes the context's run and a wait list of the bank or the tables of its tile; nothing else. -/
theorem bankPark_frame (op : ParkOp) (key : Nat) (p : Word64) (s : State) : ∃ bs ts, bankPark op key p s =
    { s with cur := { s.cur with run := .parked (.bank key) }, banks := bs, tiles := ts } := by
  unfold bankPark parkOnBank
  dsimp only
  split
  · exact ⟨_, _, rfl⟩
  · split <;> exact ⟨_, _, rfl⟩

end Sys2Proof.Machine
end

