-- ==== Sys2Proof/Laws/Issue.lean ====
section
/-!
SUPPORT. What a step does around an instruction's meaning: one lemma for each operation that says everything it can
change.
-/

namespace Sys2Proof.Machine

open Sys2Proof

/-- Putting a context back changes contexts only. -/
theorem putCtx_frame (c : Ctx) (s : State) : ∃ x os, putCtx c s = { s with cur := x, others := os } := by
  unfold putCtx
  split <;> exact ⟨_, _, rfl⟩

/-- Making another context the issuing one changes contexts only. -/
theorem switchTo_frame (id : Nat) (s : State) : ∃ x os, switchTo id s = { s with cur := x, others := os } := by
  unfold switchTo
  split <;> exact ⟨_, _, rfl⟩

/-- A line leaves a cluster: its lines and the presence of its host line change. -/
theorem dropLine_frame (c asid va : Nat) (s : State) : ∃ cs hs, dropLine c asid va s = { s with clusters := cs, homes := hs } := by
  unfold dropLine leavePresence
  dsimp only
  split
  · exact ⟨_, _, rfl⟩
  · split <;> exact ⟨_, _, rfl⟩

/-- Clean lines leave a cluster with nothing written back. -/
theorem exportAll_clean_frame (c : Nat) (ls : List Line) :
    ∀ s : State, (∀ l ∈ ls, l.mask = 0) → ∃ cs hs, exportAll c ls s = { s with clusters := cs, homes := hs } := by
  induction ls with
  | nil => exact fun _ _ => ⟨_, _, rfl⟩
  | cons l ls ih =>
    intro s h
    have w : writebackLine c l s = s := by
      unfold writebackLine
      rw [h l List.mem_cons_self]
      rfl
    obtain ⟨cs, hs, e⟩ := dropLine_frame c l.asid l.va s
    obtain ⟨cs', hs', e'⟩ := ih { s with clusters := cs, homes := hs } (fun x hx => h x (List.mem_cons_of_mem l hx))
    exact ⟨cs', hs', by rw [exportAll, w, e, e']⟩

theorem evictClean_frame (c : Nat) (f : Line → Bool) (s : State) :
    ∃ cs hs, evictClean c f s = { s with clusters := cs, homes := hs } := by
  obtain ⟨cs, hs, e⟩ := exportAll_clean_frame c ((clusterAt s c).lines.filter (fun l => f l && l.mask == 0)) s (by
    intro l hl
    have := List.of_mem_filter hl
    simp_all)
  unfold evictClean
  rw [e]
  exact ⟨_, _, rfl⟩

/-- An acquire evicts clean copies of its cluster and gives its context drains to wait for; nothing else changes. -/
theorem acquired_frame (id : Nat) (s : State) :
    ∃ x os cs hs, acquired id s = { s with cur := x, others := os, clusters := cs, homes := hs } := by
  obtain ⟨cs, hs, e⟩ := evictClean_frame (clusterOf id)
    (fun l => l.present && !tagValid (clusterAt s (clusterOf id)).v l.v (newestFloor s (clusterOf id) (ctxOf s id).floor)) s
  unfold acquired
  dsimp only
  rw [e]
  obtain ⟨x, os, h⟩ := putCtx_frame { ctxOf { s with clusters := cs, homes := hs } id with
    handoff := owedIn s (clusterOf id) (ctxOf s id).handoff } { s with clusters := cs, homes := hs }
  exact ⟨x, os, cs, hs, h⟩

/-- It leaves the context's registers, its PC and its state registers. -/
theorem acquired_arch (s : State) : (acquired s.cur.id s).cur.a = s.cur.a ∧ (acquired s.cur.id s).cur.run = s.cur.run := by
  obtain ⟨cs, hs, e⟩ := evictClean_frame (clusterOf s.cur.id)
    (fun l => l.present && !tagValid (clusterAt s (clusterOf s.cur.id)).v l.v
      (newestFloor s (clusterOf s.cur.id) (ctxOf s s.cur.id).floor)) s
  unfold acquired
  dsimp only
  rw [e]
  simp [putCtx, ctxOf]

/-- Storing the data of a line changes bytes of L1 only. -/
theorem setData_frame (c : Nat) (l : Line) (x : BitVec 1024) (s : State) :
    ∃ m, setData c l x s = { s with mem := { s.mem with l1 := m } } ∧ (s.mem.l1.wf = true → m.wf = true) :=
  ⟨_, rfl, fun h => Memory.wf_writeN h _ _ _⟩

/-- The pointers of a bank move past the port and the source served; nothing else changes. -/
theorem servedAt_frame (bank port source : Nat) (s : State) : ∃ bs, servedAt bank port source s = { s with banks := bs } := ⟨_, rfl⟩

theorem servedAt_ptr (bank port source : Nat) (s : State) : (bankAt (servedAt bank port source s) bank).ptr = (port + 1) % 9 := by
  let b : Bank := { bankAt s bank with
    ptr := (port + 1) % 9, src := if port = 8 then (source + 1) % 16 else (bankAt s bank).src }
  have e : bank = b.id := (bankAt_id s bank).symm
  exact (congrArg (fun k => (bankAt (putBank b s) k).ptr) e).trans (congrArg Bank.ptr (bankAt_putBank_same b s))

/-- Reserving cycles changes banks only. -/
theorem reserve_frame (key due : Nat) (h : Hold) (s : State) : ∃ bs, reserve key due h s = { s with banks := bs } := ⟨_, rfl⟩

theorem reserveWords_frame (hold : Nat → Hold) (now : Nat) (ks : List Nat) :
    ∀ (i : Nat) (s : State), ∃ bs, reserveWords hold now i ks s = { s with banks := bs } := by
  induction ks with
  | nil => exact fun _ _ => ⟨_, rfl⟩
  | cons k ks ih =>
    intro i s
    obtain ⟨bs, h⟩ := ih (i + 1) (reserve k (now + i) (hold i) s)
    exact ⟨bs, h⟩

/-- The odd half of a pair changes banks only. -/
theorem reserveOdd_frame (x : Access) (now : Nat) (s : State) : ∃ bs, reserveOdd x now s = { s with banks := bs } := by
  unfold reserveOdd
  split <;> exact ⟨_, rfl⟩

/-- A bank served for a unit moves its pointers and the unit's turn, nothing else. -/
theorem takeBank_frame (key core unit : Nat) (s : State) : ∃ bs, takeBank key core unit s = { s with banks := bs } := ⟨_, rfl⟩

/-- What a step notes of an access at its banks changes banks and contexts only. -/
theorem afterAccess_frame (w : Word32) (x : Option Access) (s t : State) :
    ∃ y os bs, afterAccess w x s t = { t with cur := y, others := os, banks := bs } := by
  unfold afterAccess
  split
  · exact ⟨_, _, _, rfl⟩
  · rename_i x
    split
    · exact ⟨_, _, _, rfl⟩
    · dsimp only
      obtain ⟨bs, e⟩ := takeBank_frame (x.keys.headD 0) (coreOf s.cur.id) 0 t
      rw [e]
      split
      · have b : ∃ y os, burstOf w x s { t with banks := bs } = { t with cur := y, others := os, banks := bs } := by
          unfold burstOf
          dsimp only
          split
          · exact putCtx_frame _ _
          · exact ⟨_, _, rfl⟩
        obtain ⟨y, os, b⟩ := b
        rw [b]
        obtain ⟨bs', r⟩ := reserveWords_frame (fun i => .word [(s.cur.id, dOf w + BitVec.ofNat 5 i)])
          (bankCyc s (bankOf s (x.keys.headD 0))) x.keys.tail 1 { t with cur := y, others := os, banks := bs }
        rw [r]
        exact ⟨_, _, _, rfl⟩
      · obtain ⟨bs', r⟩ := reserveOdd_frame x (bankCyc s (bankOf s (x.keys.headD 0))) { t with banks := bs }
        rw [r]
        exact ⟨_, _, _, rfl⟩

/-- The divider changes cores only. -/
theorem takeDivider_frame (m : Member) (w : Word32) (s t : State) : ∃ ks, takeDivider m w s t = { t with cores := ks } := by
  unfold takeDivider
  split <;> exact ⟨_, rfl⟩

/-- What a step notes of an issue that is over: contexts, the divider, and what an acquire evicts. -/
theorem afterIssue_frame (late : Bool) (w : Word32) (s t : State) : ∃ x os cs hs ks,
    afterIssue late w s t = { t with cur := x, others := os, clusters := cs, homes := hs, cores := ks } := by
  have put : ∀ c : Ctx, ∃ x os cs hs, putCtx c t = { t with cur := x, others := os, clusters := cs, homes := hs } := by
    intro c
    obtain ⟨x, os, h⟩ := putCtx_frame c t
    exact ⟨x, os, _, _, h⟩
  have both : ∀ c : Ctx, ∃ x os cs hs, acquired s.cur.id (putCtx c t) = { t with cur := x, others := os, clusters := cs, homes := hs } := by
    intro c
    obtain ⟨x, os, h⟩ := putCtx_frame c t
    rw [h]
    obtain ⟨x', os', cs, hs, e⟩ := acquired_frame s.cur.id { t with cur := x, others := os }
    exact ⟨x', os', cs, hs, e⟩
  have div : ∀ (m : Member) (u : State), (∃ x os cs hs, u = { t with cur := x, others := os, clusters := cs, homes := hs }) →
      ∃ x os cs hs ks, takeDivider m w s u = { t with cur := x, others := os, clusters := cs, homes := hs, cores := ks } := by
    rintro m _ ⟨x, os, cs, hs, rfl⟩
    obtain ⟨ks, d⟩ := takeDivider_frame m w s { t with cur := x, others := os, clusters := cs, homes := hs }
    exact ⟨x, os, cs, hs, ks, d⟩
  unfold afterIssue
  dsimp only
  split
  · split
    · exact div _ _ (both _)
    · exact div _ _ (put _)
  · obtain ⟨x, os, cs, hs, e⟩ := put { leaveBlock (myModule s).rev w s.cur.a.pc (ctxOf t s.cur.id) with
      busyUntil := cyc s s.cur.id + Config.latency s.steps
      posted := (leaveBlock (myModule s).rev w s.cur.a.pc (ctxOf t s.cur.id)).posted ++ [] }
    exact ⟨x, os, cs, hs, _, e⟩

/-- Entering a block changes the issuing context, the blocks' times of use in its cluster and its tile's fetch requests. -/
theorem enterBlock_frame (s : State) : ∃ x cs ts, enterBlock s = { s with cur := x, clusters := cs, tiles := ts } ∧ x.a = s.cur.a ∧
    x.id = s.cur.id ∧ x.bind = s.cur.bind ∧ x.handles = s.cur.handles ∧ x.run = s.cur.run := by
  unfold enterBlock
  split
  · exact ⟨_, _, _, rfl, rfl, rfl, rfl, rfl, rfl⟩
  · dsimp only
    split <;> exact ⟨_, _, _, rfl, rfl, rfl, rfl, rfl, rfl⟩

/-- What a step notes before it runs a word: the state in which the meaning runs has the same registers, memory, homes,
launches and clocks. -/
theorem noteIssue_frame (w : Word32) (s : State) : ∃ x os ks cs ts,
    noteIssue w s = { s with cur := x, others := os, cores := ks, clusters := cs, tiles := ts } ∧ x.a = s.cur.a ∧ x.id = s.cur.id ∧
    x.bind = s.cur.bind ∧ x.handles = s.cur.handles ∧ x.run = .running := by
  obtain ⟨x, cs, ts, h, ha, hi, hb, hh, hr⟩ := enterBlock_frame s
  unfold noteIssue prunePosts
  dsimp only
  rw [h]
  exact ⟨_, _, _, _, _, rfl, ha, hi, hb, hh, rfl⟩

end Sys2Proof.Machine
end

