-- ==== Sys2Proof/Tests/Slice0.lean ====
section
/-!
SUPPORT. Tests: ill-formed terms, words of the spec, single steps on the spec's worked examples, and for each
statement with hypotheses a concrete state and operands that meet them, clause by clause.
-/

namespace Sys2Proof.Tests

open Sys2Proof Sys2Proof.Machine Sys2Proof.Claims

/-! ### Well-formedness: one ill-formed term for each check -/

/-- pos + len is at most 64 (R100); a burst ends at g31 (R151); format 15 is reserved (R55). -/
theorem test_wf_fields :
    (Instr.bfx 5 6 60 5).wf = false ∧ (Instr.bfxn 5 6 63 1).wf = false ∧ (Instr.bfi 5 6 1 63).wf = false ∧
    (Instr.ldb 25 6 7 0).wf = false ∧ (Instr.stb 31 6 1 0).wf = false ∧
    (Instr.ld 5 6 15 0).wf = false ∧ (Instr.ldacq 5 6 15 0).wf = false ∧ (Instr.st 5 6 15 0).wf = false ∧
    (Instr.strel 5 6 15 0).wf = false ∧ (Instr.chld 5 0 15 0).wf = false ∧ (Instr.chst 5 0 15 0).wf = false := by decide

/-- Lane width 11 is reserved (R115, R118, R120), and some members have fewer widths. -/
theorem test_wf_widths :
    ([Instr.padd 5 6 7 3, .psub 5 6 7 3, .padds 5 6 7 3, .psubs 5 6 7 3, .paddns 5 6 7 3, .psubns 5 6 7 3, .pavg 5 6 7 3,
      .pmin 5 6 7 3, .pmax 5 6 7 3, .pminn 5 6 7 3, .pmaxn 5 6 7 3, .pabs 5 6 3, .pneg 5 6 3, .pcmpeq 5 6 7 3,
      .pcmplt 5 6 7 3, .pcmpltn 5 6 7 3, .psllv 5 6 7 3, .psrlv 5 6 7 3, .psrav 5 6 7 3, .psum 5 6 3, .psumn 5 6 3,
      .pmul 5 6 7 3, .pmulh 5 6 7 3, .pmulhn 5 6 7 3, .pmulq 5 6 7 0, .pmulq 5 6 7 3, .pdot 5 6 7 2, .pdot 5 6 7 3,
      .pdotn 5 6 7 2, .pdotn 5 6 7 3, .ppacks 5 6 7 0, .ppackns 5 6 7 0, .ppack 5 6 7 3, .punpkl 5 6 0, .punpkh 5 6 3,
      .punpkln 5 6 0, .punpkhn 5 6 0].all (fun i => !i.wf)) = true := by decide

/-- A shift amount is below the width, and a lane index below the count of lanes (R120, R121). -/
theorem test_wf_amounts :
    ([Instr.pslli 5 6 0 8, .psrli 5 6 1 16, .psrai 5 6 0 31, .psrari 5 6 3 0, .pbcast 5 6 2 2, .pins 5 6 1 4,
      .pext 5 6 0 8].all (fun i => !i.wf)) = true := by decide

/-- Rounding fields 4 to 6 are ruled out (R126, R137); M code 3 and no slices at all are (R175). -/
theorem test_wf_rounding_and_shapes :
    ([Instr.fadd 5 6 7 4, .fsub 5 6 7 5, .fmul 5 6 7 6, .fdiv 5 6 7 4, .fsqrt 5 6 4, .frnd 5 6 5, .fcvtF32I32 5 6 4,
      .fcvtF32N32 5 6 4, .fcvtF32I64 5 6 4, .fcvtF32N64 5 6 4, .fcvtF32Q15 5 6 4, .fcvtF32Q31 5 6 4, .fcvtI32F32 5 6 6,
      .fcvtN32F32 5 6 6, .fcvtI64F32 5 6 6, .fcvtN64F32 5 6 6, .fcvtQ15F32 5 6 6, .fcvtQ31F32 5 6 6, .fcvtBf16F32 5 6 5,
      .fcvtF32Bf16 5 6 5, .mmaI8 6 7 3 1 0 0 0, .mmaI16 6 7 0 0 0 0 0, .mmaCq15 6 7 3 1 0 0 0, .mmaDp8 6 7 0 0 0 0 0].all
      (fun i => !i.wf)) = true := by decide

/-! ### Decoding: words that the spec writes out, at least one of each family -/

/-- INT, INT4, immediates, SHI, BF, PTR and control transfers (R92, R96, R98-R100, R104, R106, R108-R110). -/
theorem test_decode_scalar :
    decodeAt 3 0x04A63824#32 = .ok (.div 5 6 7) ∧ decodeAt 3 0x08A63A01#32 = .ok (.madd 5 6 7 8) ∧
    decodeAt 3 0x0CA6FFFC#32 = .ok (.addi 5 6 0xFFFC) ∧ decodeAt 3 0x24A01234#32 = .ok (.lui 5 0x1234) ∧
    decodeAt 3 0x28A62004#32 = .ok (.srai 5 6 4) ∧ decodeAt 3 0x2CA60203#32 = .ok (.bfx 5 6 8 3) ∧
    decodeAt 3 0x34A60008#32 = .ok (.addpi 5 6 8) ∧ decodeAt 3 0x40A60002#32 = .ok (.beq 5 6 2) ∧
    decodeAt 3 0x58C0FFFF#32 = .ok (.loop 6 0xFFFF) ∧ decodeAt 3 0x5FFFFFFC#32 = .ok (.jmp 0x3FFFFFC) ∧
    decodeAt 3 0x60000010#32 = .ok (.call 16) ∧ decodeAt 3 0x64010000#32 = .ok (.jr 1) ∧
    decodeAt 3 0x64070001#32 = .ok (.callr 7) := ⟨rfl, rfl, rfl, rfl, rfl, rfl, rfl, rfl, rfl, rfl, rfl, rfl, rfl⟩

/-- PKA, PKM, PKX, CPLX, FP, FMA and FPK (R117, R119, R122, R124, R125, R127, R130, R132, R134, R136). -/
theorem test_decode_lanes :
    decodeAt 3 0xA4A63A02#32 = .ok (.padds 5 6 7 1) ∧ decodeAt 3 0xA8A63804#32 = .ok (.pdot 5 6 7 0) ∧
    decodeAt 3 0xACA60264#32 = .ok (.psrari 5 6 1 4) ∧ decodeAt 3 0xB0A63804#32 = .ok (.cmul 5 6 7) ∧
    decodeAt 3 0xB0A6380B#32 = .ok (.cbfly 5 6 7) ∧ decodeAt 3 0xB4A63F00#32 = .ok (.fadd 5 6 7 7) ∧
    decodeAt 3 0xB4A63900#32 = .ok (.fadd 5 6 7 1) ∧ decodeAt 3 0xB8A63A00#32 = .ok (.fma 5 6 7 8) ∧
    decodeAt 3 0xBCA63800#32 = .ok (.pfadd 5 6 7) ∧ decodeAt 3 0xBCA60008#32 = .ok (.ptop2 5 6) :=
  ⟨rfl, rfl, rfl, rfl, rfl, rfl, rfl, rfl, rfl, rfl⟩

/-- LD and ST, PAIR, BURST, FE, AMO, CAS and SYNC (R149-R163). -/
theorem test_decode_memory :
    decodeAt 3 0x81063003#32 = .ok (.ld 8 6 3 3) ∧ decodeAt 3 0x80E66402#32 = .ok (.ldacq 7 6 6 2) ∧
    decodeAt 3 0x84E66002#32 = .ok (.st 7 6 6 2) ∧ decodeAt 3 0x84E66802#32 = .ok (.strel 7 6 6 2) ∧
    decodeAt 3 0x88C80002#32 = .ok (.ldp 3 8 2) ∧ decodeAt 3 0x88C88002#32 = .ok (.stp 3 8 2) ∧
    decodeAt 3 0x8D063000#32 = .ok (.ldb 8 6 3 0) ∧ decodeAt 3 0x8D06B000#32 = .ok (.stb 8 6 3 0) ∧
    decodeAt 3 0x90A61001#32 = .ok (.ldc 5 6 1) ∧ decodeAt 3 0x90A62001#32 = .ok (.stf 5 6 1) ∧
    decodeAt 3 0x94A63850#32 = .ok (.amoadd 5 6 7 2 1) ∧ decodeAt 3 0x94A63C60#32 = .ok (.amoswp 5 6 7 3 0) ∧
    decodeAt 3 0x98864061#32 = .ok (.cas2 2 6 4 3) ∧ decodeAt 3 0x9C063804#32 = .ok (.cinv 6 7) ∧
    decodeAt 3 0x9CA63806#32 = .ok (.monw 5 6 7) :=
  ⟨rfl, rfl, rfl, rfl, rfl, rfl, rfl, rfl, rfl, rfl, rfl, rfl, rfl, rfl, rfl⟩

/-- MMA, MCTL, CPY, KNOT, BAR, TASK, SYS and HINT (R64, R178-R207). -/
theorem test_decode_system :
    decodeAt 3 0xC4C78421#32 = .ok (.mmaI8 6 7 2 4 8 0 1) ∧ decodeAt 3 0xCCC70101#32 = .ok (.mmaCq15 6 7 0 1 0 0 1) ∧
    decodeAt 3 0xD4063803#32 = .ok (.mstride 6 7) ∧ decodeAt 3 0xD8A63805#32 = .ok (.cpych 5 6 7) ∧
    decodeAt 3 0xDDA60003#32 = .ok (.kwait 13 6 0) ∧ decodeAt 3 0xE0A63802#32 = .ok (.barwt 5 6 7) ∧
    decodeAt 3 0xE4A63806#32 = .ok (.launch 5 6 7) ∧ decodeAt 3 0xE8001001#32 = .ok (.brk 1) ∧
    decodeAt 3 0xE8065040#32 = .ok (.swr 6 0x040) ∧ decodeAt 3 0xFD800004#32 = .ok (.prio 4) ∧
    decodeAt 3 0xFE000001#32 = .ok (.stream 1) ∧ decodeAt 3 0x00000000#32 = .ok (.illegal 0) :=
  ⟨rfl, rfl, rfl, rfl, rfl, rfl, rfl, rfl, rfl, rfl, rfl, rfl⟩

/-- Words that are no instruction are rejected by name (R59, R60, R63): JOIN with d nonzero, major 0x0E, a BFX field
that ends beyond bit 63, MONW in a module of revision 2. -/
theorem test_decode_rejects :
    decodeAt 3 0xE4A60003#32 = .error .unusedField ∧ decodeAt 3 0x38000000#32 = .error .reservedMajor ∧
    decodeAt 3 0x2CA60F05#32 = .error .forbiddenValue ∧ decodeAt 2 0x9CA63806#32 = .error .aboveRevision :=
  ⟨rfl, rfl, rfl, rfl⟩

/-! ### Single steps: worked examples of the spec -/

/-- An object of 4,096 bytes in a space, with every permission. -/
def obj (space : Nat) : HandleEntry :=
  { length := 4096, valid := true, e := true, x := true, w := true, r := true, space := space }

/-- A context at PC 64 of a module of 4,096 code bytes, with handles 4 (LOCAL), 5 (GLOBAL) and 6 (IO); frame 0 of
cluster 0 holds page 0 of the launch's area. -/
def base : State :=
  { cur := { run := .running, handles := [(4, obj 0), (5, obj 1), (6, obj 2)], a := { pc := 64 } }
    clusters := [{ id := 0, frames := 256, pageMap := [(0, nat64 (2 ^ 63))] }]
    disp := { modules := [{ id := 0, codeSize := 4096, barriers := [2] }], launches := [{ id := 0, ranks := [{}] }] } }

/-- A state after the boot (R405). -/
def booted (s : State) : State := { s with plat := { s.plat with stage := 10 } }

/-- Operands in g6, g7 and g8, and 0 or another value in g5. -/
def regs (x y : Word64) (z : Word64 := 0) (d : Word64 := 0) : State := wr 5 d (wr 6 x (wr 7 y (wr 8 z base)))

/-- What a step leaves in a register and in AFL. -/
def gives (o : Out) (r : Reg) : Option (Word64 × Word64) := match o with
  | .next t => some (rd t r, t.cur.a.sr.afl)
  | _ => none

/-- The examples of R92 and R96: -7 / 2, the overflow of DIVW, a divisor of zero, and MADD. -/
theorem test_divides_and_madd :
    gives (exec (.div 5 6 7) (regs (-7) 2)) 5 = some (0xFFFFFFFFFFFFFFFD, 0) ∧
    gives (exec (.divw 5 6 7) (regs 0xFFFFFFFF80000000 (-1))) 5 = some (0xFFFFFFFF80000000, 1) ∧
    gives (exec (.remw 5 6 7) (regs 7 0)) 5 = some (7, 4) ∧
    gives (exec (.funnel 5 6 7 8) (regs 1 0x8000000000000000 4)) 5 = some (0x1800000000000000, 0) := by decide

/-- The examples of R90, R95, R98 and R100. -/
theorem test_shifts_and_fields :
    gives (exec (.sra 5 6 7) (regs 0x8000000000000000 60)) 5 = some (0xFFFFFFFFFFFFFFF8, 0) ∧
    gives (exec (.ror 5 6 7) (regs 1 1)) 5 = some (0x8000000000000000, 0) ∧
    gives (exec (.srlw 5 6 7) (regs 0xFFFFFFFF80000000 31)) 5 = some (1, 0) ∧
    gives (exec (.sltni 5 6 0xFFFF) (regs 5 0)) 5 = some (1, 0) ∧
    gives (exec (.bfi 5 6 8 3) (regs 0xA 0 0 0x1234)) 5 = some (0x1A34, 0) := by decide

/-- The examples of R117, R119 and R121 at the operands of R117. -/
theorem test_packed :
    let s := regs 0x7FFF80000005FFFE 0x0001FFFF00030004
    gives (exec (.padds 5 6 7 1) s) 5 = some (0x7FFF800000080002, 1) ∧
    gives (exec (.psubns 5 6 7 1) s) 5 = some (0x7FFE00000002FFFA, 1) ∧
    gives (exec (.pmulq 5 6 7 1) s) 5 = some (0x0001000100000000, 0) ∧
    gives (exec (.pdotn 5 6 7 1) s) 5 = some (0x0000000080040006, 0) ∧
    gives (exec (.ppackns 5 6 7 1) s) 5 = some (0x01000304FF000500, 1) ∧
    gives (exec (.punpkh 5 6 1) s) 5 = some (0x007FFFFFFF800000, 0) := by decide

/-- The examples of R124 and R125. -/
theorem test_complex :
    gives (exec (.cmul 5 6 7) (regs 0x8000800040004000 0x80008000C0004000)) 5 = some (0x7FFF000000004000, 1) ∧
    gives (exec (.cnorm 5 6) (regs 0x0000800040004000 0)) 5 = some (0x7FFFFFFF40000000, 1) ∧
    gives (exec (.cbfly 5 6 7) (regs 0x0000200000004000 0x80000000)) 5 = some (0x10002000F0002000, 0) := by decide

/-- The examples of R128-R130. -/
theorem test_float :
    gives (exec (.fmin 5 6 7) (regs 0 0x80000000)) 5 = some (0x80000000, 0) ∧
    gives (exec (.fcmple 5 6 7) (regs 0xFF800000 0xFF800000)) 5 = some (1, 0) ∧
    gives (exec (.fcmplt 5 6 7) (regs 0x7FC00000 0)) 5 = some (0, 2) ∧
    gives (exec (.fclass 5 6) (regs 0xBF800000 0)) 5 = some (0x7FA, 0) := by decide

/-- A counter of 3 branches back at 64 with a target 4 before it, and 1 falls through (R108); CALL (R109). -/
theorem test_transfers :
    (match exec (.loop 6 0xFFFF) (regs 3 0) with | .next t => some (t.cur.a.pc, rd t 6) | _ => none) = some (60, 2) ∧
    (match exec (.loop 6 0xFFFF) (regs 1 0) with | .next t => some (t.cur.a.pc, rd t 6) | _ => none) = some (68, 0) ∧
    (match exec (.call 16) (regs 0 0) with | .next t => some (t.cur.a.pc, rd t 1) | _ => none) = some (128, 68) := by
  decide

/-- L1 with a word at offset 8 of handle 4, and the pointer to it in g6. -/
def withWord (v : Nat) (y : Word64) (d : Word64 := 0) : State :=
  let s := regs (mkPtr 4 8) y 0 d
  { s with mem := { s.mem with l1 := s.mem.l1.writeN 8 8 v } }

/-- What a step leaves in g5 and in the word. -/
def result (o : Out) : Option (Word64 × Nat) := match o with
  | .next t => some (rd t 5, t.mem.l1.readN 8 8)
  | _ => none

/-- The examples of R155, R157, R149 and R153. -/
theorem test_memory :
    result (exec (.amoadd 5 6 7 0 0) (withWord 5 (-3))) = some (5, 2) ∧
    result (exec (.amomaxn 5 6 7 0 0) (withWord 5 (-3))) = some (5, 0xFFFFFFFFFFFFFFFD) ∧
    result (exec (.cas 5 6 7 0 0) (withWord 9 4 9)) = some (9, 4) ∧
    result (exec (.cas 5 6 7 1 1) (withWord 3 1 7)) = some (3, 3) ∧
    result (exec (.ld 5 6 3 1) (withWord 0x90000000 0)) = some (0xFFFFFFFFFFFF9000, 0x90000000) ∧
    result (exec (.ldc 5 6 0) (withWord 7 0)) = some (7, 7) := by decide

/-- KARR with contribution 5 at a knot that expects 4 and holds 1: one flip, and 2 remain (R190). -/
theorem test_knot :
    result (exec (.karr 6 7) { regs (mkPtr 4 16) 5 with mem := { l1 := Memory.writeN [] 16 8 (2 ^ 32 + 4) } }) =
      some (0, 0) ∧
    (match exec (.karr 6 7) { regs (mkPtr 4 16) 5 with mem := { l1 := Memory.writeN [] 16 8 (2 ^ 32 + 4) } } with
      | .next t => some (t.mem.l1.readN 16 8)
      | _ => none) = some (2 ^ 63 + 2 * 2 ^ 32 + 4) := by decide

/-- The example of R202: TRAP 5 at 0x120 with TVEC = 0x400. -/
theorem test_trap :
    (match exec (.trap 5) { base with cur := { base.cur with a := { base.cur.a with
        pc := 0x120, sr := { base.cur.a.sr with tvec := 0x400 } } } } with
      | .next t => some (t.cur.a.pc, t.cur.a.sr.tpc, t.cur.a.sr.tcause, t.cur.a.sr.tval, t.cur.a.handler)
      | _ => none) = some (0x400, 0x120, 0x0C, 5, true) := by decide

/-! ### The hypotheses of the statements are met, clause by clause -/

/-- Pointers to LOCAL, GLOBAL and IO. -/
abbrev loc (o : Nat) : Word64 := mkPtr 4 o
abbrev glo (o : Nat) : Word64 := mkPtr 5 o
abbrev dev (o : Nat) : Word64 := mkPtr 6 o

/-- `s` with IMMX payloads in the group, with another PC, with other state registers. -/
def widened (p : List (BitVec 23)) (s : State) : State := { s with cur := { s.cur with a := { s.cur.a with immx := p } } }
def atPc (v : Word64) (s : State) : State := { s with cur := { s.cur with a := { s.cur.a with pc := v } } }

theorem test_hyps_EncodeThenDecode : (Instr.mmaDp8 31 31 2 63 63 1 1).isWord = true ∧ (Instr.mmaDp8 31 31 2 63 63 1 1).wf = true ∧
    (Instr.bfi 31 31 0 63).isWord = true ∧ (Instr.bfi 31 31 0 63).wf = true := by decide

theorem test_hyps_DecodeThenEncode : decodeAt 3 0xFFFFFFFF#32 = .ok (.noph 0x7FFFFF) := rfl

theorem test_hyps_RevisionStubs : 2 < (Instr.monw 5 6 7).revision ∧ (Instr.monw 5 6 7).isWord = true ∧
    (Instr.monw 5 6 7).wf = true ∧ 1 < (Instr.ld 5 6 7 0).revision ∧ (Instr.align 0x7FFFFF).wf = true := by decide

theorem test_hyps_MultipliesAndDivides :
    xn (regs 7 0) 7 = 0 ∧ (xs (regs (nat64 (2 ^ 63)) (-1)) 6 = -2 ^ 63 ∧ xs (regs (nat64 (2 ^ 63)) (-1)) 7 = -1) ∧
    (xn (regs 7 (-1)) 7 ≠ 0 ∧ ¬(xs (regs 7 (-1)) 6 = -2 ^ 63 ∧ xs (regs 7 (-1)) 7 = -1)) ∧
    wn (regs 7 (nat64 (2 ^ 32))) 7 = 0 ∧
    (ws (regs (nat64 (2 ^ 31)) (-1)) 6 = -2 ^ 31 ∧ ws (regs (nat64 (2 ^ 31)) (-1)) 7 = -1) ∧
    (wn (regs 7 2) 7 ≠ 0 ∧ ¬(ws (regs 7 2) 6 = -2 ^ 31 ∧ ws (regs 7 2) 7 = -1)) := by unfold xn xs wn ws; decide

theorem test_hyps_Immediates :
    (base.cur.a.immx = [] ∧ (-32768 : Int) = (0x8000#16).toInt ∧ (32768 : Int) = (0x8000#16).toNat) ∧
    ((widened [0x7FFFFF] base).cur.a.immx = [0x7FFFFF] ∧ (-1 : Int) = (0x7FFFFF#23 ++ 0xFFFF#16).toInt) ∧
    ((widened [1, 0] base).cur.a.immx = [1, 0] ∧ (2 ^ 39 : Int) = (1#23 ++ 0#23 ++ 0#16).toInt) := by decide

theorem test_hyps_ShiftsAndFields : (0 : BitVec 6).toNat + ((63 : BitVec 6).toNat + 1) ≤ 64 ∧
    (63 : BitVec 6).toNat + ((0 : BitVec 6).toNat + 1) ≤ 64 := by decide

theorem test_hyps_Pointers :
    (xn (regs 1023 (nat64 (2 ^ 54 - 1))) 6 < 1024 ∧ xn (regs 1023 (nat64 (2 ^ 54 - 1))) 7 < 2 ^ 54) ∧
    1024 ≤ xn (regs 1024 0) 6 ∧ (xn (regs 1023 (nat64 (2 ^ 54))) 6 < 1024 ∧ 2 ^ 54 ≤ xn (regs 1023 (nat64 (2 ^ 54))) 7) ∧
    (0 ≤ (xn (regs (loc 0) 0) 6 % 2 ^ 54 : Nat) + xs (regs (loc 0) 0) 7 ∧
      (xn (regs (loc 0) (nat64 (2 ^ 54 - 1))) 6 % 2 ^ 54 : Nat) + xs (regs (loc 0) (nat64 (2 ^ 54 - 1))) 7 < 2 ^ 54) ∧
    (xn (regs (loc 0) (-1)) 6 % 2 ^ 54 : Nat) + xs (regs (loc 0) (-1)) 7 < 0 ∧
    2 ^ 54 ≤ (xn (regs (loc 1) (nat64 (2 ^ 54 - 1))) 6 % 2 ^ 54 : Nat) + xs (regs (loc 1) (nat64 (2 ^ 54 - 1))) 7 ∧
    xn (regs (loc 8) (loc 0)) 6 / 2 ^ 54 = xn (regs (loc 8) (loc 0)) 7 / 2 ^ 54 ∧
    xn (regs (loc 8) (glo 8)) 6 / 2 ^ 54 ≠ xn (regs (loc 8) (glo 8)) 7 / 2 ^ 54 ∧
    ((entryIn base.cur.handles 4).valid = true ∧ xn (regs (loc 4096) 0) 6 % 2 ^ 54 ≤ (entryIn base.cur.handles 4).length) ∧
    (entryIn base.cur.handles 4).length < xn (regs (loc 4097) 0) 6 % 2 ^ 54 ∧
    (entryIn base.cur.handles 1023).valid = false := by unfold xn xs; decide

theorem test_hyps_Transfers_branches :
    (¬xn (regs 5 6) 6 = xn (regs 5 6) 7) ∧
    (xn (regs 5 5) 6 = xn (regs 5 5) 7 ∧ inCode base (direct base 1007) ∧ inCode base (direct base (-16))) ∧
    ¬inCode base (direct base 1008) ∧ ¬inCode base (direct base (-17)) := by unfold xn inCode direct; decide

theorem test_hyps_Transfers_loops : wrap64 (xs (regs 1 0) 6 - 1) = 0 ∧
    (wrap64 (xs (regs 0 0) 6 - 1) ≠ 0 ∧ inCode base (direct base (immS base 16 0xFFF0))) ∧
    (wrap64 (xs (regs 2 0) 6 - 1) ≠ 0 ∧ ¬inCode base (direct base (immS base 16 0xFFEF))) := by
  unfold xs inCode direct; decide

theorem test_hyps_Transfers_jumps : inCode base (direct base (immS base 26 1007)) ∧ ¬inCode base (direct base (immS base 26 1008)) ∧
    (xn (regs 4092 0) 6 < (myModule base).codeSize ∧ xn (regs 4092 0) 6 % 4 = 0) ∧ (myModule base).codeSize ≤ xn (regs 4096 0) 6 ∧
    (xn (regs 4094 0) 6 < (myModule base).codeSize ∧ xn (regs 4094 0) 6 % 4 ≠ 0) := by unfold xn inCode direct; decide

/-- `base` with a code word at an address. -/
def code (a : Nat) (w : Nat) (s : State) : State := { s with mem := { s.mem with hbm := s.mem.hbm.writeN a 4 w } }

/-- After an IMMX at 64: ADDI, which is widened; LOOP with b nonzero, a widenable stub; an IMMX and then ADDI; DIV. -/
theorem test_hyps_Controls_hints :
    (codeWord (code 68 0x0CA6FFFC base) 68 = some 0x0CA6FFFC#32 ∧ widenable 0x0CA6FFFC#32 = true) ∧
    (codeWord (code 68 0x58C10000 base) 68 = some 0x58C10000#32 ∧ widenable 0x58C10000#32 = true) ∧
    (codeWord (code 72 0x0CA6FFFC (code 68 0xFC000001 base)) 68 = some 0xFC000001#32 ∧
      (0xFC000001#32).extractLsb' 23 9 = 0x1F8#9 ∧ codeWord (code 72 0x0CA6FFFC (code 68 0xFC000001 base)) 72 = some 0x0CA6FFFC#32) ∧
    (codeWord (code 68 0x04A63824 base) 68 = some 0x04A63824#32 ∧ widenable 0x04A63824#32 = false ∧
      (0x04A63824#32).extractLsb' 23 9 ≠ 0x1F8#9) ∧ codeWord (atPc 4092 base) 4096 = none := by decide

theorem test_hyps_Controls_stub : decodeAt 3 0x0CA6FFFC#32 = .ok (.addi 5 6 0xFFFC) ∧ stubWord base 0x58C10000#32 :=
  ⟨rfl, .unusedField, rfl⟩

/-- Another core of the tile runs a task of the module, or is parked at ALIGN 5. -/
def sibling (r : Run) : Ctx := { id := 4, run := r }

theorem test_hyps_Controls_aligns :
    (myModule { base with disp := { modules := [{ id := 0, rev := 2 }] } }).rev < 3 ∧ 3 ≤ (myModule base).rev ∧
    (∃ c ∈ { base with others := [sibling .running] }.others, tileOf c.id = tileOf base.cur.id ∧
      c.bind.module = base.cur.bind.module ∧ c.run ≠ .unbound ∧ c.run ≠ .idle ∧ ¬(c.run = .stopped ∧ c.issued = false) ∧
      coreOf c.id ≠ coreOf base.cur.id) ∧ (∀ m, (sibling .running).run ≠ .parked (.align 5 m)) ∧
    (∀ c ∈ { base with others := [sibling (.parked (.align 5 100))] }.others, c.run = .parked (.align 5 100)) ∧
    (∀ c ∈ { base with others := [sibling .stopped] }.others, c.run = .stopped ∧ c.issued = false) :=
  ⟨by decide, by decide, ⟨sibling .running, by decide, by decide, by decide, by decide, by decide, by decide, by decide⟩, by simp [sibling],
    by decide, by decide⟩

theorem test_hyps_PackedSums : (0 : BitVec 2).toNat < 3 ∧ (2 : BitVec 2).toNat < 3 := by decide

theorem test_hyps_PackedProducts : (2 : BitVec 2).toNat < 3 ∧ (31 : BitVec 5).toNat < 8 * 2 ^ (2 : BitVec 2).toNat := by decide

theorem test_hyps_LaneMoves : (2 : BitVec 2).toNat < 3 ∧ 1 ≤ (2 : BitVec 2).toNat ∧
    (1 : BitVec 5).toNat < 64 / (8 * 2 ^ (2 : BitVec 2).toNat) ∧
    (0 : BitVec 2).toNat < 3 ∧ (7 : BitVec 5).toNat < 64 / (8 * 2 ^ (0 : BitVec 2).toNat) := by decide

/-- F32 patterns: 1, -1, the infinities, a quiet and a signalling NaN, a subnormal, and the zeros. -/
abbrev fOne : Word64 := 0x3F800000
abbrev fMinus : Word64 := 0xBF800000
abbrev fInf : Word64 := 0x7F800000
abbrev fMinf : Word64 := 0xFF800000
abbrev fQuiet : Word64 := 0x7FC00000
abbrev fSig : Word64 := 0x7F800001
abbrev fSub : Word64 := 0x00000001
abbrev fMzero : Word64 := 0x80000000

theorem test_hyps_FloatRounding :
    ((3 : BitVec 3).toNat ≤ 3 ∨ (3 : BitVec 3).toNat = 7) ∧ ((7 : BitVec 3).toNat ≤ 3 ∨ (7 : BitVec 3).toNat = 7) ∧
    (let s := regs 0x7F7FFFFF fSub fMinus
     fin (fr s 6) ∧ fin (fr s 7) ∧ ¬isZero (fr s 7) ∧ fin (fr s 8)) ∧
    (fin (fr (regs fMzero 0) 6) ∧ isZero (fr (regs fMzero 0) 6)) ∧ (fin (fr (regs fOne 0) 6) ∧ ¬Claims.fneg (fr (regs fOne 0) 6)) ∧
    isInf (fr (regs fMinf 0) 6) := by unfold fin isZero isInf Claims.fneg fr xn fexp frac; and_intros <;> decide

theorem test_hyps_FloatSpecials :
    isSig (fr (regs fSig fOne) 6) ∧ ((isNan (fr (regs fQuiet fOne) 6)) ∧ ¬isSig (fr (regs fQuiet fOne) 6) ∧ ¬isSig (fr (regs fQuiet fOne) 7)) ∧
    (isInf (fr (regs fInf 0) 6) ∧ isZero (fr (regs fInf 0) 7)) ∧
    (isNan (fr (regs fOne fQuiet) 7) ∧ ¬(isInf (fr (regs fOne fQuiet) 6)) ∧ ¬isZero (fr (regs fOne fQuiet) 6) ∧ ¬isSig (fr (regs fOne fQuiet) 7) ∧
      ¬isSig (fr (regs fOne fQuiet) 6) ∧ ¬isSig (fr (regs fOne fQuiet) 8)) ∧
    (isInf (fr (regs fInf fMinf) 6) ∧ isInf (fr (regs fInf fMinf) 7)) ∧
    (isInf (fr (regs fMinf fOne) 6) ∧ fin (fr (regs fMinf fOne) 7) ∧ ¬isZero (fr (regs fMinf fOne) 7)) ∧
    (fin (fr (regs fSub fInf) 6) ∧ isInf (fr (regs fSub fInf) 7)) ∧ (isZero (fr (regs 0 fMzero) 6) ∧ isZero (fr (regs 0 fMzero) 7)) ∧
    (fin (fr (regs fSub fMzero) 6) ∧ ¬isZero (fr (regs fSub fMzero) 6) ∧ isZero (fr (regs fSub fMzero) 7)) ∧
    (Claims.fneg (fr (regs fMinf 0) 6) ∧ ¬isNan (fr (regs fMinf 0) 6) ∧ ¬isZero (fr (regs fMinf 0) 6)) ∧
    (isInf (fr (regs fInf 0) 6) ∧ ¬Claims.fneg (fr (regs fInf 0) 6)) := by
  unfold isSig fin isZero isInf isNan Claims.fneg fr xn fexp frac; and_intros <;> decide

theorem fval_one : fval 0x3F800000 = 1 := by unfold fval fexp frac; norm_num
theorem fval_minus : fval 0xBF800000 = -1 := by unfold fval fexp frac; norm_num

theorem test_hyps_FloatSpecials_exact_zero : fin (fr (regs fOne fMinus) 6) ∧ fin (fr (regs fOne fMinus) 7) ∧
    fval (fr (regs fOne fMinus) 6) + fval (fr (regs fOne fMinus) 7) = 0 := by
  rw [show fr (regs fOne fMinus) 6 = 0x3F800000 from rfl, show fr (regs fOne fMinus) 7 = 0xBF800000 from rfl, fval_one, fval_minus]
  exact ⟨by unfold fin fexp; decide, by unfold fin fexp; decide, by norm_num⟩

theorem test_hyps_FloatSpecials_order :
    isSig (fr (regs fOne fSig) 7) ∧ (isNan (fr (regs fQuiet fQuiet) 6) ∧ isNan (fr (regs fQuiet fQuiet) 7) ∧
      ¬isSig (fr (regs fQuiet fQuiet) 6) ∧ ¬isSig (fr (regs fQuiet fQuiet) 7)) ∧
    (isNan (fr (regs fQuiet fOne) 6) ∧ ¬isSig (fr (regs fQuiet fOne) 6) ∧ ¬isNan (fr (regs fQuiet fOne) 7)) ∧
    (isNan (fr (regs fOne fQuiet) 7) ∧ ¬isSig (fr (regs fOne fQuiet) 7) ∧ ¬isNan (fr (regs fOne fQuiet) 6)) ∧
    (let s := regs fMzero 0
     fin (fr s 6) ∧ fin (fr s 7) ∧ isZero (fr s 6) ∧ isZero (fr s 7) ∧ Claims.fneg (fr s 6) ∧ ¬Claims.fneg (fr s 7)) ∧
    (¬isNan (fr (regs fMinf 0) 6)) := by unfold isSig fin isZero isNan Claims.fneg fr xn fexp frac; and_intros <;> decide

theorem test_hyps_FloatSpecials_less : fval (fr (regs fMinus fOne) 6) < fval (fr (regs fMinus fOne) 7) := by
  rw [show fr (regs fMinus fOne) 6 = 0xBF800000 from rfl, show fr (regs fMinus fOne) 7 = 0x3F800000 from rfl, fval_one, fval_minus]
  norm_num

theorem test_hyps_FloatLanes :
    ∀ k < 4, fin (bLane (regs 0x0001FF7F80003F80 0x7F7F000000008000) 6 k * 2 ^ 16) ∧
      fin (bLane (regs 0x0001FF7F80003F80 0x7F7F000000008000) 7 k * 2 ^ 16) := by
  unfold fin fexp bLane xn; decide

theorem test_hyps_Conversions :
    isNan (fr (regs fSig 0) 6) ∧ isInf (fr (regs fMinf 0) 6) ∧ fin (fr (regs 0x4F000000 0) 6) ∧ fin (fr (regs 0xCF000000 0) 6) ∧
    (modSr (fun sr => { sr with tmr := 4 }) (regs fInf 0)).cur.a.sr.tmr.toNat / 4 % 2 = 1 ∧
    ¬(regs fInf 0).cur.a.sr.tmr.toNat / 4 % 2 = 1 ∧
    ¬isNan (bLane (regs 0xFF80 0) 6 0 * 2 ^ 16) ∧ isNan (bLane (regs 0x7F81 0) 6 0 * 2 ^ 16) := by
  unfold isNan isInf fin fr bLane xn fexp frac; and_intros <;> decide

/-- `s` with one entry at handle 4; with the last words of L1 empty; poisoned; with a store in the buffer. -/
def withObj (e : HandleEntry) (s : State) : State := { s with cur := { s.cur with handles := [(4, e)] } }
def unfilled (ks : List Nat) (s : State) : State := { s with mem := { s.mem with empty := ks } }
def poisoned (ks : List Nat) (s : State) : State := { s with mem := { s.mem with poison := ks } }

theorem test_hyps_AccessChecks :
    accessM (.ld 5 6 6 511) = some (6, 511, 8, 8, 8, .r, .any) ∧ (Instr.ld 5 6 6 511).wf = true ∧
    Eff (regs (loc 1) 0) 6 511 8 (loc 4089) ∧ ¬(loc 4089).toNat % 2 ^ 54 + 8 ≤ (entryOf base (loc 4089)).length ∧
    (entryOf base (mkPtr 7 0)).valid = false ∧
    (Need.r.ok (entryOf (withObj { obj 0 with r := false } base) (loc 4088)) = false ∧
      (loc 4088).toNat % 2 ^ 54 + 8 ≤ (entryOf (withObj { obj 0 with r := false } base) (loc 4088)).length) ∧
    (Need.r.ok (entryOf base (dev 0)) = true ∧ Where.localGlobal.ok (entryOf base (dev 0)).space = false) ∧
    (Where.any.ok (entryOf base (loc 4084)).space = true ∧ (loc 4084).toNat % 2 ^ 54 % 8 ≠ 0) ∧
    (let s := withObj { obj 0 with lease := true } base
     (entryOf s (loc 4088)).lease = true ∧ leasedIn (myLaunch s).leased ((loc 4088).toNat / 2 ^ 54) ((loc 4088).toNat % 2 ^ 54) 8 = false) ∧
    ¬effOk (regs (loc 0) 0) 6 0x3FF 8 ∧ access (regs (loc 4088) 0) (.cas 5 6 7 0 1) = some (loc 4088, 4, 4, .rw, .localGlobal) := by
  unfold Eff effOk xn; and_intros <;> first | rfl | decide

theorem test_hyps_LocalLoads : Idle (regs (loc 0) 0) ∧ (6 : BitVec 4).toNat < 15 ∧ Eff (regs (loc 0) 0) 6 511 8 (loc 4088) ∧
    Local (regs (loc 0) 0) (loc 4088) 8 8 .r 4088 ∧ Clean (regs (loc 0) 0) 4088 8 ∧
    Eff (regs (loc 0) 0) 6 255 16 (loc 4080) ∧ Local (regs (loc 0) 0) (loc 4080) 16 16 .r 4080 ∧ Clean (poisoned [4072] base) 4080 16 ∧
    Eff (regs (loc 0) 0) 6 504 8 (loc 4032) ∧ Passes (regs (loc 0) 0) (loc 4032) 64 8 .r 0 ∧
    BurstKeys (regs (loc 0) 0) (loc 4032) 8 (fun k => 4032 + 8 * k) ∧ (∀ k < 8, Clean (regs (loc 0) 0) (4032 + 8 * k) 8) ∧
    (24 : Reg).toNat + 8 ≤ 32 := by
  unfold Idle Canon Eff Local Passes Admits Clean BurstKeys xn; and_intros <;> first | rfl | decide

theorem test_hyps_LocalStores : Local (regs (loc 0) 0) (loc 4088) 8 8 .w 4088 ∧ Local (regs (loc 0) 0) (loc 4080) 16 16 .w 4080 ∧
    Passes (regs (loc 0) 0) (loc 4032) 64 8 .w 0 ∧ (24 : Reg).toNat + (7 : BitVec 3).toNat < 32 ∧
    (∀ k < 8, ∀ j < 8, k < j → 4032 + 8 * k + 8 ≤ 4032 + 8 * j) := by
  unfold Local Passes Admits; and_intros <;> first | rfl | decide

/-- `regs (loc 0) 0` with a word of the issuing context in the store buffer. -/
def buffered : State :=
  let s := regs (loc 0) 0
  { s with cores := [{ id := 0, sbuf := [{ ctx := 0, isGlobal := false, asid := 0, addr := 4088, size := 8, data := 2 ^ 63, policy := 0 }] }] }

theorem test_hyps_LocalLoads_forwards : Eff (wr 6 (loc 4092) buffered) 6 0 4 (loc 4092) ∧
    Local (wr 6 (loc 4092) buffered) (loc 4092) 4 4 .r 4092 ∧
    ∃ y, (myCore (wr 6 (loc 4092) buffered)).sbuf = [y] ∧ y.ctx = 0 ∧ y.isGlobal = false ∧ y.addr ≤ 4092 ∧ 4092 + 4 ≤ y.addr + y.size :=
  ⟨by unfold Eff xn; decide, by unfold Local Passes Admits; and_intros <;> first | rfl | decide, _, rfl, by decide⟩

theorem test_hyps_LocalLoads_full_buffer :
    let y : SBEntry := { ctx := 0, isGlobal := false, asid := 0, addr := 0, size := 8, data := 0, policy := 0 }
    let s : State := { regs (loc 0) 0 with cores := [{ id := 0, sbuf := List.replicate 16 y }] }
    16 ≤ (myCore s).sbuf.length ∧ Eff s 6 511 8 (loc 4088) ∧ Local s (loc 4088) 8 8 .w 4088 ∧ Eff s 6 255 16 (loc 4080) ∧
    Local s (loc 4080) 16 16 .w 4080 := by unfold Eff Local Passes Admits xn; and_intros <;> first | rfl | decide

theorem test_hyps_FullEmpty : Idle (unfilled [4088] (regs (loc 0) 0)) ∧ Eff (regs (loc 0) 0) 6 511 8 (loc 4088) ∧
    Local (regs (loc 0) 0) (loc 4088) 8 8 .r 4088 ∧ Local (regs (loc 0) 0) (loc 4088) 8 8 .rw 4088 ∧
    Local (unfilled [4088] (regs (loc 0) 0)) (loc 4088) 8 8 .w 4088 ∧ Clean (regs (loc 0) 0) 4088 8 ∧
    4088 ∉ (regs (loc 0) 0).mem.empty ∧ 4088 ∈ (unfilled [4088] (regs (loc 0) 0)).mem.empty ∧
    Idle (poisoned [4088] (regs (loc 0) 0)) ∧ 4088 / 8 * 8 ∈ (poisoned [4088] (regs (loc 0) 0)).mem.poison := by
  unfold Idle Canon Eff Local Passes Admits Clean xn; and_intros <;> first | rfl | decide

theorem test_hyps_LocalAtomics : Local (regs (loc 4092) 0) (rd (regs (loc 4092) 0) 6) 4 4 .rw 4092 ∧ Clean (regs (loc 4092) 0) 4092 4 ∧
    Local (regs (loc 4088) 0) (rd (regs (loc 4088) 0) 6) 8 8 .rw 4088 ∧ (regs (loc 4088) 0).mem.l1.readN 4088 8 = xn (regs (loc 4088) 0) 5 % 2 ^ 64 ∧
    (regs (loc 4088) 0 0 1).mem.l1.readN 4088 8 ≠ xn (regs (loc 4088) 0 0 1) 5 % 2 ^ 64 ∧
    Local (regs (loc 4080) 0) (rd (regs (loc 4080) 0) 6) 16 16 .rw 4080 ∧ Clean (regs (loc 4080) 0) 4080 16 ∧
    (regs (loc 4080) 0).mem.l1.readN 4080 16 = pairOf (regs (loc 4080) 0) 2 ∧
    (regs (loc 4080) 0 0 1).mem.l1.readN 4080 16 ≠ pairOf (regs (loc 4080) 0 0 1) 2 := by
  unfold Local Passes Admits Clean pairOf xn; and_intros <;> first | rfl | decide

/-- A leaf entry of 4 KiB with R and W that leads to HBM address 0x10000, and a cached copy of the line at 3,968. -/
def hbmPage : TlbEntry := { asid := 0, va := 0, size := 4096, pte := nat64 (2 ^ 63 + 2 ^ 62 + 2 ^ 59 + 2 ^ 58 + 0x10000) }
def cached (mask : BitVec 128) (present : Bool) : Line :=
  { asid := 0, va := 3968, pos := 0, home := 0x10F80, mask := mask, present := present, v := 0, e := 0, used := 0 }
def mapped (s : State) : State := putCluster { clusterAt s 0 with tlb := [hbmPage] } s
def caching (l : Line) (s : State) : State := putCluster { clusterAt s 0 with lines := [l] } s
def hinted (p : Nat) (s : State) : State := { s with cur := { s.cur with stream := some p } }

/-- The module's code lies at a physical address; the launch holds IO stores, or cannot roll back. -/
def codeOn (a : Nat) (s : State) : State := { s with disp := { s.disp with modules := [{ id := 0, codeSize := 4096, codeAt := a }] } }
def withIo (back : Bool) (ctxs : List Nat) (s : State) : State :=
  putLaunch { launchAt s 0 with nonRollback := !back, held := ctxs.map (fun c => { ctx := c, addr := 0, size := 8, data := 1 }) } s
def homePoisoned (line : Nat) (s : State) : State := { s with homes := { s.homes with poison := [line] } }

theorem test_hyps_GlobalAccesses :
    let s := caching (cached 0 true) (regs (glo 0) 0)
    let p := poisoned [120] s
    let u := mapped (hinted 2 (regs (glo 0) 0))
    Settled s ∧ Settled p ∧ Settled u ∧ myCluster s ∉ s.homes.dead ∧ Eff s 6 511 8 (glo 4088) ∧ Passes s (glo 4088) 8 8 .r 1 ∧
    lineOf (clusterAt s (myCluster s)) s.cur.bind.asid (gva s (glo 4088)) = some (cached 0 true) ∧
    (cached 0 true).home + 4088 % 128 < 2 ^ 61 ∧ tagValid (clusterAt s (myCluster s)).v (cached 0 true).v s.cur.floor = true ∧
    (∀ k < 8, (cached (BitVec.allOnes 128) false).mask.getLsbD (4088 % 128 + k) = true) ∧
    Clean s (lineKey s (myCluster s) (cached 0 true) + 4088 % 128) 8 ∧
    (lineKey p (myCluster p) (cached 0 true) + 4088 % 128) / 8 * 8 ∈ p.mem.poison ∧
    HbmAt u (glo 4088) hbmPage 0x10FF8 ∧ pteR hbmPage.pte = true ∧ pteW hbmPage.pte = true ∧ onCode u 0x10FF8 = false ∧
    u.cur.stream.getD (entryOf u (glo 4088)).policy = 2 ∧ 0x10FF8 / 128 * 128 ∉ u.homes.poison ∧ Passes u (glo 4088) 8 8 .w 1 ∧
    0x10FF8 / 128 * 128 ∈ (homePoisoned 0x10F80 u).homes.poison ∧ onCode (codeOn 0x10000 u) 0x10FF8 = true ∧
    Admits (codeOn 0x10000 u) (glo 4088) 8 8 .w 1 ∧
    (mapped s).cur.stream.getD (entryOf s (glo 4088)).policy ≠ 2 ∧ Passes s (dev 4088) 8 8 .w 2 ∧ Passes s (dev 4088) 8 8 .r 2 := by
  unfold Settled Idle Canon Eff Passes Admits HbmAt Clean xn gva; and_intros <;> first | rfl | decide

theorem test_hyps_GlobalAccesses_io :
    let s := regs (glo 0) 0
    (myLaunch (withIo true [0, 4] s)).nonRollback = false ∧ (myLaunch (withIo false [0] s)).nonRollback = true ∧
    (myLaunch (withIo true [4] s)).held.filter (fun y => y.ctx == s.cur.id) = [] ∧
    (myLaunch (withIo true [0, 4] s)).held.filter (fun y => y.ctx == s.cur.id) ≠ [] := by decide

theorem test_hyps_HomePosts :
    let u := mapped (regs (glo 4088) 5)
    Settled u ∧ myCluster u ∉ u.homes.dead ∧ HbmAt u (glo 4088) hbmPage 0x10FF8 ∧ pteR hbmPage.pte = true ∧ pteW hbmPage.pte = true ∧
    onCode u 0x10FF8 = false ∧ Eff u 6 0 8 (glo 4088) ∧ Passes u (glo 4088) 8 8 .r 1 ∧ Passes u (glo 4088) 8 8 .w 1 ∧ Passes u (glo 4088) 8 8 .rw 1 ∧
    Passes (mapped (regs (glo 4080) 5)) (glo 4080) 16 16 .rw 1 ∧ HbmAt (mapped (regs (glo 4080) 5)) (glo 4080) hbmPage 0x10FF0 ∧
    xn u 7 ≠ 0 := by
  unfold Settled Idle Canon Eff Passes Admits HbmAt xn gva; and_intros <;> first | rfl | decide

theorem test_hyps_PlaceFaults :
    let s := putCluster { id := 0 } (regs (loc 4088) 0)
    let p := poisoned [4088] (regs (loc 4088) 0)
    let u := regs (glo 4088) 0
    Settled s ∧ Settled p ∧ Settled u ∧ Eff s 6 0 8 (loc 4088) ∧ Passes s (loc 4088) 8 8 .r 0 ∧ Passes s (loc 4088) 8 8 .w 0 ∧
    localKey s (myCluster s) s.cur.bind.area ((entryOf s (loc 4088)).base + (loc 4088).toNat % 2 ^ 54) = none ∧
    Local p (loc 4088) 8 8 .r 4088 ∧ 4088 / 8 * 8 ∈ p.mem.poison ∧ Local p (loc 4088) 8 8 .rw 4088 ∧ Passes u (glo 4088) 8 8 .rw 1 ∧
    (translate (myCluster u) u.cur.bind.asid (gva u (glo 4088)) u).1 = none ∧
    lineOf (clusterAt u (myCluster u)) u.cur.bind.asid (gva u (glo 4088)) = none := by
  unfold Settled Idle Canon Eff Local Passes Admits xn gva; and_intros <;> first | rfl | decide

/-- An access of the issuing context posted to a home. -/
def posted (ctx : Nat) (op : HomeOp) (acq rel : Bool) : HomeReq :=
  { ctx := ctx, ptr := glo 4088, asid := 0, va := 4088, size := 8, op := op, acq := acq, rel := rel, pa := 0x10FF8 }
def outstanding (r : HomeReq) (s : State) : State := { s with homes := { s.homes with reqs := [r] } }

theorem test_hyps_FencesAndRanges :
    let s := mapped (regs (glo 0) (nat64 4096))
    (∀ r ∈ s.homes.reqs, r.ctx ≠ s.cur.id) ∧ (∀ y ∈ (myCore buffered).sbuf, stuckStore buffered y = false) ∧
    storesClash buffered (drainList buffered buffered.cur.id (fun _ => true)) = false ∧ (∃ r ∈ (outstanding (posted 0 (.store 0) false true) s).homes.reqs, r.ctx = s.cur.id) ∧
    Idle s ∧ (∀ l ∈ (clusterAt s (myCluster s)).lines, l.asid = s.cur.bind.asid → l.mask = 0) ∧
    (∀ l ∈ (clusterAt (caching (cached 0 true) s) 0).lines, l.asid = 0 → l.mask = 0) ∧
    (clusterAt (putCluster { id := 0, age := 7 } s) 0).age < 8 ∧ s.cur.ports = [] ∧ (∀ y ∈ (myCore s).mq, y.ctx ≠ s.cur.id) ∧
    (∀ y ∈ (myCore s).cq, y.ctx ≠ s.cur.id) ∧ s.cur.a.efault = none ∧ Settled s ∧ Passes s (rd s 6) (xn s 7) 1 .r 1 ∧
    Sorted (caching (cached 1 true) s) 0 ∧ myCluster s ∉ s.homes.dead ∧ Clean (regs (loc 4088) 0) 4088 8 ∧ xn s 7 ≠ 0 ∧ (entryOf s (loc 0)).space ≠ 1 ∧
    (entryOf s (mkPtr 7 0)).valid = false ∧ Local (regs (loc 4088) 0) (loc 4088) 8 8 .r 4088 ∧
    nat64 ((regs (loc 4088) 0).mem.l1.readN 4088 8) = rd (regs (loc 4088) 0) 5 ∧
    nat64 ((regs (loc 4088) 0 0 1).mem.l1.readN 4088 8) ≠ rd (regs (loc 4088) 0 0 1) 5 := by
  unfold Settled Idle Canon Local Passes Admits Sorted Clean xn; and_intros <;> first | rfl | decide

/-- A queue control word at offset 4,064 of handle 4: head 7, tail 5, base at handle 4 offset 1,024, depth 4, slots of 8
bytes; and a context whose channel 3 is bound to it. -/
def qcw (head tail depth : Nat) (eng : Bool) (s : State) : State :=
  let m := (((s.mem.l1.writeN 4064 4 head).writeN 4068 4 tail).writeN 4072 8 (loc 1024).toNat).writeN 4080 4
    (depth + 2 ^ 16 + if eng then 2 ^ 31 else 0)
  { s with mem := { s.mem with l1 := m }
           cur := { s.cur with a := { s.cur.a with c := s.cur.a.c.set 3 (some (loc 4064)) } } }

theorem test_hyps_Channels :
    let s := qcw 7 5 4 false (regs 0 0 0 (loc 4064))
    Idle s ∧ rd (regs 0 0) 5 = 0 ∧ (rd s 5 ≠ 0 ∧ Passes s (rd s 5) 32 32 .rw 0) ∧ base.cur.a.c[3] = none ∧ s.cur.a.c[3] = some (loc 4064) ∧
    Local s (loc 4064) 32 32 .rw 4064 ∧ Clean s 4064 32 ∧ (myLaunch s).carved = [] ∧
    (qcwAt (qcw 5 0 4 false base).mem.l1 4064).ok = false ∧ (qcwAt s.mem.l1 4064).ok = true ∧
    (7 + 4 * (2 ^ 32 / 4) - 5) % (4 * (2 ^ 32 / 4)) = 2 ∧ (qcwAt (qcw 2 0 4 true base).mem.l1 4064).ok = true ∧
    ((qcw 2 0 4 true base).mem.l1.readN 4083 1).testBit 7 = true ∧ (s.mem.l1.readN 4083 1).testBit 7 = false ∧
    (2 : BitVec 9).toNat ≤ 4 - 2 ∧ 4 - 2 < (4 : BitVec 9).toNat ∧ (4 : BitVec 9).toNat ≤ 4 ∧ 4 < (5 : BitVec 9).toNat ∧
    (3 : BitVec 8).toNat < 4 ∧ 4 ≤ (4 : BitVec 8).toNat ∧
    ((loc 1024).toNat % 2 ^ 54 + (7 + 3) % 4 * 8 < 2 ^ 54 ∧ loc 1040 = nat64 ((loc 1024).toNat + (7 + 3) % 4 * 8)) ∧
    (loc 1040 = nat64 ((loc 1024).toNat + (5 + 1) % 4 * 8) ∧ Local s (loc 1040) 8 8 .r 1040 ∧ Clean s 1040 8) ∧
    (loc 1024 = nat64 ((loc 1024).toNat + (7 + 1) % 4 * 8) ∧ Local s (loc 1024) 8 8 .w 1024) ∧
    (4 - 2 ≤ (2 : BitVec 9).toNat ∧ (2 : BitVec 9).toNat < 4 ∧ loc 1032 = nat64 ((loc 1024).toNat + (7 + 2) % 4 * 8) ∧
      Local s (loc 1032) 8 8 .w 1032) := by
  unfold Idle Canon Local Passes Admits Clean; and_intros <;> first | rfl | decide

/-- A command of the matrix unit or of the copy engine of core 0. -/
def command (k : CmdKind) : Cmd :=
  { kind := k, ctx := 0, word := 0, pc := 64, gd := 0, ga := 0, gb := 0, ksel := 0, knot := none, mstra := 32, mstrb := 32
    mbm := 0, frm := 0, timed := false, desc := [] }
def queued (ms cs : List Cmd) (s : State) : State := putCore { coreAt s 0 with mq := ms, cq := cs } s
def part (count first : Nat) (s : State) : State := modSr (fun sr => { sr with mpart := nat64 (count * 256 + first) }) s

def selected (p : Word64) (s : State) : State := modSr (fun sr => { sr with ksel := p }) s

theorem test_hyps_MatrixMembers_issue : (63 : BitVec 6).toNat + 2 ^ (0 : BitVec 2).toNat * (1 : BitVec 6).toNat ≤ partCount (part 64 0 base) ∧
    partCount (part 63 0 base) < (63 : BitVec 6).toNat + 2 ^ (0 : BitVec 2).toNat * (1 : BitVec 6).toNat ∧
    CanIssue (part 64 0 base) true ∧ CanIssue (selected (loc 4080) (queued [command .mzero] [] base)) true ∧
    2 ≤ waiting (queued [command .mzero, command .mzero] [] base) true := by
  unfold CanIssue partCount waiting Passes Admits; and_intros <;> decide

/-- The word at handle 4 offset 4,064 on, as the four words of an MSCA descriptor. -/
def descriptor (w3 : Nat) (s : State) : State := { s with mem := { s.mem with l1 := s.mem.l1.writeN 4088 8 w3 } }

theorem test_hyps_MatrixMembers_control :
    (xn (part 64 0 (regs 60 4)) 6 + xn (part 64 0 (regs 60 4)) 7 ≤ partCount (part 64 0 base)) ∧
    (partCount (part 64 0 base) < xn (regs 60 5) 6 + xn (regs 60 5) 7) ∧
    (xn (regs 0 (nat64 (1 * 2 ^ 8 + 63 * 4))) 7 / 2 ^ 14 % 4 ≠ 3 ∧ xn (regs 0 (nat64 (1 * 2 ^ 8 + 63 * 4))) 7 / 2 ^ 8 % 64 ≠ 0 ∧
      xn (regs 0 (nat64 (1 * 2 ^ 8 + 63 * 4))) 7 / 4 % 64 + 2 ^ 0 * 1 ≤ partCount (part 64 0 base)) ∧ xn (regs 0 (nat64 (2 ^ 16))) 7 ≥ 2 ^ 16 ∧
    (let s := descriptor (2 ^ 24 + 5 * 2 ^ 8) (part 64 0 (regs (loc 4064) 0))
     Idle s ∧ Desc s (rd s 6) 4 (fun k => 4064 + 8 * k) [0, 0, 0, nat64 (2 ^ 24 + 5 * 2 ^ 8)]) ∧
    (let s := descriptor (2 ^ 24 + 6 * 2 ^ 8) (part 64 0 (regs (loc 4064) 0))
     Desc s (rd s 6) 4 (fun k => 4064 + 8 * k) [0, 0, 0, nat64 (2 ^ 24 + 6 * 2 ^ 8)]) ∧
    (2 ^ 24 + 5 * 2 ^ 8) / 2 ^ 8 % 8 < 6 ∧ ¬(2 ^ 24 + 6 * 2 ^ 8) / 2 ^ 8 % 8 < 6 ∧
    Passes (regs (loc 4088) 0) (rd (regs (loc 4088) 0) 6) 8 8 .r 0 ∧ CanIssue (part 64 0 base) true ∧
    waiting (descriptor 0 base) true = 0 ∧ waiting (queued [command .mzero] [] base) true ≠ 0 ∧
    2 ≤ waiting (queued [command .mzero, command .mzero] [] base) true := by
  unfold CanIssue Idle Canon Desc Passes Admits BurstKeys Clean partCount waiting xn; and_intros <;> first | rfl | decide

theorem test_hyps_CopyIssue :
    let s := regs (loc 4080) 0 0 (loc 4080)
    Idle s ∧ CanIssue s false ∧ Desc s (rd s 5) 2 (fun k => 4080 + 8 * k) [0, 0] ∧
    2 ≤ waiting (queued [] [command .cpy, command .cpy] s) false ∧
    (waiting s false < 2 ∧ (selected (loc 8) s).cur.a.sr.ksel ≠ 0 ∧
      Passes (selected (loc 8) s) (selected (loc 8) s).cur.a.sr.ksel 16 1 .rw 0 ∧
      (selected (loc 8) s).cur.a.sr.ksel.toNat % 16 ≠ 0) := by
  unfold Idle Canon CanIssue waiting Desc Passes Admits BurstKeys Clean; and_intros <;> first | rfl | decide

/-- A knot at offset 4,080 of handle 4. -/
def knot (w : Nat) (s : State) : State := { s with mem := { s.mem with l1 := s.mem.l1.writeN 4080 8 w } }

theorem test_hyps_Knots :
    let s := knot (2 ^ 63 + 2 ^ 32 + 4) (regs (loc 4080) (nat64 (2 ^ 31 - 1)))
    Idle s ∧ rd base 6 = 0 ∧ (rd s 6 ≠ 0 ∧ Passes s (rd s 6) 16 16 .rw 0) ∧ Local s (rd s 6) 16 16 .rw 4080 ∧ Clean s 4080 8 ∧
    xn s 7 < 2 ^ 31 ∧ 2 ^ 31 ≤ xn (regs 0 (nat64 (2 ^ 31))) 7 ∧ 0 < s.mem.l1.readN 4080 8 % 2 ^ 32 ∧
    (knot (2 ^ 63) base).mem.l1.readN 4080 8 % 2 ^ 32 = 0 ∧ Local s (rd s 6) 16 16 .r 4080 ∧
    s.mem.l1.readN 4080 8 / 2 ^ 63 = xn s 7 % 2 ∧ s.mem.l1.readN 4080 8 / 2 ^ 63 ≠ xn (regs 0 2) 7 % 2 ∧ s.cur.a.efault = none ∧
    (∀ e ∈ s.cur.a.eflags, e.knot ≠ some 4080) := by
  unfold Idle Canon Local Passes Admits Clean xn; and_intros <;> first | rfl | decide

/-- Cluster 0 with the physical unit 2 for barrier 0 of the launch. -/
def unit : BarUnit := { unit := 2, launch := 0, number := 0, count := 2 }
def barred (u : BarUnit) (s : State) : State := putCluster { clusterAt s 0 with bars := [u] } s
def kept (k : Nat × Bool) (s : State) : State := { s with cur := { s.cur with a := { s.cur.a with kept := some k } } }
def woken (w : BitVec 16) (s : State) : State := { s with cur := { s.cur with a := { s.cur.a with wake := w } } }

theorem test_hyps_BarriersAndWakes :
    let s := barred unit (regs 0 1)
    Idle s ∧ BarrierAt s (xn s 6) unit ∧ s.cur.a.kept = none ∧
    (kept (2, true) s).cur.a.kept = some (unit.unit, true) ∧ unitAt (kept (2, true) s) 0 unit.unit = some unit ∧ unit.phase ≠ true ∧
    (myModule (regs 1 0)).barriers.length ≤ xn (regs 1 0) 6 ∧ (myLaunch (regs 1 0)).ranks.length ≤ xn (regs 1 0) 6 ∧
    (xn s 6 < (myLaunch s).ranks.length ∧ rd s 7 ≠ 0) ∧ rd (regs 0 0) 7 = 0 ∧ (woken 0x8000 s).cur.a.wake ≠ 0 ∧ s.cur.a.wake = 0 ∧ Young s := by
  unfold Idle Canon BarrierAt Young xn; and_intros <;> first | rfl | decide

def limited (count limit : Nat) (s : State) : State := modSr (fun sr => { sr with spcnt := nat64 count, splim := nat64 limit }) s
def traveller : DequeEntry := { launch := 0, parent := (0, 0), trav := List.replicate 10 0 }

theorem test_hyps_Spawns :
    let s := limited 15 16 (regs 4092 (loc 4088))
    Idle s ∧ (myModule base).codeSize ≤ xn (regs 4096 0) 6 ∧ (xn (regs 4094 0) 6 < (myModule base).codeSize ∧ xn (regs 4094 0) 6 % 4 ≠ 0) ∧
    codeAddr s (rd s 6) ∧ s.cur.a.sr.spcnt.toNat < s.cur.a.sr.splim.toNat ∧
    ¬(limited 16 16 s).cur.a.sr.spcnt.toNat < (limited 16 16 s).cur.a.sr.splim.toNat ∧
    (let k : Core := { id := 0, deque := List.replicate 16 traveller, dequeRing := List.replicate 64 traveller }
     16 ≤ k.deque.length + spawning (putCore k s) 0 ∧
     80 ≤ k.deque.length + spawning (putCore k s) 0 + (k.dequeRing.filter (fun e => e.launch == 0)).length) ∧
    ¬16 ≤ (myCore s).deque.length + spawning s (coreOf s.cur.id) ∧ (myCore s).deque.length < 16 ∧
    16 ≤ (myCore (putCore { id := 0, deque := List.replicate 16 traveller } s)).deque.length ∧ Young s ∧
    (rd s 7 ≠ 0 ∧ Local s (rd s 7) 8 8 .rw 4088 ∧ Clean s 4088 8) ∧ rd (regs 4092 0) 7 = 0 ∧
    (myLaunch s).ranks.length ≤ xn (regs 0 0 0 1) 5 % 65536 ∧ xn s 5 % 65536 < (myLaunch s).ranks.length := by
  unfold Idle Canon codeAddr Local Passes Admits Clean Young xn; and_intros <;> first | rfl | decide

def asked : State := { base with cur := { base.cur with pre := .requested } }
def counted_ (v : Nat) (s : State) : State := { s with mem := { s.mem with l1 := s.mem.l1.writeN 4088 8 v } }
def joining (p : Word64) (s : State) : State := modSr (fun sr => { sr with joinp := p }) s
def moving (s : State) : State := putLaunch { launchAt s 0 with ranks := [{ transit := true }] } s
def record64 (s : State) : State := { s with mem := { s.mem with l1 := s.mem.l1.writeN 4032 64 (2 ^ 200 + 1) } }
def full32 : Queue := { id := 63, store := List.replicate 32 { words := [], seq := 0 } }
def busyQ (n : Nat) : Queue := { id := 63, busy := true, heldRec := List.replicate n { words := [], seq := 0 } }

theorem test_hyps_TaskMembers :
    let s := regs 0 0
    Idle s ∧ (myLaunch s).ranks.length ≤ xn (regs 1 0) 6 ∧ xn s 6 < (myLaunch s).ranks.length ∧
    ((∀ y ∈ (myCore s).mq, y.ctx ≠ s.cur.id) ∧ (∀ y ∈ (myCore s).cq, y.ctx ≠ s.cur.id) ∧ s.cur.a.efault = none ∧ s.cur.a.eflags = []) ∧
    (myLaunch s).ranks[xn s 6]? = some ({} : RankEntry) ∧ (myLaunch (moving s)).ranks[xn s 6]? = some { transit := true } ∧
    Local (regs (loc 4088) 0) (rd (regs (loc 4088) 0) 6) 8 8 .r 4088 ∧ Clean s 4088 8 ∧ s.mem.l1.readN 4088 8 = 0 ∧
    (counted_ 1 s).mem.l1.readN 4088 8 ≠ 0 ∧ s.cur.a.sr.joinp = 0 ∧
    ((joining (loc 4088) s).cur.a.sr.joinp ≠ 0 ∧ Local (joining (loc 4088) s) (joining (loc 4088) s).cur.a.sr.joinp 8 8 .rw 4088) ∧
    base.cur.pre ≠ .requested ∧ asked.cur.pre = .requested ∧ asked.cur.deadline = none ∧
    (64 ≤ xn (regs (loc 4032) 64) 7 ∧ Passes (regs (loc 4032) 64) (rd (regs (loc 4032) 64) 6) 64 64 .r 0) ∧
    (let u := record64 (regs (loc 4032) 63)
     xn u 7 < 64 ∧ Local u (rd u 6) 64 64 .r 4032 ∧ Clean u 4032 64 ∧ tearing u (myLaunch u) = false ∧ (queueAt u (xn u 7)).busy = false ∧
       (queueAt u (xn u 7)).store.length < 32 ∧ Idle u ∧ 32 ≤ (queueAt (putQueue full32 u) 63).store.length ∧
       tearing (putQueue (busyQ 32) u) (myLaunch u) = false ∧ (queueAt (putQueue (busyQ 32) u) 63).busy = true ∧
       (queueAt u (xn u 7)).heldRec = [] ∧
       tearing u { myLaunch u with phase := 4 } = true ∧ Young u) := by
  unfold Idle Canon Local Passes Admits Clean Young xn; and_intros <;> first | rfl | decide

theorem test_hyps_TaskMembers_alone : NoAlign base := by simp [NoAlign, base]

def vectored (v : Nat) (s : State) : State := modSr (fun sr => { sr with tvec := nat64 v, tpc := nat64 v }) s
def handling (s : State) : State := { s with cur := { s.cur with a := { s.cur.a with handler := true } } }
def flagged (fl en : Word64) (s : State) : State := modSr (fun sr => { sr with afl := fl, afen := en }) s

theorem test_hyps_TrapsAndWaits :
    ((vectored 4092 base).cur.a.sr.tvec ≠ 0 ∧ (vectored 4092 base).cur.a.handler = false) ∧ codeAddr base (vectored 4092 base).cur.a.sr.tvec ∧
    (myModule base).codeSize ≤ (vectored 4096 base).cur.a.sr.tvec.toNat ∧
    ((vectored 4094 base).cur.a.sr.tvec.toNat < (myModule base).codeSize ∧ (vectored 4094 base).cur.a.sr.tvec.toNat % 4 ≠ 0) ∧
    ¬(base.cur.a.sr.tvec ≠ 0 ∧ base.cur.a.handler = false) ∧ ¬((handling (vectored 4092 base)).cur.a.handler = false) ∧
    base.cur.a.eflags = [] ∧ base.cur.a.efault = none ∧ (flagged 0x3F 0x40 base).cur.a.sr.afl &&& (flagged 0x3F 0x40 base).cur.a.sr.afen = 0 ∧
    (flagged 0x40 0x7F base).cur.a.sr.afl &&& (flagged 0x40 0x7F base).cur.a.sr.afen ≠ 0 ∧
    ((handling (vectored 4092 base)).cur.a.handler = true ∧ codeAddr base (handling (vectored 4092 base)).cur.a.sr.tpc) ∧
    (myModule base).codeSize ≤ (handling (vectored 4096 base)).cur.a.sr.tpc.toNat ∧
    (handling (vectored 4094 base)).cur.a.sr.tpc.toNat % 4 ≠ 0 := by unfold codeAddr; and_intros <;> decide

theorem test_hyps_TrapsAndWaits_services : Idle base ∧ immZ base 12 0 ≤ 0 ∧ 0 < immZ base 12 4095 := by
  unfold Idle Canon; and_intros <;> decide

/-- Every number that is read-only, writable or neither falls under one clause. -/
theorem test_hyps_StateRegisters : (0x071 : BitVec 12).toNat = 0x071 ∧ (0x053 : BitVec 12).toNat = 0x053 ∧
    (0x072 : BitVec 12).toNat ∉ [0x000, 0x001, 0x002, 0x010, 0x011, 0x012, 0x013, 0x014, 0x035, 0x036, 0x037, 0x038, 0x041, 0x051,
      0x052, 0x054, 0x055, 0x056, 0x057, 0x060, 0x061, 0x062, 0x070, 0x071, 0x020, 0x021, 0x022, 0x030, 0x031, 0x032, 0x033,
      0x034, 0x040, 0x042, 0x043, 0x044, 0x045, 0x050, 0x053] := by decide

/-- A bank with its fields changed; a word of bank 511 is word 511 of frame 0. -/
def banked (b : Bank) (s : State) : State := putBank b s
def parkedLde : Parked := { ctx := 0, key := 4088, op := .lde 5 }

/-- Cores 0 and 8, tiles 0 and 1, whose matrix units ask for A at two places of L1; page 1 lies in frame 1. -/
def asking (a b : Word64) : State :=
  let cmd := { command .mmaI8 with checked := true, word := 0xC4C70101 }
  putCore { coreAt base 8 with mq := [{ cmd with ga := b }] } (queued [{ cmd with ga := a }] []
    (putCluster { id := 0, pageMap := [(0, nat64 (2 ^ 63)), (1, nat64 (2 ^ 63 + 1))] } base))

/-- The hypothesis of BankSteps on a matrix unit: the bank's cycle is free and the unit waits for the word. -/
abbrev Wanted (s : State) (bank c k : Nat) : Prop :=
  dieGoes s (bank / 16384) ∧ owedAt s bank = false ∧ (bankAt s bank).pending = [] ∧ (bankAt s bank).ptr < 9 ∧
  bankOf s k = bank ∧ k < 2 ^ 32 ∧ k ∈ matrixWants s c ∧ ∀ g ∈ (coreAt s c).got, ¬(g.unit = 1 ∧ g.key = k)

theorem test_hyps_BankSteps_ports :
    Wanted (asking (loc 0) (loc 65536)) 0 0 0 ∧ Wanted (asking (loc 0) (loc 65536)) 0 8 65536 ∧
    Wanted (asking (loc 0) (loc 0)) 0 8 0 ∧ (portAt 0 0 + 9 - 0) % 9 < (portAt 0 8 + 9 - 0) % 9 ∧ Canon (asking (loc 0) (loc 65536)) := by
  unfold Canon Wanted dieGoes; and_intros <;> first | rfl | decide

theorem test_hyps_BankSteps_drain :
    let s := buffered
    Canon s ∧ (∃ x, (coreAt s 0).sbuf[0]? = some x ∧ x.isGlobal = false ∧ BankFree s x.addr x.size) ∧ dieGoes s (0 / 4096) := by
  unfold Canon dieGoes BankFree
  exact ⟨by decide, ⟨_, rfl, rfl, by decide⟩, rfl⟩

/-- Bank 511 with one reserved cycle that is due, and a context whose burst waits for the word. -/
def heldBank (h : Hold) : State := banked { id := 511, reserved := [{ due := 0, key := 4088, hold := h }] } base
def bursting (s : State) : State := { s with cur := { s.cur with burst := some { pc := 64, ptr := loc 4080, g := s.cur.a.g, due := [4088] } } }

theorem test_hyps_BankSteps :
    (∀ h, (bankAt (heldBank h) 511).reserved = [{ due := 0, key := 4088, hold := h }]) ∧
    (let s := bursting (heldBank (.word [(0, 6)]))
     dieGoes s (511 / 16384) ∧ 0 ≤ bankCyc s 511 ∧ s.cur.id = 0 ∧ (s.cur.burst.map (·.due)) = some [4088] ∧ l1Poisoned s 4088 8 = false ∧
       l1Poisoned (poisoned [4088] s) 4088 8 = true) ∧
    (let s := banked { id := 511, retry := [4088] } base
     heldNow s 511 = false ∧ (bankAt s 511).retry ≠ [] ∧ (bankAt s 511).pending = []) ∧
    (let s := banked { id := 511, once := [parkedLde] } base
     heldNow s 511 = false ∧ (bankAt s 511).once ≠ [] ∧ (bankAt s 511).pending = []) ∧
    (let s := banked { id := 511, retry := [4088], waiters := [parkedLde] } base
     (bankAt s 511).retry = [4088] ∧ (bankAt s 511).waiters = [parkedLde] ∧ bankOf s parkedLde.key = 511 ∧ 4088 ∉ s.mem.empty ∧
       Clean s 4088 8 ∧ 4088 % 8 = 0 ∧ parkedLde.ctx = s.cur.id) ∧
    (let s := putTile { id := 511 / 32, table := [parkedLde] } base
     (tileAt s (511 / 32)).table = [parkedLde] ∧ bankOf s parkedLde.key = 511 ∧ (bankAt s 511).waiters.length < 8) ∧
    (let s := banked { id := 511, waiters := List.replicate 8 parkedLde }
       (putTile { id := 15, refused := [(0, parkedLde)], table := List.replicate 63 parkedLde } (unfilled [4088] base))
     dieGoes s (15 / 512) ∧ (tileAt s 15).refused = [(0, parkedLde)] ∧ Clean s parkedLde.key 8 ∧ parkedLde.key ∈ s.mem.empty ∧
       8 ≤ (bankAt s (bankOf s parkedLde.key)).waiters.length ∧ (tileAt s 15).table.length < 64 ∧ bankOf s parkedLde.key / 32 = 15) ∧
    (let s := putTile { id := 15, refused := [(0, parkedLde)] } base
     (tileAt s 15).refused = [(0, parkedLde)] ∧ parkedLde.key ∉ s.mem.empty ∧ parkedLde.ctx = s.cur.id) ∧
    (let e : ErrRec := { source := 511, uncorrected := true, count := 1, time := 0, addr := 4088 }
     let s := { base with host := { base.host with tests := [(511, some 0)], elog := [e] } }
     s.host.tests[0]? = some (511, some 0) ∧ s.host.elog[0]? = some e ∧ 0 < (bankAt s 511).spares ∧
       (bankAt (banked { id := 511, spares := 0 } s) 511).spares = 0 ∧ masked base 65 = true ∧
       masked { base with host := { base.host with regs := [(0x60000 + 16 * 65 + 8, 0)] } } 65 = false) := by
  unfold Clean dieGoes
  refine ⟨fun _ => rfl, ?_⟩
  and_intros <;> first | rfl | decide

/-- Cluster 0 with a full set of 16 lines, all in set 0. -/
def setOf16 : List Line := (List.range 16).map fun w =>
  { asid := 0, va := w * 2 ^ 20, pos := w * 8192, home := w * 2 ^ 20, mask := 1, present := true, v := 0, e := 0, used := 0 }
def full16 : State := putCluster { clusterAt base 0 with lines := setOf16 } base

/-- With the dies as reset leaves them, no die relocks. -/
theorem allGo (s : State) (h : s.plat.dies = Vector.replicate 4 {}) : AllGo s := by
  intro d; unfold dieGoes dieAt; rw [h]; split <;> simp

theorem test_hyps_CacheSteps :
    (let s := putCluster { clusterAt base 0 with
        tlb := [hbmPage], lines := [cached 1 false], fills := [(0, 3968, 0, 256, 0)] } base
     Canon s ∧ AllGo s ∧ (clusterAt s 0).fills[0]? = some (0, 3968, 0, 256, 0) ∧ (cached 1 false).present = false ∧ tlbFind 0 3968 (clusterAt s 0).tlb = some hbmPage ∧
       homeKey s hbmPage 3968 = 0x10F80 ∧ inHostBias s 0x10F80 = false ∧ flipping s 0x10F80 = false ∧ 0 ∉ s.homes.dead ∧
       0x10F80 / 128 * 128 ∉ s.homes.poison ∧ 0 < allocFrames (clusterAt s 0) ∧ lineOf (clusterAt s 0) 0 3968 = some (cached 1 false) ∧
       converting (clusterAt s 0) (cached 1 false) = false) ∧
    (let s := putCluster { clusterAt base 0 with age := 1, v := 8, lines := [cached 1 true] } base
     dieGoes s (0 / 4) ∧ (clusterAt s 0).sweep = none ∧ 0 < (clusterAt s 0).age ∧ 8 ≤ ((clusterAt s 0).v - (cached 1 true).v).toNat) ∧
    (clusterAt (putCluster { id := 0, sweep := some 3 } base) 0).sweep = some 3 ∧
    (let s := putCluster { clusterAt base 0 with e := 32767, lines := [cached 1 true] } base
     (clusterAt s 0).lines[0]? = some (cached 1 true) ∧ (cached 1 true).mask ≠ 0 ∧ (cached 1 true).home < 2 ^ 60 ∧ 0 ∉ s.homes.dead ∧
       Sorted s 0 ∧ 32767 ≤ ((clusterAt s 0).e - (cached 1 true).e).toNat) ∧
    (let cl := clusterAt base 0
     256 % 256 = 0 ∧ 0 < cl.frames ∧ cl.conv = none ∧ 256 ≤ 2048 ∧ cl.lines = []) ∧
    (let s := putCluster { id := 0, conv := some { newFrames := 0, stage := 4 } } base
     (clusterAt s 0).fills = [] ∧ (clusterAt s 0).lines = []) := by
  unfold Canon Sorted dieGoes; and_intros <;> first | rfl | decide | exact allGo _ rfl

theorem test_hyps_CacheSteps_victim : Sorted full16 0 ∧ (clusterAt full16 0).lines[0]? = setOf16.head? ∧
    (pickWay (clusterAt full16 0).lines (cacheSets (allocFrames (clusterAt full16 0))) (0 / 128 % cacheSets 256) 15).2 = setOf16.head? ∧
    (0 : Nat) % 128 = 0 := by
  unfold Sorted; and_intros <;> first | rfl | decide

/-- Growth from 0 to 256 frames takes the lowest free frames; the banks have room for them (R256). -/
theorem test_hyps_CacheSteps_growth :
    (freeFrames { id := 0 } (256 - 0)).length = 256 - 0 ∧ fits (putCluster { id := 0 } base) 64 0 [] (256 - 0) = true ∧
    ∀ t, t < 128 → tileRoom { id := 0 } t 0 (256 - 0) = true := by
  refine ⟨by simp [freeFrames, pmValid, pmOf, getBy], ?_, fun t _ => ?_⟩
  · simp [fits, residentPages, clusterAt, putCluster, putBy, getBy, base]
  · simp [tileRoom, tileFrames, interFrames]

def recorded (x : Rec) (s : State) : State := { s with homes := { s.homes with recs := [x] } }
def record (agent : Nat) (dr : Bool) (inc : BitVec 8) : Rec :=
  { line := 0x10F80, slice := 0, set := 0, valid := true, dr := dr, agent := agent, rel := 3, inc := inc, used := 0 }
def homed (b : Busy) (s : State) : State := { s with homes := { s.homes with busy := [b] } }

theorem test_hyps_HomeSteps :
    (let r := posted 0 (.store 7) false true
     let s := outstanding r base
     Canon s ∧ AllGo s ∧ s.homes.reqs = [r] ∧ r.watching = false ∧ r.zlr = false ∧ s.homes.busy = [] ∧ r.pa < 2 ^ 60 ∧ inHostBias s r.pa = false ∧
       flipping s r.pa = false ∧ clusterOf r.ctx ∉ s.homes.dead ∧ r.pa / 128 * 128 ∉ s.homes.poison ∧ AllClean s (clusterOf r.ctx) ∧
       ((clusterAt s (clusterOf r.ctx)).lines.all (fun l => !(l.asid == r.asid && l.va == r.va / 128 * 128))) = true ∧
       (s.homes.recs.filter (fun y => y.slice == r.slice && y.set == r.set)).length < 8 ∧ r.slice < 256 ∧ s.homes.watches = []) ∧
    (let r := posted 0 (.load 5 6) true false
     let s := outstanding r base
     s.homes.reqs = [r] ∧ 6 < 15 ∧ r.acq = true ∧ r.rel = false ∧ r.ctx = s.cur.id ∧ (clusterAt s 0).age < 8 ∧ recOf s (r.pa / 128 * 128) = none ∧
       recOf (recorded (record 0 false 0) s) 0x10F80 = some (record 0 false 0) ∧ (record 0 false 0).inc = incOf s 0 ∧
       recOf (recorded (record 3 true 0) s) 0x10F80 = some (record 3 true 0) ∧ (3 : Nat) ≠ 0 ∧
       recOf (recorded (record 3 false 1) s) 0x10F80 = some (record 3 false 1) ∧ (record 3 false 1).inc ≠ incOf s 3 ∧
       recOf (recorded { record 0 false 0 with owed := [(3, 2, false)] } s) 0x10F80 = some { record 0 false 0 with owed := [(3, 2, false)] } ∧
       recOf (recorded { record 0 false 0 with owed := [(3, 2, true)] } s) 0x10F80 = some { record 0 false 0 with owed := [(3, 2, true)] } ∧
       (record 0 false 0).owed = [] ∧ 3 ∉ s.homes.dead ∧ 0 ∉ s.homes.dead) ∧
    (let r := posted 0 (.load 5 6) true false
     let b : Busy := { line := 0x10F80, agent := 3, rel := 3, ctx := 0, drained := true }
     let s := homed b (recorded (record 3 false 0) (outstanding r base))
     s.homes.reqs = [r] ∧ s.homes.busy = [b] ∧ recOf s 0x10F80 = some (record 3 false 0) ∧ (record 3 false 0).agent = b.agent ∧
       (record 3 false 0).rel = b.rel ∧ b.ctx = r.ctx ∧ b.evict = false ∧ b.recalling = false ∧ b.owed = false) ∧
    (posted 0 (.rmw 0 3 5) false false).size = 8 ∧
    (let b : Busy := { line := 0x10F80, agent := 0, rel := 0, ctx := 0 }
     (homed b base).homes.busy[0]? = some b ∧ b.drained = false ∧ b.recalling = false ∧ b.agent ∉ base.homes.dead ∧ Sorted (homed b (caching (cached 1 true) base)) b.agent ∧
       (homed { b with drained := true, evict := true } base).homes.busy = [{ b with drained := true, evict := true }]) ∧
    (let s := { base with plat := { base.plat with moment := 10000 * 111384 }, homes := { base.homes with awaiting := [(3, 0)] } }
     s.homes.awaiting = [(3, 0)] ∧ 0 + 10000 * 111384 ≤ s.plat.moment ∧ s.homes.reqs = [] ∧ 3 < 17) ∧ (17 ≤ 20 ∧ 20 ≤ 20) ∧
    (let s := { base with homes := { base.homes with dead := [15] } }
     15 ∈ s.homes.dead) ∧ 0x10F80 ∉ base.homes.watches ∧
    0x10F80 ∈ ({ base with homes := { base.homes with changed := [0x10F80] } }).homes.changed ∧
    (let r := posted 0 (.monw 5 0 (some 0)) true false
     parkedOf (outstanding r base) r.ctx = none ∧ 0 ≤ cyc (outstanding r base) r.ctx) := by
  unfold Canon AllClean Sorted; and_intros <;> first | rfl | decide | exact allGo _ rfl

def flying (f : Flight) (s : State) : State := { s with disp := { s.disp with flight := [f] } }
def running (r : Run) (s : State) : State := { s with cur := { s.cur with run := r } }
def given (h : Nat × BitVec 16) (s : State) : State := { s with cur := { s.cur with handoff := [h] } }

theorem test_hyps_WaitSteps :
    (let s := flying (.arrival 0 2 0 false) (barred unit base)
     dieGoes s (0 / 4) ∧ s.disp.flight = [.arrival 0 2 0 false] ∧ unitAt s 0 2 = some unit ∧ unit.arrived + 1 < unit.count) ∧
    (let u := { unit with arrived := 1 }
     let s := running (.parked (.barrier 2 false none none)) (kept (2, false) (flying (.arrival 0 2 9 false) (barred u base)))
     unitAt s 0 2 = some u ∧ u.arrived + 1 = u.count ∧ s.cur.a.kept = some (2, u.phase) ∧
       s.cur.run = .parked (.barrier 2 false none none)) ∧
    (let s := running (.parked (.barrier 2 false (some 5) (some 0))) base
     s.cur.run = .parked (.barrier 2 false (some 5) (some 0)) ∧ 0 ≤ cyc s 0 ∧ cyc s 0 < 1) ∧
    (let s := flying (.wake 0 0 0 0x8000 [(0, 0)]) base
     s.disp.flight = [.wake 0 0 0 0x8000 [(0, 0)]] ∧ (rankEntry (launchAt s 0) 0).transit = false ∧ savedRank s 0 0 = none ∧
       dieGoes s (dieOf (rankEntry (launchAt s 0) 0).ctx) ∧
       (ctxOf s (rankEntry (launchAt s 0) 0).ctx).id = (rankEntry (launchAt s 0) 0).ctx) ∧
    (let s := given (3, 1) base
     s.cur.handoff = [(3, 1)] ∧ (clusterAt s (clusterOf 0)).age < 8) ∧ (ctxOf base 0).handoff = [] ∧
    ((running (.parked (.cycles 0)) base).cur.run = .parked (.cycles 0) ∧ 0 ≤ cyc base 0 ∧ cyc base 0 < 1) ∧
    (running (.parked (.align 5 0)) base).cur.run = .parked (.align 5 0) ∧
    (running (.parked (.svc 1 0)) base).cur.run = .parked (.svc 1 0) := by
  unfold dieGoes; and_intros <;> first | rfl | decide

/-- The operand area of core 0: one slice of ones, one row of A. -/
def area : OpArea := { rows := some (List.replicate 8 (List.replicate 32 1)), bitmap := 15, slices := [List.replicate 32 (List.replicate 16 1)] }
def fed (o : OpArea) (s : State) : State := putCore { coreAt s 0 with opArea := o } s

/-- The engines of core 0 run, and nothing of a unit is under way. -/
abbrev EngQuiet (s : State) (unit : Nat) : Prop := dieGoes s (0 / 4096) ∧ brownStopped s = false ∧
  outBusy s 0 unit = false ∧ ∀ g ∈ (coreAt s 0).got, g.unit ≠ unit

theorem test_hyps_EngineSteps_matrix :
    (let cmd := { command .mzero with checked := true }
     let s := queued [cmd] [] base
     Canon s ∧ EngQuiet s 1 ∧ (∀ j, j < 8 → outBusy s (0 + j) 1 = false) ∧ (tileAt s 0).p = 0 ∧ (tileAt s 0).run < (coreAt s 0).weight ∧
       (coreAt s 0).mq = [cmd] ∧ cmd.finished = false ∧ tornDown s (ctxOf s cmd.ctx).bind.launch = false) ∧
    (let cmd := { command .mmaI8 with checked := true, word := 0xC4C70101 }
     let s := fed area (queued [cmd] [] base)
     (coreAt s 0).opArea = area ∧ (∀ j, j < 8 → outBusy s (0 + j) 1 = false) ∧ cmd.word.toNat / 2 ^ 14 % 4 = 0 ∧
       cmd.word.toNat / 2 ^ 8 % 64 = 1 ∧ cmd.next = 0) ∧
    (let cmd := { command .mmaI8 with checked := true, word := 0xC4C70101, gb := loc 0 }
     let s := fed { area with slices := [] } (queued [cmd] [] base)
     (coreAt s 0).mq = [cmd] ∧ EngQuiet s 1 ∧ coreOf (ctxOf s cmd.ctx).id = 0 ∧ cmd.phase2 = false ∧ cmd.next < cmd.word.toNat / 2 ^ 8 % 64 ∧
       (∀ j, j < 8 → fetching s (0 / 8 * 8 + j) = true → fetchAge s 0 ≤ fetchAge s (0 / 8 * 8 + j)) ∧
       (entryIn (ctxOf s cmd.ctx).handles (hv cmd.gb)).space = 0 ∧ (entryIn (ctxOf s cmd.ctx).handles (hv cmd.gb)).remote = false ∧
       ∀ r < 32, ∀ b < 16, localKey s 0 0 (32 * r + b) = some (32 * r + b) ∧ l1Poisoned s (32 * r + b) 1 = false ∧
         bankFree s (32 * r + b) = true) := by
  unfold Canon EngQuiet dieGoes; and_intros <;> first | rfl | decide

theorem test_hyps_EngineSteps_copy :
    (let cmd := { command .cpy with checked := true, gd := nat64 128, ga := loc 2048, gb := loc 0 }
     let s := queued [] [cmd] base
     Canon s ∧ (coreAt s 0).cq = [cmd] ∧ EngQuiet s 2 ∧ tornDown s (ctxOf s cmd.ctx).bind.launch = false ∧ cmd.dropped = false ∧
       cmd.parked = false ∧ cmd.timed = false ∧ cmd.pos = 0 ∧ cmd.posted = false ∧ 0 < cmd.gd.toNat ∧ cmd.gd.toNat ≤ 4096 ∧
       (entryIn (ctxOf s 0).handles (hv cmd.gb)).space = 0 ∧ (entryIn (ctxOf s 0).handles (hv cmd.gb)).remote = false ∧
       ((entryIn (ctxOf s 0).handles (hv cmd.ga)).base + ov cmd.ga) % 65536 + 128 ≤ 65536 ∧
       localKey s 0 0 (ov cmd.gb) = some 0 ∧ localKey s 0 0 (ov cmd.ga) = some 2048 ∧ Clean s 0 128 ∧
       (∀ i, i < 128 → bankFree s i = true ∧ bankFree s (2048 + i) = true) ∧
       (∀ b ∈ s.banks, b.waiters = []) ∧ (coreAt s (coreOf (ctxOf s cmd.ctx).id)).out = []) ∧
    (let cmd := { command .cpych with ga := loc 4064, gd := nat64 8, pos := 8, desc := [2, 1, 8, 4, loc 1024], checked := true }
     let s := queued [] [cmd] (qcw 2 0 4 true base)
     EngQuiet s 2 ∧ cmd.posted = false ∧ cmd.desc = [2, 1, 8, 4, loc 1024] ∧ cmd.gd.toNat ≤ cmd.pos ∧
       (qcwSpot s cmd).toOption = some (0, 0, 4064) ∧ localKey s 0 0 4064 = some 4064 ∧ bankFree s 4064 = true ∧
       Clean s 4064 32 ∧ (qcwAt s.mem.l1 4064).ok = true ∧ (qcwAt s.mem.l1 4064).imm = false) ∧
    (let cmd := { command .cpy with finished := true }
     (coreAt (queued [] [cmd] base) 0).cq = [cmd] ∧ EngQuiet (queued [] [cmd] base) 2 ∧ cmd.dropped = false ∧ cmd.flags = 0 ∧
       cmd.knot = none ∧ cmd.kind ≠ .cpych ∧ { cmd with knot := some 4080 }.knot = some 4080) ∧
    (let s := flying (.count 0 2 0 0 4080 5) (knot (2 ^ 32 + 4) base)
     s.disp.flight[0]? = some (.count 0 2 0 0 4080 5) ∧ localKey s (0 / 1024) 0 4080 = some 4080 ∧ bankFree s 4080 = true ∧
       dieGoes s (0 / 4096) ∧ 0 < s.mem.l1.readN 4080 8 % 2 ^ 32) := by
  unfold Canon EngQuiet dieGoes Clean; and_intros <;> first | rfl | decide

/-- Two accesses of one port, of ranks 0 and 1, and a calendar in which that port owns slot 2. -/
def timedRead (rank : Nat) : CalReq :=
  { cluster := 0, port := 0, pch := 0, at_ := 0, core := 0, key := 0x10F80, n := 128, dst := .l1 0 0 0 false, rank := rank }
def calendared (rs : List CalReq) (tick : Nat) : State :=
  { base with homes := { base.homes with calReqs := rs, cal := [{ pch := 0, slot := 2, owner := 0x80, launch := 0 }] }
              plat := { base.plat with moment := tick * tickUnits } }

theorem test_hyps_EngineSteps_calendar :
    (let r := timedRead 0
     let s := calendared [r] 9
     r.due = none ∧ r.key < 2 ^ 60 ∧ (∀ y ∈ s.homes.calUsed, y.1 ≠ calPort r) ∧ (r.at_ + 3) / 4 ≤ 2 ∧ 2 < (r.at_ + 3) / 4 + 32 ∧
       ownedBy (calOwner s 0 (2 % 32)) r.cluster r.port = true ∧
       (∀ m < 2, ownedBy (calOwner s 0 (m % 32)) r.cluster r.port = false) ∧ s.homes.calReqs = [r] ∧ calWaiting s 0 = [r] ∧
       4 * 2 < rtm s ∧ calWaiting (calendared [r] 8) 0 = [r] ∧ rtm (calendared [r] 8) ≤ 4 * 2) ∧
    (let s := calendared [timedRead 1, timedRead 0] 9
     calWaiting s 0 = [timedRead 1, timedRead 0] ∧ calPort (timedRead 1) = calPort (timedRead 0) ∧ (timedRead 0).rank < (timedRead 1).rank ∧
       4 * 2 < rtm s) := by
  and_intros <;> first | rfl | decide
/-- A container of revision 3 with one word of code (YIELD g5) and one actor (R77-R80). -/
def containerOf (stack : Nat) : List Byte :=
  let section_ := fun (type off size : Nat) => toBytes type 2 ++ toBytes 0 2 ++ toBytes 3 4 ++ toBytes off 8 ++ toBytes size 8
  toBytes 0x4E594C4C 4 ++ toBytes 3 2 ++ toBytes 0 2 ++ toBytes 64 4 ++ toBytes 2 4 ++ toBytes 152 8 ++ List.replicate 40 0 ++
    section_ 1 112 4 ++ section_ 2 120 32 ++ toBytes 0xE4A00004 4 ++ List.replicate 4 0 ++
    (toBytes 0 4 ++ toBytes 1 4 ++ toBytes stack 4 ++ toBytes 16 2 ++ toBytes 0 2 ++ toBytes 0 2 ++ toBytes 1 1 ++ List.replicate 13 0)
def container : List Byte := containerOf 16

/-- `base` with a module 7 that has 4 code bytes, and a part of a code block. -/
def actor0 (stack : Nat) : Actor :=
  { entry := 0, count := 1, stack := stack, splim := 16, cls := 0, steal := 0, ring := 0, mweight := 1, accslots := 0, cgroup := 0 }
def module7 : Module := { id := 7, codeSize := 4, codeAt := 4096, actors := [actor0 0] }
def with7 (s : State) : State := { s with disp := { s.disp with modules := s.disp.modules ++ [module7] } }
def blocked (bs : List Block) (s : State) : State := putCluster { clusterAt s 0 with blocks := bs } s

/-- The module of a container, with the repetition counts of a module without a graph. -/
def fromContainer (f : List Byte) : Module :=
  let m := moduleOf 7 0 4096 [0] f
  { m with q := m.actors.map (fun _ => 1) }

theorem test_hyps_CodeSteps_load : containerStatus (booted base) container = 0 ∧ bodyOfType container 9 = [] ∧ bodyOfType container 3 = [] ∧
    bodyOfType container 4 = [] ∧ moduleFits (moduleOf 7 0 4096 [0] container) (if base.plat.gl4012 then 12 else 16) 0 = true ∧
    (findPlace (emptied false (booted base)) (fromContainer container) 64).isSome = true ∧ loaded (booted base) 7 = none ∧
    (booted base).plat.stage = 10 ∧ base.plat.stage < 8 ∧ (loaded base 0).isSome = true ∧
    ({ base with disp := { base.disp with modules := [] } }).disp.modules = [] ∧ (∀ k ∈ (booted base).disp.modules, k.asid ≠ 1) ∧
    ofBytes (container.take 4) = 0x4E594C4C ∧ fieldAt container 8 4 = 64 ∧
    3 < fieldAt (toBytes 0x4E594C4C 4 ++ toBytes 4 2 ++ container.drop 6) 4 2 ∧ ofBytes ([].take 4) ≠ 0x4E594C4C := by
  and_intros <;> decide +kernel

theorem test_hyps_CodeSteps_unfit : containerStatus (booted base) (containerOf (2 ^ 28)) = 0 ∧
    bodyOfType (containerOf (2 ^ 28)) 9 = [] ∧ bodyOfType (containerOf (2 ^ 28)) 3 = [] ∧
    moduleFits (moduleOf 7 0 4096 [0] (containerOf (2 ^ 28))) 16 0 = false := by
  and_intros <;> decide +kernel

def within (b : Nat × Nat) (s : State) : State := { s with cur := { s.cur with blk := some b } }
/-- A miss at word 0 of module 7, with what the lowering engine is in and the load-time lowering that is due. -/
def missing (lowering : Option (Nat × Nat)) (due : List (Nat × Nat)) (s : State) : State :=
  let t := putCluster { clusterAt s 0 with misses := [(7, 0, 0)], lowering := lowering } (running (.parked .translation) (with7 s))
  { t with disp := { t.disp with toLower := due } }
/-- Die 3 in a relock, and of another native revision. -/
def relocked (s : State) : State := putDie 3 { relock := some (13, 0), nativeRev := 1 } s

theorem test_hyps_CodeSteps :
    Canon (with7 base) ∧ loaded (with7 base) 7 = some module7 ∧ (clusterAt (with7 base) 0).blocks = [] ∧ entriesOf (with7 base) module7 = [0] ∧
    sameRevision (with7 base) = true ∧ stopped (with7 base) (0 / 4) = false ∧
    sameRevision (relocked base) = false ∧ placedIn (relocked base) 3 7 = false ∧ placedIn (relocked base) 0 0 = true ∧
    (base.cur.run = .running ∧ base.cur.a.immx = [] ∧ (∀ b ∈ (clusterAt base 0).blocks, ¬b.module = 0) ∧ base.cur.blk = none) ∧
    (∃ b ∈ (clusterAt (blocked [{ module := 0, entry := 64, words := 1, used := 0 }] base) (0 / 4096)).blocks,
      b.module = base.cur.bind.module ∧ b.entry = base.cur.a.pc.toNat ∧ b.rev = nativeRev base (0 / 4096)) ∧
    (within (0, 17) base).cur.blk = some (0, 17) ∧ 0 ≤ base.cur.a.pc.toNat ∧ base.cur.a.pc.toNat < 0 + 4 * 17 ∧
    ((clusterAt (missing none [] base) 0).misses = [(module7.id, 0, 0)] ∧ (0, 7) ∈ (missing none [(0, 7)] base).disp.toLower ∧
      (missing none [] base).disp.toLower = [] ∧ (clusterAt (missing none [] base) 0).lowering ≠ some (7, 0)) ∧
    (let s := missing (some (7, 0)) [] base
     s.cur.run = .parked .translation ∧ (clusterAt s 0).lowering = some (module7.id, 0) ∧ loaded s 7 = some module7 ∧
       (clusterAt s 0).blocks = [] ∧ blockMeets 7 0 4 7 0 (blockWords s (moduleAt s 7) 64 0) = true ∧ (7, 0, 0) ∈ (clusterAt s 0).misses) ∧
    (∀ l ∈ (with7 base).disp.launches, l.module ≠ 7 ∨ l.phase = 4) ∧ (∃ l ∈ base.disp.launches, l.module = 0 ∧ l.phase ≠ 4) ∧
    stopped (relocked base) (1536 / 512) = true ∧
    (let s := putTile { id := 0, fetchReqs := [(0, 64, true)] } base
     stopped s (0 / 512) = false ∧ (tileAt s 0).fetchReqs = [(0, 64, true)]) ∧
    (let s := putTile { id := 0, fetchPtr := 7, fetchReqs := [(4, 64, true), (28, 96, false)] } base
     stopped s (0 / 512) = false ∧ (tileAt s 0).fetchPtr < 8 ∧
       (28 / 4 % 8 + 8 - (tileAt s 0).fetchPtr) % 8 < (4 / 4 % 8 + 8 - (tileAt s 0).fetchPtr) % 8 ∧ 96 ≠ 64) := by
  unfold Canon; and_intros <;> first | rfl | decide

theorem test_hyps_CodeSteps_lowered : ∃ t, exec (.moduleLowering 0 7) (with7 base) = .next t ∧ 7 ∈ (clusterAt t 0).lowered ∧
    7 ∉ (clusterAt (with7 base) 0).lowered := ⟨_, rfl, by decide +kernel, by decide⟩

/-- Queue 63 with a record in its window, with accepted records, busy. -/
def record0 : List Word64 := [1, 0, 0, 0, 0, 0, 0, 0]
def badRecord : List Word64 := [nat64 (9 * 2 ^ 40), 0, 0, 0, 0, 0, 0, 0]
def entry0 : QEntry := { words := record0, seq := 0, deps := [true, true, true, true] }
def onQueue (q : Queue) (s : State) : State := putQueue q s
/-- Page tables: three levels of pointers and a leaf at level 0, in HBM from 0x20000 on; virtual page 0 maps to 0x10000. -/
def tables (s : State) : State :=
  let level2 := (s.mem.hbm.writeN 0x20000 8 (2 ^ 63 + 0x21000)).writeN 0x21000 8 (2 ^ 63 + 0x22000)
  let level0 := (level2.writeN 0x22000 8 (2 ^ 63 + 0x23000)).writeN 0x23000 8 (2 ^ 63 + 2 ^ 62 + 2 ^ 59 + 2 ^ 58 + 0x10000)
  { s with mem := { s.mem with hbm := level0 }, host := { s.host with roots := [(0, 0x20000)] } }
def waiting : QEntry := { words := [1, 0, 0, 0, nat64 (2 ^ 61 + 8), 0, 0, 0], seq := 0, deps := [false, true, true, true] }
def dep (v : Nat) (s : State) : State := { s with mem := { s.mem with hbm := s.mem.hbm.writeN 0x10008 8 (v * 2 ^ 56) } }

theorem test_hyps_QueueSteps :
    (let s := onQueue { id := 63, window := [(0, record0)] } base
     Canon s ∧ 63 < 64 ∧ (queueAt s 63).busy = false ∧ holding s = false ∧ 33 ≤ (33 : BitVec 6).toNat ∧ (queueAt s 63).store.length < 32 ∧
       badRec s record0 = false ∧ badRec s badRecord = true) ∧
    (queueAt (onQueue full32 base) 63).store.length = 32 ∧ (queueAt (onQueue { id := 63, busy := true } base) 63).busy = true ∧
    (let s := { onQueue { id := 63, busy := true } base with plat := { base.plat with brownAt := some 0 } }
     holding s = true ∧ (queueAt s 63).busy = true ∧ (queueAt s 63).heldRec = [] ∧ (∀ l ∈ s.disp.launches, l.queue ≠ 63 ∨ l.phase = 4)) ∧
    (queueAt (onQueue { id := 63, store := [entry0] } base) 63).store = [entry0] ∧ (queueAt base 63).busy = false ∧
    (let s := onQueue { id := 63, busy := true } base
     (queueAt s 63).heldDb = [] ∧ (queueAt s 63).heldRec = [] ∧ (∀ l ∈ s.disp.launches, l.queue ≠ 63 ∨ l.phase = 4)) ∧
    (let s := onQueue { id := 0, busy := true } base
     (queueAt s 0).heldDb = [] ∧ (queueAt s 0).heldRec = [] ∧ s.disp.launches = [launchAt s 0] ∧ (launchAt s 0).queue = 0 ∧ (launchAt s 0).phase = 3 ∧ (queueAt s 0).busy = true) ∧
    (let s := onQueue { id := 63, store := [waiting] } (tables base)
     (queueAt s 63).store[0]? = some waiting ∧ waiting.deps[0]? = some false ∧ waiting.heldBy = none ∧
       (loaded s (recModule waiting.words)).isSome = true ∧ walk s 0 (recDep waiting.words 0) = some hbmPage ∧
       homeReady s (homeKey s hbmPage (recDep waiting.words 0)) false = none ∧ homeKey s hbmPage (recDep waiting.words 0) = 0x10008 ∧
       (dep 1 s).mem.hbm.readN 0x10008 8 / 2 ^ 56 = recWant waiting.words 0 ∧ s.mem.hbm.readN 0x10008 8 / 2 ^ 56 = 0 ∧ recWant waiting.words 0 ≠ 0 ∧
       (dep 3 s).mem.hbm.readN 0x10008 8 / 2 ^ 56 ≠ recWant waiting.words 0) := by
  unfold Canon; and_intros <;> first | rfl | decide

/-- The statement of a completion is met: the record names a completion word at virtual address 8 (R304). -/
theorem test_hyps_QueueSteps_completed :
    let ws : List Word64 := [1, 0, 8, 0, 0, 0, 0, 0]
    recCw record0 = 0 ∧ recCw ws ≠ 0 ∧ recCw ws % 8 = 0 ∧ (loaded (tables base) (recModule ws)).isSome = true ∧
    walk (tables base) 0 (recCw ws) = some hbmPage ∧ homeKey (tables base) hbmPage (recCw ws) < 2 ^ 60 ∧ (tables base).homes.recs = [] ∧
    homeReady (tables base) (homeKey (tables base) hbmPage (recCw ws)) true = none ∧
    (let key := homeKey (tables base) hbmPage (recCw ws)
     ioTurn (tables base) (placeOf (tables base) key).1 (key / 128 * 128) = true) := by
  and_intros <;> first | rfl | decide

/-- The launch of `base` with its fields changed. -/
def launched (l : Launch) (s : State) : State := putLaunch l s
def record7 : List Word64 := [nat64 (7 * 2 ^ 40 + 1), 0, 0, 0, 0, 0, 0, 0]
def headed : State := booted { with7 base with disp := { (with7 base).disp with
  queues := [{ id := 63, store := [{ words := record7, seq := 0, deps := [true, true, true, true] }] }] } }
def leasing : Module := { id := 0, codeSize := 4096, resident := [(4, 4000, 96)], handles := [{ obj 1 with lease := true }] }

theorem test_hyps_LaunchSteps_dispatch :
    launchesRun base = false ∧ Canon headed ∧ Dispatches headed ∧
    OneHead headed 63 { words := record7, seq := 0, deps := [true, true, true, true] } ∧
    loaded headed (recModule record7) = some module7 ∧ placeable headed module7 = true ∧
    placementOk headed module7 63 [4] = true ∧ placementOk headed module7 63 [0] = false := by
  refine ⟨rfl, by unfold Canon; decide, ⟨rfl, rfl, by decide, by decide⟩, ⟨_, rfl, rfl, rfl, rfl, rfl, rfl, by decide⟩, ?_⟩
  and_intros <;> decide +kernel

theorem test_hyps_LaunchSteps_first_fit :
    orderedHeads headed = [(63, { words := record7, seq := 0, deps := [true, true, true, true] })] ∧
    (findPlace headed module7 63).isSome = true ∧ placementOk headed module7 63 [0, 4] = false := by
  and_intros <;> decide +kernel

/-- The same head with a module whose stack needs more than a cluster has. -/
def headedUnfit : State := { headed with disp := { headed.disp with modules := [{ module7 with actors := [actor0 (2 ^ 28)] }] } }

theorem test_hyps_LaunchSteps_unfit : Dispatches headedUnfit ∧
    loaded headedUnfit (recModule record7) = some { module7 with actors := [actor0 (2 ^ 28)] } ∧
    placeable headedUnfit { module7 with actors := [actor0 (2 ^ 28)] } = false := by
  refine ⟨⟨rfl, rfl, by decide, by decide⟩, ?_⟩
  and_intros <;> decide +kernel

theorem test_hyps_LaunchSteps :
    (let s := launched { id := 0, phase := 1, module := 7, place := [4] } (with7 base)
     (launchAt s 0).phase = 1 ∧ tearing s (launchAt s 0) = false ∧ (launchAt s 0).module = module7.id ∧ moduleAt s module7.id = module7 ∧
       recNres (launchAt s 0).words = 0 ∧ s.host.tags = [] ∧ module7.resident = [] ∧
       (launchAt s 0).place.length = (instances module7.actors).length ∧ (launchAt s 0).place.Nodup ∧
       ∀ k ∈ (launchAt s 0).place, (ctxOf s k).run = .unbound) ∧
    (let s := onQueue { id := 0, busy := true } base
     tearing s (launchAt s 0) = true) ∧
    (let s := launched { id := 0, phase := 1 } { base with disp := { base.disp with modules := [leasing] } }
     moduleAt s 0 = leasing ∧ leasing.resident = [(4, 4000, 96)] ∧ leasing.handles[4 - 4]? = some { obj 1 with lease := true } ∧
       4000 % 4096 + 96 ≤ 4096 ∧ recNres (launchAt s 0).words = 0 ∧ s.host.tags = [] ∧ tearing s (launchAt s 0) = false ∧ 4 ≤ 4 ∧ 0 < 96 ∧
       (obj 1).base + 4000 = 4000 ∧ walk s 0 0 = none ∧ walk (tables s) 0 0 ≠ none) ∧
    (let s := launched { id := 0, phase := 2 } (running .stopped base)
     (launchAt s 0).phase = 2 ∧ brownStopped s = false ∧ tearing s (launchAt s 0) = false ∧ s.cur.bind.launch = 0 ∧ s.cur.run = .stopped ∧ s.cur.issued = false ∧
       (stagesOf (moduleAt s 0)).getD s.cur.bind.actor 0 = 0) ∧
    (let s := launched { id := 0, stepDone := true } { base with disp := { base.disp with modules := [{ id := 0, graph := some (0, 1) }] } }
     mayCut s (launchAt s 0) = true ∧ (moduleAt s 0).graph.isSome = true ∧ recSteps (launchAt s 0).words = 0 ∧ s.cur.a.immx = [] ∧
       (myCore s).sbuf = [] ∧ ∀ c ∈ s.others, c.id ≠ s.cur.id) ∧
    (let s := launched { id := 0, stepDone := true, words := record0 } { base with disp := { base.disp with modules := [{ id := 0, graph := some (0, 1) }] } }
     mayCut s (launchAt s 0) = true ∧ recSteps (launchAt s 0).words ≠ 0 ∧ recSteps (launchAt s 0).words ≤ (launchAt s 0).done + 1) ∧
    mayCut base (launchAt base 0) = false ∧ (launchAt base 0).phase = 3 ∧ (launchAt base 0).ranks[0]? = some ({} : RankEntry) ∧
    (let s := moving base
     (launchAt s 0).phase = 3 ∧ (launchAt s 0).ranks[0]? = some { transit := true } ∧ (ctxOf s 0).bind.launch = 0 ∧
       (ctxOf s 0).bind.rank = 0 ∧ (ctxOf s 0).run ≠ .unbound ∧
       mayMove s (launchAt s 0) (ctxOf s 0) 4095 = true ∧ mayMove base (launchAt base 0) (ctxOf base 0) 4095 = true ∧
       mayMove s (launchAt s 0) (ctxOf s 0) 0 = false ∧ mayReplace s (launchAt s 0) (ctxOf s 0) = true ∧
       (let u := { s with cur := { s.cur with pre := .requested } }
        mayMove u (launchAt u 0) (ctxOf u 0) 4095 = true ∧ mayReplace u (launchAt u 0) (ctxOf u 0) = false) ∧
       movers s (launchAt s 0) (ctxOf s 0) 16384 = [(0, 16384)] ∧ mayMove s (launchAt s 0) (ctxOf s 0) 16384 = true ∧
       (rankEntry (launchAt s 0) (ctxOf s 0).bind.rank).transit = true ∧ dieOf 16384 ≠ dieOf 0 ∧
       (launchAt s 0).nonRollback = false ∧ logLost (launchAt s 0) = false ∧
       (launchAt (putLaunch { launchAt s 0 with nonRollback := true } s) 0).nonRollback = true) ∧
    allAsleep (running (.parked .wake) base) (launchAt base 0) = true ∧ allAsleep base (launchAt base 0) = false := by
  and_intros <;> first | rfl | decide

def arrival : Arrival := { rank := 0, launch := 0, trav := List.replicate 10 0, handoff := [(3, 0)] }
/-- The launch's context has an arrival ring of some slots, at area offset 1,024. -/
def ringed (n : Nat) (s : State) : State := { s with cur := { s.cur with bind := { s.cur.bind with ring := n, arqOff := 1024 } } }
def cored (k : Core) (s : State) : State := putCore k s

theorem test_hyps_WorkSteps :
    (let s := flying (.trav 0 arrival) base
     s.disp.flight = [.trav 0 arrival] ∧ stopped s (dieOf (rankEntry (launchAt s 0) 0).ctx) = false ∧
       stopped (putDie 0 { relock := some (13, 0) } s) (dieOf (rankEntry (launchAt s 0) 0).ctx) = true ∧
       (rankEntry (launchAt s 0) 0).transit = false ∧ (coreAt s 0).arr.length < 4 ∧
       (coreAt s 0).arrRing = [] ∧ (coreAt s 0).arrOver = []) ∧
    (let s := cored { id := 0, arr := List.replicate 4 arrival, arrOver := List.replicate 818 arrival } base
     (coreAt s 0).arr.length = 4 ∧ ringSlots s 0 0 = 0 ∧ (coreAt s 0).arrOver.length < 819) ∧
    (let s := cored { id := 0, arr := List.replicate 4 arrival } (ringed 1020 base)
     Canon s ∧ ringOwner s 0 0 = some s.cur ∧ 0 < s.cur.bind.ring ∧ s.cur.bind.ring ≤ 1020 ∧ (coreAt s 0).arr.length = 4 ∧ (coreAt s 0).arrRing = [] ∧
       (coreAt s 0).arrOver = [] ∧ localKey s 0 s.cur.bind.area s.cur.bind.arqOff = some 1024 ∧ 1024 % 65536 + 112 ≤ 65536 ∧
       s.mem.l1.readN 1024 8 = 0) ∧
    (coreAt (cored { id := 0, arrOver := List.replicate 819 arrival } base) 0).arrOver.length = 819 ∧
    (rankEntry (launchAt (moving base) 0) 0).transit = true ∧
    (let s := cored { id := 0, arr := List.replicate 3 arrival, arrOver := [arrival] } base
     (coreAt s 0).arrOver = [arrival] ∧ (coreAt s 0).arr.length < 4 ∧ (coreAt s 0).arrRing = [] ∧ ringSlots s 0 0 = 0) ∧
    (let s := cored { id := 0, arrRing := [arrival], arrOver := [arrival] } (ringed 1 base)
     (coreAt s 0).arrOver = [arrival] ∧ 0 < ringSlots s 0 0 ∧
       ringSlots s 0 0 ≤ ((coreAt s 0).arrRing.filter (fun x => x.launch == 0)).length) ∧
    (let s := cored { id := 0, arr := [arrival] } (running .idle base)
     s.cur.run = .idle ∧ s.cur.pre = .running ∧ (launchAt s 0).phase = 3 ∧ (queueAt s (launchAt s 0).queue).busy = false ∧
       (rankEntry (launchAt s 0) s.cur.bind.rank).transit = false ∧ (coreAt s 0).arrRing = [] ∧ (coreAt s 0).arrOver = [] ∧
       (coreAt s 0).dequeRing = [] ∧ s.host.holds = [] ∧ (dieAt s (0 / 16384)).relock = none ∧
       brownStopped s = false ∧ (coreAt s 0).arr = [arrival] ∧ arrival.launch = s.cur.bind.launch ∧ arrival.rank = s.cur.bind.rank ∧
       arrival.parent = none) ∧
    (let s := cored { id := 0, deque := [traveller, traveller] } (running .idle base)
     (coreAt s 0).arr = [] ∧ (coreAt s 0).deque = [traveller, traveller] ∧ traveller.launch = s.cur.bind.launch) ∧
    (let s := cored { id := 1, deque := [traveller, traveller] } (running .idle (with7 { base with cur := { base.cur with bind := { base.cur.bind with module := 7 } } }))
     (coreAt s 0).deque = [] ∧ (actorAt (moduleAt s s.cur.bind.module) s.cur.bind.actor).steal = 0 ∧ 1 = 0 / 32 * 8 + (0 / 4 + 1) % 8 ∧
       (coreAt s 1).deque = [traveller, traveller] ∧ (coreAt s 1).dequeRing = []) ∧ base.cur.run ≠ .idle := by
  and_intros <;> decide +kernel

def strand (k : Strand) (s : State) : State := putStrand k s
def plat (p : Plat) (s : State) : State := { s with plat := p }
def die (d : Die) (s : State) : State := putDie 3 d s

theorem test_hyps_ClockSteps_strands :
    (strandAt base 511).throttled = false ∧ rtm base / 1024 ≤ (strandAt base 511).window ∧
    (strandAt base 511).window < rtm (plat { strandGroups := 64, moment := 1024 * 111384 } base) / 1024 ∧
    powered (plat { strandGroups := 64, moment := 1024 * 111384 } base) 511 = true ∧ powered (plat { strandGroups := 64 } base) 511 = true ∧
    (strandAt (strand { id := 511, throttled := true } base) 511).throttled = true ∧
    (let s := plat { stage := 3, strandGroups := 63, groupAt := some 0, moment := 2000 * 111384 } base
     s.plat.stage = 3 ∧ bootStopped s = false ∧ s.plat.strandGroups < groupCount s ∧ s.plat.groupAt = some 0 ∧ 0 + 2000 ≤ rtm s) ∧
    (let s := plat { stage := 3, groupAt := some 0 } base
     bootStopped s = false ∧ s.plat.strandGroups < groupCount s ∧ s.plat.groupAt = some 0 ∧ rtm s < 0 + 2000) ∧
    (plat { stage := 3 } base).plat.groupAt = none ∧ bootStopped (plat { off := true } base) = true ∧
    groupCount (plat { strandGroups := 64 } base) ≤ 64 ∧
    (let s := plat { strandGroups := 64 } base
     powered s (100 / 32) = true ∧ readyOn s 100 = [] ∧ allParked s 100 = true ∧ (coreAt s 100).gated = false ∧ mayGate s 100 = true) ∧
    (let gated := fun (n : Nat) => ({ id := n, gated := true } : Core)
     let s := plat { strandGroups := 64 } { base with cores := [gated 96, gated 97] }
     powered s (98 / 32) = true ∧ readyOn s 98 = [] ∧ allParked s 98 = true ∧ (coreAt s 98).gated = false ∧ mayGate s 98 = false) ∧
    (let s := plat { strandGroups := 64 } (putCore { id := 0, gated := true } { base with cur := { base.cur with a := { base.cur.a with immx := [0] } } })
     powered s (0 / 32) = true ∧ (coreAt s 0).gated = true) := by
  and_intros <;> first | rfl | decide

theorem test_hyps_ClockSteps_dies :
    (let s := plat { dies := Vector.replicate 4 { code := 13 } } base
     (∀ j < 4, (dieAt s j).fix = false ∧ (dieAt s j).code = 13) ∧ s.plat.pcap < 1601 ∧ 1439 * 10 < s.plat.pcap * 9 ∧
       s.plat.pcap * 9 ≤ 1440 * 10 ∧ 1600 ≤ s.plat.pcap) ∧
    (let s := die { code := 17, target := 18 } base
     (dieAt s 3).fix = false ∧ (dieAt s 3).target = 18 ∧ (dieAt s 3).relock = none ∧ (dieAt s 3).ramp = none ∧ (dieAt s 3).lastStep = none ∧
       s.plat.brownAt = none ∧ (dieAt s 3).code < 18) ∧
    (let s := die { code := 18, target := 12 } base
     12 < (dieAt s 3).code ∧ (dieAt s 3).code ≤ 18 ∧ (dieAt s 3).base % 111384 = 0 ∧ (dieAt s 3).base ≤ s.plat.moment) ∧
    (let s := die { code := 12, ramp := some 18 } base
     (dieAt s 3).ramp = some 18 ∧ 12 ≤ (dieAt s 3).code ∧ (dieAt s 3).code < 18 ∧ (dieAt (die { code := 18, ramp := some 18 } base) 3).code ≥ 18) ∧
    (let s := die { code := 12, relock := some (18, 0) } (plat { moment := 2048 * 111384 } base)
     (dieAt s 3).relock = some (18, 0) ∧ 0 + 2048 ≤ rtm s ∧ rtm base < 0 + 2048) ∧
    (base.plat.devready = false ∧ base.plat.rtmSet = false ∧ rtm base < 1) ∧ (plat { rtmSet := true } base).plat.rtmSet = true := by
  and_intros <;> first | rfl | decide

def pre (p : PreState) (acks : List Nat) (s : State) : State := { s with cur := { s.cur with pre := p, acks := acks } }
/-- A waiting head of priority 1 on queue 63. -/
def record1 : List Word64 := [1, nat64 (2 ^ 61), 0, 0, 0, 0, 0, 0]
def head1 (ws : List Word64) (s : State) : State :=
  { s with disp := { s.disp with queues := [{ id := 63, store := [{ words := ws, seq := 0, deps := [true, true, true, true] }] }] } }

theorem test_hyps_PreemptSteps :
    (let s := head1 record1 base
     s.cur.run ≠ .unbound ∧ s.cur.pre = .running ∧ braking s = false ∧
       OneHead s 63 { words := record1, seq := 0, deps := [true, true, true, true] } ∧ recPrio record0 ≤ (launchAt s 0).prio) ∧
    ({ base.cur with deadline := some 0 }).deadline = some 0 ∧
    (let s := pre .suspending [] base
     s.cur.pre = .suspending ∧ 0 ∉ s.cur.acks ∧ 3 ∉ s.cur.acks ∧ (coreAt s 0).sbuf = [] ∧ s.cur.run = .running ∧
       s.cur.busyUntil ≤ cyc s 0 ∧ inFlight s s.cur = false ∧ (∀ r ∈ s.homes.reqs, r.ctx ≠ 0) ∧
       (∀ r ∈ s.host.pcie, r.2.ctx ≠ 0) ∧ s.disp.flight = []) ∧
    (let s := queued [command .mzero] [] (pre .suspending [] base)
     1 ∉ s.cur.acks ∧ (coreAt s 0).mq = [command .mzero] ∧ (coreAt s 0).cq = [] ∧ (coreAt s 0).out = [] ∧
       (command .mzero).finished = false) ∧
    (let s := queued [] [{ command .cpy with posted := true }] (pre .suspending [] base)
     2 ∉ s.cur.acks ∧ (coreAt s 0).cq = [{ command .cpy with posted := true }] ∧ (coreAt s 0).mq = [] ∧ (coreAt s 0).out = [] ∧
       (command .cpy).posted = false) ∧
    (let s := pre .suspending [0, 1, 2, 3] base
     0 ∈ s.cur.acks ∧ 1 ∈ s.cur.acks ∧ 2 ∈ s.cur.acks ∧ 3 ∈ s.cur.acks ∧ s.inbox = [] ∧ s.cur.fcause = 0 ∧ retargeted s 0 = false) ∧
    (let s := head1 record1 (pre .suspending [0, 1, 2, 3] base)
     let u := { s with others := [{ id := 4, run := .running, pre := .requested }], disp := { s.disp with reserved := [(4, 63)] } }
     u.cur.pre = .suspending ∧ retargeted u 0 = true) ∧ base.cur.pre ≠ .suspending ∧
    (let c : Ctx := { id := 65535, run := .running, pre := .saved }
     let s : State := { cur := { id := 65535 }, disp := { launches := [{ id := 0 }], savedCtx := [c] } }
     let held : State := { s with host := { s.host with holds := [(0, 0, 0)] } }
     s.cur.run = .unbound ∧ s.disp.savedCtx = [c] ∧ c.pre = .saved ∧ (launchAt s c.bind.launch).phase = 3 ∧
       fieldOf c.a.sr.mpart 8 8 = 0 ∧ 65535 < 65536 ∧ s.plat.gl4012 = false ∧ s.disp.reserved = [] ∧
       (clusterAt s (65535 / 4096)).out = false ∧ braking s = false ∧ (∀ x ∈ s.disp.launches, x.phase ≠ 1) ∧
       roomToResume s c = true ∧ s.host.holds = [] ∧ (∃ h ∈ held.host.holds, h.1 = c.bind.launch)) ∧
    ({ base.cur with restart := some base.cur.a }).restart = some base.cur.a ∧
    ({ base.cur with pre := .held }).pre = .held ∧ ({ base.cur with pre := .ended }).pre = .ended := by
  and_intros <;> first | rfl | decide | exact ⟨_, rfl, rfl, rfl, rfl, rfl, rfl, by decide⟩

/-- Cluster 0 alone is in service; launch 0 holds its context 0, and a launch that waits for its ranges takes every other
one; a head of priority 1 with one actor waits on queue 63. -/
def headEntry : QEntry := { words := [nat64 (7 * 2 ^ 40 + 1), nat64 (2 ^ 61), 0, 0, 0, 0, 0, 0], seq := 0, deps := [true, true, true, true] }
def hungry : Launch := { id := 1, phase := 1, module := 9, place := List.range' 1 4095 }
def crowded : State :=
  let s := head1 headEntry.words (with7 base)
  { s with clusters := s.clusters ++ (List.range 15).map (fun i => { id := i + 1, out := true })
           disp := { s.disp with launches := s.disp.launches ++ [hungry] } }

theorem crowded_ctxFree (k : Nat) : ctxFree crowded 63 k = false := by
  have hin : inService crowded = [0] := by decide +kernel
  have hl : crowded.disp.launches = [launchAt base 0, hungry] := rfl
  unfold ctxFree
  rw [hin, hl]
  by_cases h0 : k = 0
  · subst h0; decide +kernel
  · by_cases hk : k < 4096
    · have hc : hungry.place.contains k = true := List.contains_iff_mem.mpr (List.mem_range'_1.mpr (by omega))
      have hp : hungry.phase = 1 := rfl
      simp only [List.all_cons, List.all_nil, hc, hp, bne_self_eq_false, Bool.not_true, Bool.or_false, Bool.false_and, Bool.and_false]
    · have hne : clusterOf k ≠ 0 := by unfold clusterOf; omega
      simp only [List.contains_cons, List.contains_nil, beq_eq_false_iff_ne.mpr hne, Bool.or_false, Bool.false_and]

theorem crowded_placementOk (k : Nat) : placementOk crowded module7 63 [k] = false := by
  have h : [k].all (ctxFree crowded 63) = false := by simp only [List.all_cons, crowded_ctxFree, Bool.false_and]
  simp only [placementOk, fitsAt, h, Bool.and_false, Bool.false_and]

/-- A module of one instance that no context can take has no placement. -/
theorem findPlace_none {s : State} {m : Module} {q : Nat} (h1 : (instances m.actors).length = 1)
    (h : ∀ k, placementOk s m q [k] = false) : findPlace s m q = none := by
  have hf : firstFit s m q = none := by
    refine List.findSome?_eq_none_iff.mpr fun order _ => Option.bind_eq_none_iff.mpr fun f _ => ?_
    rw [h1]
    exact if_neg (by rw [show List.range 1 = [0] from rfl, List.map_singleton, h]; exact Bool.false_ne_true)
  unfold findPlace
  rw [hf]
  dsimp only
  rw [h1]
  refine ite_eq_left_iff.mpr fun _ => List.findSome?_eq_none_iff.mpr fun k _ => ?_
  rw [List.contains_nil, if_neg Bool.false_ne_true]
  exact if_neg (by rw [List.nil_append, h]; exact Bool.false_ne_true)

theorem crowded_findPlace : findPlace crowded module7 63 = none := findPlace_none (by decide) crowded_placementOk

/-- Where the head has no placement and nothing is kept, the contexts of launches of lower prio are looked at. -/
theorem holders_of {s : State} {m : Module} {h : Nat × QEntry} (hm : loaded s (recModule h.2.words) = some m)
    (hp : findPlace s m h.1 = none) (hr : s.disp.reserved = []) : holdersFor s h =
      (match (List.range (lowerLaunches s h).length).findSome? (fun i =>
          let ids := (((lowerLaunches s h).take (i + 1)).map (askable s)).flatten
          (findPlace (without ids s) m h.1).map (fun p => (p, ids))) with
      | none => []
      | some x => neededFor s m h.1 x.1 x.2) := by
  unfold holdersFor
  simp only [hm, hp, hr, List.any_nil, Option.isSome_none, Bool.or_self, Bool.false_eq_true, if_false] <;> rfl

/-- Of the two launches only launch 0 has a context that may be asked, and the head needs it. -/
theorem test_hyps_PreemptSteps_holders : holdersFor crowded (63, headEntry) = [0] := by
  rw [holders_of (h := (63, headEntry)) (m := module7) (by decide +kernel) crowded_findPlace rfl]
  decide +kernel

theorem test_hyps_PreemptSteps_request : crowded.cur.run ≠ .unbound ∧ crowded.cur.pre = .running ∧ braking crowded = false ∧
    OneHead crowded 63 headEntry ∧ (launchAt crowded 0).prio < recPrio headEntry.words := by
  and_intros <;> first | rfl | decide | exact ⟨_, rfl, rfl, rfl, rfl, rfl, rfl, by decide⟩

/-- The context stopped with a cause, which the leaf has received; with a restart record. -/
def faulted (cause : Nat) (val : Word64) (s : State) : State :=
  { s with cur := { s.cur with run := .stopped, fcause := cause, fval := val, restart := some {} }
           inbox := [{ ctx := 0, cause := cause, pc := 64, val := val }] }
def undone : Undo := { isLocal := true, cluster := 0, line := 3968, tag := 0, fe := 0xFFFF, old := 5 }
def page1 : Backed := { cluster := 0, area := 0, page := 1, entry := 0, bytes := [(65535, 1)], empty := [], poison := [] }

theorem test_hyps_FaultSteps :
    (Canon base ∧ base.inbox = []) ∧
    (∀ k ∈ [1, 2, 3, 4, 5, 6, 7, 9, 11, 12, 13, 14, 15], (faulted k 0 base).inbox = [{ ctx := 0, cause := k, pc := 64, val := 0 }] ∧
      (faulted k 0 base).cur.run = .stopped ∧ (faulted k 0 base).cur.fcause = k ∧ k ≠ 0 ∧ cutPending (faulted k 0 base) (launchAt (faulted k 0 base) 0) = false) ∧ base.host.faultHold = 0 ∧
    (let s := faulted 2 0 (launched { id := 0, stepDone := true } { base with disp := { base.disp with modules := [{ id := 0, graph := some (0, 1) }] } })
     s.inbox = [{ ctx := 0, cause := 2, pc := 64, val := 0 }] ∧ s.cur.run = .stopped ∧ s.cur.fcause = 2 ∧ cutPending s (launchAt s 0) = true) ∧
    (let s := { faulted 2 0 base with host := { base.host with faultHold := 1 } }
     0 < s.host.faultHold ∧ (∀ x ∈ ctxsOf s s.cur.bind.launch, canStop s x.id = true) ∧ s.host.tags = [] ∧ s.host.holds = [] ∧ s.cur.pre = .running) ∧
    (let s := { faulted 2 0 base with cur := base.cur }
     s.inbox = [{ ctx := 0, cause := 2, pc := 64, val := 0 }] ∧ (ctxOf s 0).run ≠ .stopped) ∧
    (let s := { pre .held [] base with host := { base.host with holds := [(0, 0, 0)] } }
     s.host.holds = [(0, 0, 0)] ∧ s.disp.savedCtx = [] ∧ s.disp.cwWaiting = [] ∧ s.cur.pre = .held ∧ s.cur.deadline = none ∧ 0 ≤ rtm s ∧ rtm s < 1) ∧
    (let s := faulted 7 0 base
     s.homes.dead = [] ∧ (∀ c ∈ s.others, c.id ≠ 0) ∧ (launchAt s 0).nonRollback = false ∧ s.cur.restart = some {} ∧
       s.cur.restartRun = .running ∧ (launchAt s 0).undo = []) ∧
    (let s := launched { id := 0, undo := [undone] } (faulted 7 0 base)
     (launchAt s 0).undo = [undone] ∧ undone.bad = none ∧ undone.isLocal = true ∧ localKey s undone.cluster undone.tag undone.line = some 3968) ∧
    (launchAt (launched { id := 0, nonRollback := true } (faulted 7 0 base)) 0).nonRollback = true ∧
    logLost (launchAt (launched { id := 0, undo := [{ undone with bad := some 5 }] } (faulted 7 0 base)) 0) = true ∧
    (let s := faulted 6 (loc 0) base
     0 % 65536 < 65473 ∧ frameOf (clusterAt s 0) s.cur.bind.area 0 = some 0) ∧
    (let e : HandleEntry := { obj 0 with length := 2 ^ 20 }
     let s := faulted 6 (loc 65536) (withObj e { base with mem := { base.mem with backing := [page1] } })
     (entryIn s.cur.handles (hv (loc 65536))).base + ov (loc 65536) = 65536 ∧ frameOf (clusterAt s 0) 0 (65536 / 65536) = none ∧
       backedPage s 0 0 1 = some page1 ∧ Memory.wf page1.bytes = true ∧
       roomFor (clusterAt s 0) (homeOf page1.entry) = true ∧ s.cur.bind.area < 65536 ∧ 65536 < 2 ^ 28) ∧
    (let m := pmOf (clusterAt base 0) 0
     pmValid m = true ∧ pmUse m = 0 ∧ pmPin m = false ∧ frameBusy base 0 0 = false ∧ pmPin (nat64 (2 ^ 63 + 2 ^ 59)) = true) := by
  unfold Canon; and_intros <;> first | rfl | decide

theorem test_hyps_FaultSteps_free : freeFrames (clusterAt base 0) 1 = [1] := by decide +kernel

/-- The page of `tables` in host bias; and a leaf with target 1 (CXL host memory). -/
def biased (s : State) : State := { s with host := { s.host with hostBias := [1] } }
def hostTables (s : State) : State :=
  { tables s with mem := { s.mem with hbm := (tables s).mem.hbm.writeN 0x23000 8 (2 ^ 63 + 2 ^ 62 + 2 ^ 60 + 2 ^ 59 + 2 ^ 58) } }

theorem test_hyps_HostLineSteps :
    Canon (tables base) ∧ walk base 0 0 = none ∧ walk (tables base) 0 0 = some hbmPage ∧ fieldOf hbmPage.pte 60 2 = 0 ∧
    (walk (hostTables base) 0 0).map (fun e => fieldOf e.pte 60 2) = some 1 ∧ (hostTables base).host.tags = [] ∧
    (let s := biased { base with homes := { base.homes with snooped := [0x10F80] } }
     0x10F80 % 128 = 0 ∧ atHostAgent s 0x10F80 = true ∧ flipping s 0x10F80 = false ∧ 0x10F80 ∈ s.homes.snooped) ∧
    (let s := biased base
     0x10F80 % 128 = 0 ∧ atHostAgent s 0x10F80 = true ∧ flipping s 0x10F80 = false ∧ (∀ k < 16, ∀ y ∈ (clusterAt s k).lines, y.home ≠ 0x10F80) ∧
       recOf s 0x10F80 = none ∧ (∀ b ∈ s.homes.busy, b.line ≠ 0x10F80) ∧ 0x10F80 ∉ s.homes.surrendered ∧
       (∃ b ∈ (homed { line := 0x10F80, agent := 0, rel := 0, ctx := 0 } s).homes.busy, b.line = 0x10F80)) ∧
    (let s := biased (caching (cached 1 true) base)
     0x10F80 % 128 = 0 ∧ atHostAgent s 0x10F80 = true ∧ flipping s 0x10F80 = false ∧ recOf s 0x10F80 = none ∧ s.homes.busy = [] ∧ 0 < 16 ∧
       0 ∉ s.homes.dead ∧ (clusterAt s 0).lines = [cached 1 true] ∧ (cached 1 true).home = 0x10F80 ∧
       ∀ k < 16, k ≠ 0 → ∀ y ∈ (clusterAt s k).lines, y.home ≠ 0x10F80) ∧
    (let s := biased (caching (cached 1 true) base)
     0 < 16 ∧ 0 ∉ s.homes.dead ∧ (clusterAt s 0).lines = [cached 1 true] ∧ (cached 1 true).home = 0x10F80 ∧ (cached 1 true).va % 128 = 0 ∧
       (cached 1 true).mask ≠ 0 ∧ atHostAgent s 0x10F80 = true) ∧
    (512 * 2 ^ 30 - 1 < 512 * 2 ^ 30 ∧ inHostBias base (512 * 2 ^ 30 - 1) = false ∧ flipping base (512 * 2 ^ 30 - 1) = false ∧ base.homes.recs = [] ∧
      (let a := 512 * 2 ^ 30 - 1
       ioTurn base (placeOf base (a / 128 * 128)).1 (a / 128 * 128) = true)) ∧
    bitOf base.host.bfctl 63 = false ∧
    (let s := { base with host := { base.host with bfctl := nat64 (2 ^ 63 + 2 ^ 61), regs := [(0x60000 + 16 * 66 + 8, 0)] } }
     bitOf s.host.bfctl 63 = true ∧ masked s 66 = false ∧ s.homes.busy = [] ∧ s.homes.recs = [] ∧ (∀ k < 16, (clusterAt s k).lines = [])) := by
  unfold Canon; and_intros <;> first | rfl | decide

def tagged (e : TagEntry) (s : State) : State := { s with host := { s.host with tags := [e] } }

theorem test_hyps_HostRegisterSteps :
    (let v := nat64 (2 ^ 63 + 65535 * 2 ^ 32 + 3 * 2 ^ 16)
     Canon base ∧ bitOf v 63 = true ∧ bitOf base.host.sdctl 63 = false ∧ fieldOf v 32 16 ≠ 0 ∧ base.host.sdva.toNat % 2 ^ 30 = 0 ∧
       fieldOf (nat64 (2 ^ 63)) 32 16 = 0 ∧ bitOf (nat64 (2 ^ 63)) 63 = true ∧
       ({ base with host := { base.host with sdva := 4095 } }).host.sdva.toNat % 4096 ≠ 0) ∧
    (let s := { base with host := { base.host with sdctl := nat64 (2 ^ 63 + 2 ^ 32) } }
     bitOf s.host.sdctl 63 = true ∧ s.homes.reqs = [] ∧ s.host.pcie = [] ∧ s.homes.calReqs = [] ∧ s.cores = [] ∧
       masked { s with host := { s.host with regs := [(0x60000 + 16 * 67 + 8, 0)] } } 67 = false) ∧
    (let x : SBEntry := { ctx := 0, isGlobal := true, asid := 0, addr := 3968, size := 8, data := 0, policy := 0, home := 0x10F80 }
     let k : Core := { id := 0, sbuf := [x] }
     let s := biased (cored k { base with host := { base.host with sdctl := nat64 (2 ^ 63 + 2 ^ 32) } })
     s.cores = [k] ∧ drainable s k.id 0 = false ∧ x.isGlobal = true ∧ x.asid = fieldOf s.host.sdctl 0 16 ∧ x.addr < 0 + 1 * 4096 ∧
       s.host.sdrun.toNat < x.addr + x.size) ∧
    (let r := posted 0 (.load 5 6) false false
     let s := { base with host := { base.host with pcie := [(0, r)] } }
     s.host.pcie = [(0, r)] ∧ r.ctx = s.cur.id ∧ r.acq = false ∧ r.zlr = false ∧ 6 < 15) ∧
    (let e : TagEntry := { tag := 255, kind := 3, who := 0 }
     let s := launched { id := 0, phase := 1 } (tagged e base)
     s.host.tags = [e] ∧ s.disp.cwWaiting = [] ∧ e.kind = 3 ∧ e.source = 0 ∧ (launchAt s e.who).phase = 1) ∧
    (let e : TagEntry := { tag := 255, kind := 2, who := 0 }
     e.tag = (255 : BitVec 8).toNat ∧ e.kind = 2 ∧ e.source = 0 ∧ e.tag ≠ (0 : BitVec 8).toNat) ∧
    (base.host.reports = [] ∧ fieldOf 4096 0 13 ∈ [0, 16, 32, 64, 128, 256, 512, 1024, 2048, 4096] ∧
      fieldOf 4095 0 13 ∉ [0, 16, 32, 64, 128, 256, 512, 1024, 2048, 4096]) ∧
    (let s := { base with host := { base.host with reports := [[1, 2, 3, 4]], frsize := 16, frtail := 0xFFFFFFFF, frhead := 0xFFFFFFEF } }
     s.host.reports = [[1, 2, 3, 4]] ∧ s.disp.cwWaiting = [] ∧ s.host.frsize ≠ 0 ∧ base.host.frsize = 0 ∧
       masked { s with host := { s.host with regs := [(0x60000 + 16 * 64 + 8, 0)] } } 64 = false ∧ (s.host.frtail - 0xFFFFFFF0).toNat ≠ s.host.frsize) ∧
    (300 ≤ fieldOf 2400 0 12 ∧ fieldOf 2400 0 12 ≤ 2400 ∧ fieldOf 299 0 12 < 300 ∧ 2400 < fieldOf 2401 0 12) ∧
    (127 < 128 ∧ ({ base with host := { base.host with pba := [127] } }).host.pba = [127] ∧ bitOf 0 32 = false ∧
      bitOf (nat64 (2 ^ 32)) 32 = true) ∧
    (bitOf (nat64 (2 ^ 7 + 18)) 7 = true ∧ fieldOf (nat64 (2 ^ 7 + 18)) 0 5 = 18 ∧ bitOf 18 7 = false) ∧
    (63 < 64 ∧ 31 < 32 ∧ 7 < 8 ∧ 0x42010 ≤ 0x42010 ∧ 0x4FFFF < 0x50000) ∧ base.cur.run ≠ .unbound ∧
    (let m := moduleAt ({ base with disp := { base.disp with modules := [leasing] } }) 0
     4 ≤ 4 ∧ 4 < 4 + m.handles.length ∧ ¬(1023 < 4 + m.handles.length) ∧ ¬(1023 : Nat) < 4) ∧
    (let x : HandleEntry := { length := 64, valid := true, r := true, w := true, space := 0 }
     (∃ y ∈ ({ base.cur with handles := [(1, x)] }).handles, y.1 = 1 ∧ y.2.space = 0 ∧ y.2.r = true ∧ y.2.w = true ∧ y.2.x = false ∧ y.2.e = false ∧
       y.2.lease = false ∧ y.2.remote = false) ∧ (0x30 : Word64).toNat % 4 = 0 ∧ (0x30 : Word64).toNat.testBit 4 = true ∧
       (0x30 : Word64).toNat.testBit 5 = true) ∧
    ((queueAt base 63).store.length ≤ 32 ∧ base.plat.pcap < 2 ^ 64 ∧ base.host.frsize < 2 ^ 64) ∧
    ((0xF6 : Word64).toNat % 4 ≠ 3 ∧ (0xF6 : Word64).toNat / 4 % 4 ≠ 3 ∧ (0xF6 : Word64).toNat.testBit 20 = false) := by
  unfold Canon; and_intros <;> first | rfl | decide

def ckpt0 : Ckpt := { queues := [], launches := [], ctxs := [], saved := [], units := [], pages := [], cal := [], locals := [], globals := [], began := 0, size := 0, digest := 0, image := 0 }

/-- Whether an image verifies is the configuration's; one of the cases of BootSteps holds of the first stage. -/
theorem test_hyps_BootSteps_images :
    let ok := fun (slot : Nat) => fuseCount State.reset.plat.fuses ≤ Config.image slot 0 ∧
      ecdsaOk Config.bootKey (Config.image slot 1) (Config.image slot 2) = true
    State.reset.plat.stage = 1 ∧ (ok 0 ∨ ¬ok 0 ∧ ok 1 ∨ ¬ok 0 ∧ ¬ok 1) ∧ (ok 2 ∨ ¬ok 2) := by
  intro ok
  exact ⟨rfl, by by_cases h : ok 0 <;> by_cases k : ok 1 <;> simp [h, k], Classical.em _⟩

/-- A set whose marker fits its image, one whose marker does not, and one with a queue. -/
def goodSet : Ckpt := { ckpt0 with digest := sha384 (Config.setImage 0), queues := [{ id := 63 }] }
def tornSet : Ckpt := { ckpt0 with digest := sha384 (Config.setImage 0) + 1 }

theorem test_hyps_BootSteps_sets : markerOk goodSet = true ∧ markerOk tornSet = false ∧
    (∀ y ∈ goodSet.ctxs ++ goodSet.saved, clusterOf y.id ∈ inService base) ∧ goodSet.queues = [{ id := 63 }] ∧
    (queueAt base 63).heldDb = [] ∧
    (plat { stage := 8, sealed := some goodSet } base).plat.sealed = some goodSet ∧
    (plat { stage := 8, sealed := some tornSet } base).plat.sealed = some tornSet ∧
    ({ sealed := some goodSet, stage := 8 } : Plat).stage ≤ 8 :=
  ⟨beq_self_eq_true _, beq_eq_false_iff_ne.mpr (Nat.succ_ne_self _), by simp [goodSet, ckpt0], rfl, rfl, rfl, rfl, Nat.le_refl _⟩

theorem test_hyps_BootSteps :
    ((plat { off := true } base).plat.off = true ∧ State.reset.plat.off = false ∧ bootStopped State.reset = false ∧
      bootStopped (plat { off := true } base) = true) ∧
    ((plat { stage := 3, strandGroups := 64 } base).plat.strandGroups = groupCount base ∧
      (plat { stage := 3, strandGroups := 63 } base).plat.strandGroups ≠ groupCount base) ∧
    (∀ n ∈ [2, 3, 4, 5, 6, 7, 8, 9, 10, 11], (plat { stage := n } base).plat.stage = n ∧ bootStopped (plat { stage := n } base) = false) ∧
    ((plat { stage := 8 } base).plat.sealed = none ∧ braking (plat { stage := 8 } base) = false ∧
      braking (plat { stage := 8, brownAt := some 0 } base) = true) ∧
    ((plat { devready := true } base).plat.devready = true ∧ (plat { devready := true } base).plat.brownAt = none ∧
      base.plat.devready = false) ∧
    (let s := plat { devready := true, brown := true, pin := true, brownAt := some 0, moment := 1000000 * 111384 } { base with disp := {} }
     s.plat.brownAt = some 0 ∧ s.plat.sealed = none ∧ s.plat.written = false ∧ 0 + 1000000 ≤ rtm s ∧ s.plat.pin = true ∧
       s.disp.queues = [] ∧ (∀ l ∈ s.disp.launches, l.phase ≠ 3) ∧ rtm base < 0 + 1000000) ∧
    (let s := plat { stage := 10, pin := true, brownAt := some 0, written := true } base
     s.plat.pin = true ∧ s.plat.brownAt = some 0 ∧ s.plat.written = true ∧ 8 < s.plat.stage ∧ s.disp.queues = []) ∧
    (let p : Plat := { stage := 8, pin := true, brownAt := some 0, written := true, sealed := some ckpt0 }
     p.pin = true ∧ p.brownAt = some 0 ∧ p.written = true ∧ p.stage ≤ 8 ∧ p.sealed = some ckpt0) ∧
    base.plat.pin = false ∧ base.plat.brownAt = none ∧ (plat { pin := true } base).plat.pin = true ∧
    (let s := plat { brown := true, calmAt := some 0, moment := 100000000 * 111384 } base
     s.plat.brown = true ∧ s.plat.devready = false ∧ s.plat.pin = false ∧ s.plat.off = false ∧ s.plat.calmAt = some 0 ∧
       0 + 100000000 ≤ rtm s ∧ rtm base < 0 + 100000000) := by
  and_intros <;> first | rfl | decide

/-- A match entry of action `n` that matches every frame, for queue 0 and serial 0. -/
def entryOfAction (n : Nat) : MatchEntry := { index := 0, w0 := 0, mask := 0, w2 := nat64 (2 ^ 63 + n * 2 ^ 61), tgt := 0 }
/-- A channel of 4 slots of 80 bytes whose QCW is at area offset 8,192 and whose slots begin at 12,288; the frame in slot 0
has 60 bytes and may be sent at tick `t`. -/
def netted (head len t : Nat) (s : State) : State :=
  let m := ((s.mem.l1.writeN 8192 8 head).writeN 8208 4 (4 + 10 * 2 ^ 16 + 2 ^ 30)).writeN 8218 2 0xFFFF
  launched { id := 0, carved := [(0, 8192, 12288)] }
    { s with mem := { s.mem with l1 := (m.writeN 12288 8 t).writeN 12296 2 len } }

theorem test_hyps_NetworkSteps_receive :
    (∀ n < 2, (entryOfAction n).mask = 0 ∧ bitOf (entryOfAction n).w2 63 = true ∧ fieldOf (entryOfAction n).w2 61 2 = n) ∧
    Canon base ∧ base.host.matchTable = [] ∧
    (let s := netted 0 0 0 { base with host := { base.host with matchTable := [entryOfAction 1] } }
     let l := launchAt s 0
     s.host.matchTable = [entryOfAction 1] ∧ boundLaunch s 0 0 = some l ∧
       ∃ c, netChan s l 0 = some c ∧ c.f.ok = true ∧ 0 < c.f.free ∧ c.slots = 12288 ∧ c.key = 8192 ∧
         12288 % 65536 + 16 + 64 ≤ 65536 ∧ localKey s c.cluster c.area 12288 = some 12288 ∧ c.key + 4 ≤ 12288) ∧
    (let s := netted 4 0 0 base
     ∃ c, netChan s (launchAt s 0) 0 = some c ∧ c.f.ok = true ∧ c.f.free = 0) := by
  refine ⟨by decide, by unfold Canon; decide, rfl, ⟨rfl, rfl, _, rfl, ?_⟩, _, rfl, ?_⟩ <;> (and_intros <;> decide)

theorem test_hyps_NetworkSteps_transmit :
    (let s := netted 1 60 0 base
     let l := launchAt s 0
     ∃ c, netChan s l 0 = some c ∧ l.phase = 3 ∧ txReady l 0 c = true ∧ lengthOk (slotLength s c) c.f.size = true ∧
       slotTime s c ≤ rtm s ∧ itsTurn s (slotPort s c) (0, 0) = true) ∧
    (let s := netted 1 59 0 base
     ∃ c, netChan s (launchAt s 0) 0 = some c ∧ txReady (launchAt s 0) 0 c = true ∧ lengthOk (slotLength s c) c.f.size = false) ∧
    (let s := netted 1 60 1 base
     ∃ c, netChan s (launchAt s 0) 0 = some c ∧ lengthOk (slotLength s c) c.f.size = true ∧ rtm s < slotTime s c) := by
  refine ⟨⟨_, rfl, ?_⟩, ⟨_, rfl, ?_⟩, _, rfl, ?_⟩ <;> (and_intros <;> first | rfl | decide)

/-- A slot taken of a launch that has ended. -/
def leftSlot (ok : Bool) (t : Nat) : TxSlot := { launch := 0, chan := 0, port := 0, time := t, ok := ok, frame := [1] }
def leaving (x : TxSlot) (s : State) : State := { s with host := { s.host with txLeft := [x] } }

theorem test_hyps_NetworkSteps_left :
    (leaving (leftSlot false 0) base).host.txLeft = [leftSlot false 0] ∧ (leftSlot false 0).ok = false ∧
    (let x := leftSlot true 0
     x.ok = true ∧ x.time ≤ rtm base ∧ itsTurn (leaving x base) x.port (0, 0) = true) ∧
    (leftSlot true 1).ok = true ∧ rtm base < (leftSlot true 1).time ∧ base.host.txLeft = [] := by
  and_intros <;> first | rfl | decide

/-! ### Steps, invariants -/

/-- The next turn; and `s` with the block at the PC resident and handle 2 over the code. -/
def nextTurn (u : Turn) (s : State) : State := { s with agenda := [u] }
def codeHandle : HandleEntry := { length := 4096, valid := true, x := true, space := 1 }
def runnable (s : State) : State :=
  putCluster { clusterAt s 0 with blocks := [{ module := 0, entry := 64, words := 1, used := 0 }] }
    (booted { s with cur := { s.cur with handles := (2, codeHandle) :: s.cur.handles, half0 := true } })
/-- The state in which the issuing context issues at the turn. -/
def issuing (s : State) : State := switchTo 0 { passTime s with agenda := [] }

theorem test_hyps_StepRuns :
    (let s := nextTurn (.ctx 0) (runnable (code 64 0x0CA6FFFC base))
     Turning false 0 [] s (issuing s) ∧ fetch (issuing s) = .word 0x0CA6FFFC#32 ∧ hasBlock (issuing s) (issuing s).cur = true ∧
       (wordAccess 0x0CA6FFFC#32 (issuing s)).bind (fun x => x.blocked (issuing s)) = none ∧
       decodeAt (myModule (issuing s)).rev 0x0CA6FFFC#32 = .ok (.addi 5 6 0xFFFC)) ∧
    (let s := nextTurn (.late 0) (runnable (code 64 0x38000000 base))
     Turning true 0 [] s (issuing s) ∧ fetch (issuing s) = .word 0x38000000#32 ∧ hasBlock (issuing s) (issuing s).cur = true ∧
       decodeAt (myModule (issuing s)).rev 0x38000000#32 = .error .reservedMajor) :=
  ⟨⟨⟨rfl, rfl, rfl, rfl, rfl⟩, rfl, rfl, rfl, rfl⟩, ⟨rfl, rfl, rfl, rfl, rfl⟩, rfl, rfl, rfl⟩

/-- Beyond the end of the code; where handle 2 has no X; inside a group of two words; at a PC without a block; and a
turn of a context that is idle. -/
theorem test_hyps_StepRuns_not_issued :
    (let s := nextTurn (.ctx 0) (runnable (atPc 4096 base))
     Turning false 0 [] s (issuing s) ∧ fetch (issuing s) = .ended) ∧
    (let s := nextTurn (.ctx 0) (booted { base with cur := { base.cur with half0 := true, handles := [(2, { codeHandle with x := false })] } })
     Turning false 0 [] s (issuing s) ∧ fetch (issuing s) = .barred { cause := .perm, val := mkPtr 2 64 }) ∧
    (let s := nextTurn (.ctx 0) (runnable (atPc 68 (code 64 0xFC000001 (code 68 0x0CA6FFFC base))))
     Turning false 0 [] s (issuing s) ∧ fetch (issuing s) = .inside 0x0CA6FFFC#32) ∧
    (let s := nextTurn (.ctx 0) (runnable (atPc 72 (code 72 0x0CA6FFFC base)))
     Turning false 0 [] s (issuing s) ∧ fetch (issuing s) = .word 0x0CA6FFFC#32 ∧ hasBlock (issuing s) (issuing s).cur = false) ∧
    (let s := nextTurn (.ctx 0) (running .idle base)
     ctxExists (passTime s) 0 = true ∧ ready { passTime s with agenda := [] } (ctxOf { passTime s with agenda := [] } 0) = false) :=
  ⟨⟨⟨rfl, rfl, rfl, rfl, rfl⟩, rfl⟩, ⟨⟨rfl, rfl, rfl, rfl, rfl⟩, rfl⟩, ⟨⟨rfl, rfl, rfl, rfl, rfl⟩, rfl⟩,
    ⟨⟨rfl, rfl, rfl, rfl, rfl⟩, rfl, rfl⟩, rfl, rfl⟩

/-- A plain load of a LOCAL word that is still posted; and a device's turn. -/
theorem test_hyps_StepRuns_posted :
    (let y : Post := { ptr := loc 8, entry := obj 0, n := 8, d := 5, fmt := 6 }
     let s := nextTurn (.post 0 0) { base with cur := { base.cur with posted := [y] } }
     let u := { issuing s with cur := { (issuing s).cur with posted := (issuing s).cur.posted.eraseIdx 0, stream := none } }
     ctxExists (passTime s) 0 = true ∧ postFree (issuing s) y = true ∧ (issuing s).cur.posted[0]? = some y ∧
       (match plainLoad y.ptr y.entry y.n (.load y.d y.fmt) u with | .ok raw _ => some raw | _ => none) = some 0 ∧ y.fmt ≠ pairFmt) ∧
    (nextTurn (.dev (.sweepPass 15)) base).agenda = [.dev (.sweepPass 15)] ∧ (Instr.sweepPass 15).isWord = false ∧
    (nextTurn (.error 0x10F80 16384 true) base).agenda = [.error 0x10F80 16384 true] ∧
    (nextTurn (.badLog 0 0 16384) base).agenda = [.badLog 0 0 16384] :=
  ⟨⟨rfl, rfl, rfl, rfl, by decide⟩, rfl, rfl, rfl, rfl⟩

theorem test_hyps_StepAnswers : ctxExists (passTime (nextTurn (.ctx 65536) base)) 65536 = false := rfl

theorem test_hyps_StepKeepsMemory : Canon (nextTurn (.dev .elclr) base) ∧ ∃ t, step (nextTurn (.dev .elclr) base) = .next t :=
  ⟨by unfold Canon; decide, _, rfl⟩

theorem test_hyps_StepKeepsClocks : Legal (nextTurn (.dev .elclr) base) := by
  unfold Legal CodeOk; and_intros <;> decide

/-- One instruction of the frame that completes, and one that raises a fault. -/
theorem test_hyps_RegisterFrame : exec (.add 5 6 7) (regs 1 2) = .next (retire (wr 5 3 (regs 1 2))) ∧
    (match exec (.mkp 5 6 7) (regs 1024 0) with | .next t => some (t.cur.run, t.cur.fcause) | _ => none) = some (.stopped, 2) :=
  ⟨rfl, by decide⟩

/-- A row's word is decoded, and step runs it after reset. -/
theorem test_fetch_word : decodeTableWord 32 0x24A01234 = some (.lui 5 0x1234) ∧
    (match step (State.reset.withFetchWord 32 0x24A01234) with | .next t => some (rd t 5) | _ => none) = some 0x12340000 :=
  ⟨rfl, rfl⟩

/-- R320's entry: valid in bit 31, transit in bit 30, the context in bits 15..0. -/
theorem test_rank_word : rankWord { valid := true, transit := true, ctx := 5 } = 0xC0000005#32 := by decide

/-- R364's entry: LOCAL in bit 63 of word 0 with the line, then tag, full/empty bits and step in word 1. -/
theorem test_undo_words :
    (undoWords 2 { isLocal := true, cluster := 0, line := 0x80, tag := 3, fe := 0xFFFF, old := 1 }).take 2 =
      [0x8000000000000080, 0x00000002FFFF0003] := rfl

end Sys2Proof.Tests
end

section
/-!
PROOF. Control transfers (R18, R105-R110): what a direct and a register target lead to, and the six branches, LOOP,
jumps and calls in terms of them.
-/

namespace Sys2Proof.Proofs

open Sys2Proof Sys2Proof.Machine Sys2Proof.Claims

/-! ### Targets -/

/-- A direct target in the code passes the check of R105. -/
theorem target_of_inCode {s : State} {disp : Int} (h : inCode s (direct s disp)) :
    target s disp = .ok (wrap64 (direct s disp)) := by
  rcases target_cases s disp with ⟨_, _, ok⟩ | ⟨out, _⟩
  · exact ok
  · obtain ⟨lo, hi⟩ := h
    exact absurd out (not_or.mpr ⟨not_lt.mpr lo, not_le.mpr hi⟩)

/-- A direct target outside the code is BOUNDS with the target as the fault value (R105). -/
theorem target_of_not_inCode {s : State} {disp : Int} (h : ¬inCode s (direct s disp)) :
    target s disp = .error ⟨.bounds, wrap64 (direct s disp)⟩ := by
  rcases target_cases s disp with ⟨lo, hi, _⟩ | ⟨_, fault⟩
  · exact absurd ⟨lo, hi⟩ h
  · exact fault

/-- An instruction that goes on, as `k` says, at a direct target: to that target, or to BOUNDS and no further. -/
theorem exec_of_target {i : Instr} {s : State} {disp : Int} {k : Word64 → Out}
    (hi : exec i s = orTrap s (target s disp) k) :
    (inCode s (direct s disp) → exec i s = k (wrap64 (direct s disp))) ∧
    (¬inCode s (direct s disp) → Raises i s .bounds (wrap64 (direct s disp))) := by
  constructor
  · intro h
    rw [hi, target_of_inCode h, orTrap_ok]
  · intro h
    rw [Raises, hi, target_of_not_inCode h, orTrap_error]

/-- An instruction that goes on, as `o` says, once a register target passes the checks of R110: BOUNDS comes before
ALIGN. -/
theorem exec_of_checkTarget {i : Instr} {s : State} {v : Word64} {o : Out}
    (hi : exec i s = orTrap s (checkTarget s v) fun _ => o) :
    (v.toNat < (myModule s).codeSize ∧ v.toNat % 4 = 0 → exec i s = o) ∧
    ((myModule s).codeSize ≤ v.toNat → Raises i s .bounds v) ∧
    (v.toNat < (myModule s).codeSize ∧ v.toNat % 4 ≠ 0 → Raises i s .align v) := by
  rw [Raises, Raises, hi]
  rcases checkTarget_cases s v with ⟨lt, al, e⟩ | ⟨ge, e⟩ | ⟨lt, al, e⟩ <;> rw [e]
  · exact ⟨fun _ => rfl, fun h => absurd lt (not_lt.mpr h), fun h => absurd al h.2⟩
  · exact ⟨fun h => absurd h.1 (not_lt.mpr ge), fun _ => rfl, fun h => absurd h.1 (not_lt.mpr ge)⟩
  · exact ⟨fun h => absurd h.2 al, fun h => absurd lt (not_lt.mpr h), fun _ => rfl⟩

/-! ### Branches and LOOP -/

/-- A branch whose condition decides `p` (R105): the target matters only where `p` holds. -/
theorem exec_of_branch {i : Instr} {c : Bool} {x : BitVec 16} {s : State} {p : Prop}
    (hi : exec i s = branch c x s) (hc : c = true ↔ p) :
    let t := direct s (immS s 16 x.toNat)
    (¬p → exec i s = .next (retire (noBrp s))) ∧
    (p ∧ inCode s t → exec i s = .next (setPc (wrap64 t) (noBrp s))) ∧
    (p ∧ ¬inCode s t → Raises i s .bounds (wrap64 t)) := by
  cases c with
  | false =>
    have np : ¬p := fun h => absurd (hc.mpr h) Bool.false_ne_true
    exact ⟨fun _ => hi, fun h => absurd h.1 np, fun h => absurd h.1 np⟩
  | true =>
    obtain ⟨go, fault⟩ := exec_of_target hi
    exact ⟨fun h => absurd (hc.mp rfl) h, fun h => go h.2, fun h => fault h.2⟩

/-- LOOP where the decremented counter is zero (R108). -/
theorem exec_loop_of_eq_zero {a : Reg} {x : BitVec 16} {s : State} (h : rd s a - 1 = 0) :
    exec (.loop a x) s = .next (retire (noBrp (wr a 0 s))) := by
  rw [← h]
  exact if_neg (not_not.mpr h)

/-- LOOP where the decremented counter is not zero is a transfer to a direct target (R108). -/
theorem exec_loop_of_ne_zero {a : Reg} {x : BitVec 16} {s : State} (h : rd s a - 1 ≠ 0) :
    exec (.loop a x) s = orTrap s (target s (immS s 16 x.toNat)) fun t =>
      .next (setPc t (noBrp (wr a (rd s a - 1) s))) := if_pos h

/-- The counter that the statement counts down as an integer (R108). -/
theorem wrap64_xs_sub_one (s : State) (a : Reg) : wrap64 (xs s a - 1) = rd s a - 1 := by
  rw [wrap64, xs, Int.sub_eq_add_neg, BitVec.ofInt_add, BitVec.ofInt_toInt, BitVec.ofInt_neg, BitVec.sub_eq_add_neg]
  rfl

/-! ### The conditions of R106 -/

theorem rd_beq_iff (s : State) (a b : Reg) : (rd s a == rd s b) = true ↔ xn s a = xn s b := by
  rw [beq_iff_eq, xn, xn, BitVec.toNat_inj]

theorem rd_bne_iff (s : State) (a b : Reg) : (rd s a != rd s b) = true ↔ xn s a ≠ xn s b := by
  rw [bne_iff_ne, ne_eq, ne_eq, xn, xn, BitVec.toNat_inj]

theorem rd_slt_iff (s : State) (a b : Reg) : (rd s a).slt (rd s b) = true ↔ xs s a < xs s b :=
  BitVec.slt_iff_toInt_lt

theorem rd_not_slt_iff (s : State) (a b : Reg) : (!(rd s a).slt (rd s b)) = true ↔ xs s a ≥ xs s b := by
  rw [Bool.not_eq_true', ← Bool.not_eq_true, rd_slt_iff, not_lt, ge_iff_le]

theorem rd_ult_iff (s : State) (a b : Reg) : (rd s a).ult (rd s b) = true ↔ xn s a < xn s b :=
  BitVec.ult_iff_toNat_lt

theorem rd_not_ult_iff (s : State) (a b : Reg) : (!(rd s a).ult (rd s b)) = true ↔ xn s a ≥ xn s b := by
  rw [Bool.not_eq_true', ← Bool.not_eq_true, rd_ult_iff, not_lt, ge_iff_le]

/-- Settles O13: each transfer is a check of its target followed by one update of the state, so the two lemmas about
targets answer every clause. -/
theorem transfers : Obligations.Transfers := by
  unfold Obligations.Transfers
  refine ⟨?branches, ?loop, ?jumps⟩
  case branches =>
    rintro i a b x s p (⟨rfl, hp⟩ | ⟨rfl, hp⟩ | ⟨rfl, hp⟩ | ⟨rfl, hp⟩ | ⟨rfl, hp⟩ | ⟨rfl, hp⟩)
    · exact exec_of_branch rfl ((rd_beq_iff s a b).trans hp.symm)
    · exact exec_of_branch rfl ((rd_bne_iff s a b).trans hp.symm)
    · exact exec_of_branch rfl ((rd_slt_iff s a b).trans hp.symm)
    · exact exec_of_branch rfl ((rd_not_slt_iff s a b).trans hp.symm)
    · exact exec_of_branch rfl ((rd_ult_iff s a b).trans hp.symm)
    · exact exec_of_branch rfl ((rd_not_ult_iff s a b).trans hp.symm)
  case loop =>
    intro a x s
    rw [wrap64_xs_sub_one]
    refine ⟨fun h => ?_, fun h => ?_, fun h => ?_⟩
    · rw [h]
      exact exec_loop_of_eq_zero h
    · exact (exec_of_target (exec_loop_of_ne_zero h.1)).1 h.2
    · exact (exec_of_target (exec_loop_of_ne_zero h.1)).2 h.2
  case jumps =>
    intro x a s
    obtain ⟨jmp, jmpBounds⟩ := exec_of_target (i := .jmp x) (s := s) rfl
    obtain ⟨call, callBounds⟩ := exec_of_target (i := .call x) (s := s) rfl
    obtain ⟨jr, jrBounds, jrAlign⟩ := exec_of_checkTarget (i := .jr a) (s := s) rfl
    obtain ⟨callr, callrBounds, callrAlign⟩ := exec_of_checkTarget (i := .callr a) (s := s) rfl
    exact ⟨fun h => ⟨jmp h, call h⟩, fun h => ⟨jmpBounds h, callBounds h⟩, fun h => ⟨jr h, callr h⟩,
      fun h => ⟨jrBounds h, callrBounds h⟩, fun h => ⟨jrAlign h, callrAlign h⟩⟩

end Sys2Proof.Proofs
end

section
/-!
PROOF. Lanes (R36, R39, R40, R116): what a lane of a register and of an assembled word is, the clamps of R40 as one
result with its flag, and when a member is lane-wise.
-/

namespace Sys2Proof.Proofs

open Sys2Proof Sys2Proof.Machine Sys2Proof.Claims

/-! ### Lanes of a word -/

theorem lane_toNat (v : Word64) (n k : Nat) : lane v.toNat n k = (v.extractLsb' (n * k) n).toNat := by
  rw [lane, BitVec.extractLsb'_toNat, Nat.shiftRight_eq_div_pow]

theorem nl_eq_lane (s : State) (r : Reg) (n k : Nat) : nl s r n k = (lane (rd s r).toNat n k : Nat) := by
  rw [nl, lane_toNat]

/-- Sext of a lane (R39) is its signed value. -/
theorem sext_lane (s : State) (r : Reg) (n k : Nat) : sext (lane (rd s r).toNat n k) n = sl s r n k := by
  rw [sl, lane_toNat, sext, Nat.mod_eq_of_lt (BitVec.isLt _), BitVec.toInt_eq_toNat_cond]

theorem ofNat_wrapN (x : Int) (n : Nat) : BitVec.ofNat n (wrapN x n) = BitVec.ofInt n x := by
  apply BitVec.eq_of_toNat_eq
  rw [BitVec.toNat_ofNat, BitVec.toNat_ofInt, wrapN, Nat.mod_eq_of_lt]
  have pos : (0 : Int) < (2 ^ n : Nat) := by positivity
  have lt := Int.emod_lt_of_pos x pos
  have nonneg := Int.emod_nonneg x pos.ne'
  omega

/-- Lane `k` of assembled lanes (R36) is the k-th of them. -/
theorem lane_packLanes (w : Nat) (xs : List Nat) (k : Nat) (hk : k < xs.length) :
    lane (packLanes w xs) w k = xs[k] % 2 ^ w := by
  induction xs generalizing k with
  | nil => exact absurd hk (Nat.not_lt_zero k)
  | cons x xs ih =>
    have low : x % 2 ^ w < 2 ^ w := Nat.mod_lt _ (by positivity)
    cases k with
    | zero => simp [lane, packLanes]
    | succ k =>
      have drop : lane (packLanes w (x :: xs)) w (k + 1) = lane (packLanes w xs) w k := by
        rw [lane, lane, packLanes, Nat.mul_add_one, Nat.add_comm (w * k), Nat.pow_add, ← Nat.div_div_eq_div_mul,
          Nat.add_mul_div_left _ _ (by positivity), Nat.div_eq_of_lt low, Nat.zero_add]
      rw [drop, ih k (Nat.lt_of_succ_lt_succ hk), List.getElem_cons_succ]

/-- Lane `k` of the word that a function of the lane number fills. -/
theorem extract_packLanes_range {n k : Nat} (f : Nat → Nat) (hk : k < 64 / n) :
    (nat64 (packLanes n ((List.range (64 / n)).map f))).extractLsb' (n * k) n = BitVec.ofNat n (f k) := by
  have fits : n * k + n ≤ 64 := (Nat.mul_le_mul_left n (Nat.succ_le_of_lt hk)).trans (Nat.mul_div_le 64 n)
  have pick := lane_packLanes n ((List.range (64 / n)).map f) k (by simpa using hk)
  rw [List.getElem_map, List.getElem_range, lane] at pick
  have split : 2 ^ 64 = 2 ^ (n * k) * 2 ^ (64 - n * k) := by rw [← Nat.pow_add]; congr 1; omega
  apply BitVec.eq_of_toNat_eq
  rw [BitVec.extractLsb'_toNat, BitVec.toNat_ofNat, nat64, BitVec.toNat_ofNat, Nat.shiftRight_eq_div_pow, ← pick,
    split, Nat.mod_mul_right_div_self, Nat.mod_mod_of_dvd _ (Nat.pow_dvd_pow 2 (by omega))]

/-! ### Clamps (R40) -/

/-- The result of a clamp, with OV if it changes the value. -/
def clamped (clamp : Int → Int) (x : Int) : Int × Nat := (clamp x, if clamp x = x then 0 else fOV)

theorem quiet_of_eq {x y : Int} (h : x = y) : quiet x = clamped same y := by
  rw [quiet, clamped, same, if_pos rfl, h]

theorem truth_of_iff {b : Bool} {p : Prop} [Decidable p] (h : b = true ↔ p) :
    truth b = clamped same (if p then -1 else 0) :=
  quiet_of_eq (if_congr h rfl rfl)

/-- The three cases of a clamp to an interval. -/
theorem clampBetween_eq {lo hi : Int} (h : lo ≤ hi) (x : Int) :
    (if x < lo then (lo, fOV) else if hi < x then (hi, fOV) else (x, 0)) =
      clamped (fun x => max lo (min x hi)) x := by
  by_cases below : x < lo
  · rw [if_pos below, clamped, min_eq_left (by omega), max_eq_left below.le, if_neg below.ne']
  · by_cases above : hi < x
    · rw [if_neg below, if_pos above, clamped, min_eq_right above.le, max_eq_right h, if_neg above.ne]
    · rw [if_neg below, if_neg above, clamped, min_eq_left (not_lt.mp above), max_eq_right (not_lt.mp below),
        if_pos rfl]

theorem satI_eq_clamped (x : Int) (n : Nat) : satI x n = clamped (clampS n) x := by
  have pos : (0 : Int) < 2 ^ (n - 1) := by positivity
  rw [satI, Nat.cast_pow, Nat.cast_ofNat]
  exact clampBetween_eq (by omega) x

theorem satN_eq_clamped (x : Int) (n : Nat) : satN x n = clamped (clampN n) x := by
  have pos : (0 : Int) < 2 ^ n := by positivity
  rw [satN, Nat.cast_pow, Nat.cast_ofNat]
  exact clampBetween_eq (by omega) x

/-- Rounding half up with a power of two as the unit (R40). -/
theorem roundQ_eq_roundHalf (x : Int) (n : Nat) : roundQ x n = roundHalf x n := by
  cases n with
  | zero =>
    rw [roundQ, roundHalf, if_pos rfl, pow_zero, Nat.zero_add, pow_one]
    omega
  | succ n =>
    rw [roundQ, roundHalf, if_neg n.succ_ne_zero, Nat.add_sub_cancel, Nat.cast_pow, Nat.cast_pow, Nat.cast_ofNat,
      pow_succ' 2 (n + 1), ← Int.mul_ediv_mul_of_pos _ _ (by norm_num : (0 : Int) < 2)]
    congr 1
    ring

theorem satQ_eq_clamped (x : Int) (m n : Nat) : satQ x m n = clamped (clampS n) (roundHalf x m) := by
  rw [satQ, satI_eq_clamped, roundQ_eq_roundHalf]

/-- The flags of clamped values: OV exactly when one of them changes. -/
theorem orFlags_clamped (clamp : Int → Int) (xs : List Int) :
    orFlags (xs.map fun x => (clamped clamp x).2) = fOV ∧ (∃ x ∈ xs, clamp x ≠ x) ∨
    orFlags (xs.map fun x => (clamped clamp x).2) = 0 ∧ ∀ x ∈ xs, clamp x = x := by
  induction xs with
  | nil => exact .inr ⟨rfl, by simp⟩
  | cons x xs ih =>
    simp only [List.map_cons, orFlags, clamped, List.exists_mem_cons_iff, List.forall_mem_cons] at ih ⊢
    by_cases hx : clamp x = x
    · simpa [hx] using ih
    · rcases ih with ⟨e, -⟩ | ⟨e, -⟩ <;> exact .inl ⟨by rw [e, if_neg hx]; rfl, .inl hx⟩

/-! ### Lane-wise members -/

theorem addFlags_zero (s : State) : addFlags 0 s = s := by
  simp [addFlags, nat64]

theorem put_eq_putF (d : Reg) (v : Word64) (s : State) : put d v s = putF d (v, 0) s := by
  rw [put_eq, putF_eq, addFlags_zero]

/-- A member that assembles clamped lanes is lane-wise. -/
theorem laneWise_of_assemble {i : Instr} {s : State} {d : Reg} {n : Nat} {clamp : Int → Int} {x : Nat → Int}
    (hi : exec i s = putF d (assemble n ((List.range (64 / n)).map fun k => clamped clamp (x k))) s) :
    LaneWise i s d n clamp x := by
  refine ⟨_, _, hi.trans (putF_eq d _ s), fun k hk => ?_, ?_⟩
  · rw [assemble, List.map_map, extract_packLanes_range _ hk]
    exact ofNat_wrapN _ n
  · have flags := orFlags_clamped clamp ((List.range (64 / n)).map x)
    simpa [assemble, Function.comp_def] using flags

/-- A member that writes, without a flag, a word whose lanes are known is lane-wise. -/
theorem laneWise_of_put {i : Instr} {s : State} {d : Reg} {v : Word64} {n : Nat} {x : Nat → Int}
    (hi : exec i s = put d v s) (hv : ∀ k, k < 64 / n → v.extractLsb' (n * k) n = BitVec.ofInt n (x k)) :
    LaneWise i s d n same x :=
  ⟨v, 0, hi.trans (put_eq_putF d v s), hv, .inr ⟨rfl, fun _ _ => rfl⟩⟩

end Sys2Proof.Proofs
end

section
/-!
PROOF. Packed products (R117, R119, R121) and lane moves (R121, R122), from what a packed member does with the lanes of
its operands.
-/

namespace Sys2Proof.Proofs

open Sys2Proof Sys2Proof.Machine Sys2Proof.Claims

/-! ### Members that go lane by lane (R116) -/

section Packed

variable {i : Instr} {s : State} {d a b : Reg} {w : BitVec 2} {clamp : Int → Int}

/-- A packed member on two registers whose lane function gives the clamp of a formula `g` in the unsigned and signed
lanes. -/
theorem laneWise_packed2 {f : Nat → Nat → Nat → Int → Int → Int × Nat} (g : Int → Int → Int → Int → Int)
    (hi : exec i s = packed2 f d a b w s) (hf : ∀ (p q : Nat) x y, f (laneBits w) p q x y = clamped clamp (g p q x y)) :
    let n := laneBits w
    LaneWise i s d n clamp fun k => g (nl s a n k) (nl s b n k) (sl s a n k) (sl s b n k) := by
  apply laneWise_of_assemble
  rw [hi, packed2, lanes2]
  simp only [nl_eq_lane, sext_lane, hf]

/-- The same on one register. -/
theorem laneWise_packed1 {f : Nat → Nat → Int → Int × Nat} (g : Int → Int → Int)
    (hi : exec i s = packed1 f d a w s) (hf : ∀ (p : Nat) x, f (laneBits w) p x = clamped clamp (g p x)) :
    let n := laneBits w
    LaneWise i s d n clamp fun k => g (nl s a n k) (sl s a n k) := by
  apply laneWise_of_assemble
  rw [hi, packed1, lanes1, lanes2]
  simp only [nl_eq_lane, sext_lane, hf]

end Packed

/-! ### Dot products -/

theorem sumInt_append (xs : List Int) (y : Int) : sumInt (xs ++ [y]) = sumInt xs + y := by
  induction xs with
  | nil => simp [sumInt]
  | cons x xs ih => rw [List.cons_append, sumInt, sumInt, ih, Int.add_assoc]

theorem sumInt_map_range (f : Nat → Int) (l : Nat) : sumInt ((List.range l).map f) = sumTo f l := by
  induction l with
  | zero => rfl
  | succ l ih => rw [List.range_succ, List.map_append, List.map_singleton, sumInt_append, ih, sumTo]

theorem dot_map_range (f g : Nat → Int) (l : Nat) :
    dot ((List.range l).map f) ((List.range l).map g) = sumTo (fun k => f k * g k) l := by
  rw [dot, List.zip_map', List.map_map]
  exact sumInt_map_range _ l

theorem signedLanes_eq (s : State) (r : Reg) (n : Nat) :
    signedLanes (rd s r) n = (List.range (64 / n)).map (sl s r n) := by
  simp only [signedLanes, sext_lane]

theorem unsignedLanes_eq (s : State) (r : Reg) (n : Nat) :
    unsignedLanes (rd s r) n = (List.range (64 / n)).map (nl s r n) := by
  simp only [unsignedLanes, ← nl_eq_lane]

theorem satI_flag (t : Int) (n : Nat) : (satI t n).2 = if clampS n t = t then 0 else fOV := by
  rw [satI_eq_clamped, clamped]

theorem satN_flag (t : Int) (n : Nat) : (satN t n).2 = if clampN n t = t then 0 else fOV := by
  rw [satN_eq_clamped, clamped]

/-- PDOT adds the signed lane products to the destination (R119). -/
theorem givesF_pdot {d a b : Reg} {w : BitVec 2} {s : State} {t : Int}
    (ht : t = xs s d + sumTo (fun k => sl s a (laneBits w) k * sl s b (laneBits w) k) (64 / laneBits w)) :
    GivesF (.pdot d a b w) s d (wrap64 t) (if clampS 64 t = t then 0 else fOV) := by
  rw [← dot_map_range, ← signedLanes_eq, ← signedLanes_eq] at ht
  rw [← satI_flag, ht]
  rfl

/-- PDOTN adds the unsigned ones. -/
theorem givesF_pdotn {d a b : Reg} {w : BitVec 2} {s : State} {t : Int}
    (ht : t = xn s d + sumTo (fun k => nl s a (laneBits w) k * nl s b (laneBits w) k) (64 / laneBits w)) :
    GivesF (.pdotn d a b w) s d (wrap64 t) (if clampN 64 t = t then 0 else fOV) := by
  rw [← dot_map_range, ← unsignedLanes_eq, ← unsignedLanes_eq] at ht
  rw [← satN_flag, ht]
  rfl

/-- Settles O16: each member's lane function is the clamp of its formula, and the dot products are sums over the
lanes. -/
theorem packedProducts : Obligations.PackedProducts := by
  unfold Obligations.PackedProducts
  intro d a b w i s _ n x y p q sh
  refine ⟨?eq, ?lt, ?ltn, ?sllv, ?srlv, ?srav, ?mul, ?mulh, ?mulhn, ?mulq, fun _ => ⟨?slli, ?srli, ?srai, ?srari⟩,
    ?dot, ?dotn⟩
  case eq => exact laneWise_packed2 (fun p q _ _ => if p = q then -1 else 0) rfl fun p q _ _ => truth_of_iff (by simp)
  case lt => exact laneWise_packed2 (fun _ _ x y => if x < y then -1 else 0) rfl fun _ _ x y => truth_of_iff (by simp)
  case ltn => exact laneWise_packed2 (fun p q _ _ => if p < q then -1 else 0) rfl fun p q _ _ => truth_of_iff (by simp)
  case sllv =>
    exact laneWise_packed2 (fun p q _ _ => p * 2 ^ (q % n).toNat) rfl fun p q _ _ => quiet_of_eq (by push_cast; rfl)
  case srlv =>
    exact laneWise_packed2 (fun p q _ _ => p / 2 ^ (q % n).toNat) rfl fun p q _ _ => quiet_of_eq (by push_cast; rfl)
  case srav =>
    exact laneWise_packed2 (fun _ q x _ => x / 2 ^ (q % n).toNat) rfl fun _ q x _ => quiet_of_eq (by push_cast; rfl)
  case mul => exact laneWise_packed2 (fun _ _ x y => x * y) rfl fun _ _ _ _ => quiet_of_eq rfl
  case mulh => exact laneWise_packed2 (fun _ _ x y => x * y / 2 ^ n) rfl fun _ _ _ _ => quiet_of_eq (by push_cast; rfl)
  case mulhn => exact laneWise_packed2 (fun p q _ _ => p * q / 2 ^ n) rfl fun _ _ _ _ => quiet_of_eq (by push_cast; rfl)
  case mulq =>
    exact laneWise_packed2 (fun _ _ x y => roundHalf (x * y) (n - 1)) rfl fun _ _ _ _ => satQ_eq_clamped _ _ _
  case slli => exact laneWise_packed1 (fun p _ => p * 2 ^ i.toNat) rfl fun _ _ => quiet_of_eq (by push_cast; rfl)
  case srli => exact laneWise_packed1 (fun p _ => p / 2 ^ i.toNat) rfl fun _ _ => quiet_of_eq (by push_cast; rfl)
  case srai => exact laneWise_packed1 (fun _ x => x / 2 ^ i.toNat) rfl fun _ _ => quiet_of_eq (by push_cast; rfl)
  case srari =>
    exact laneWise_packed1 (fun _ x => roundHalf x i.toNat) rfl fun _ _ => quiet_of_eq (roundQ_eq_roundHalf _ _)
  case dot => exact fun t ht => givesF_pdot ht
  case dotn => exact fun t ht => givesF_pdotn ht

/-! ### Packing and unpacking (R121) -/

/-- The lanes of one list after those of another, as one list. -/
theorem map_range_append {α : Type} (f g : Nat → α) (l : Nat) :
    (List.range l).map f ++ (List.range l).map g =
      (List.range (l + l)).map fun k => if k < l then f k else g (k - l) := by
  rw [List.range_add, List.map_append, List.map_map]
  congr 1 <;> refine List.map_congr_left fun k hk => ?_
  · rw [if_pos (List.mem_range.mp hk)]
  · simp

/-- Twice as many lanes of half the width. -/
theorem lanes_half {w : BitVec 2} (hw : w.toNat < 3) :
    64 / (laneBits w / 2) = 64 / laneBits w + 64 / laneBits w := by
  rw [laneBits]
  generalize w.toNat = m at hw
  interval_cases m <;> rfl

/-- A pack is lane-wise over the lanes of `a` and then of `b` if its lane function gives clamped values. -/
theorem laneWise_pack {i : Instr} {s : State} {d a b : Reg} {w : BitVec 2} {clamp : Int → Int}
    {f : Nat → Nat → Int → Int × Nat} (g : Int → Int → Int) (hw : w.toNat < 3)
    (hi : exec i s = putF d (pack w f (rd s a) (rd s b)) s)
    (hf : ∀ (p : Nat) x, f (laneBits w / 2) p x = clamped clamp (g p x)) :
    let n := laneBits w
    let lanes := fun r k => g (nl s r n k) (sl s r n k)
    LaneWise i s d (n / 2) clamp fun k => if k < 64 / n then lanes a k else lanes b (k - 64 / n) := by
  apply laneWise_of_assemble
  rw [hi, pack, map_range_append]
  simp only [nl_eq_lane, sext_lane, hf, ← apply_ite]
  rw [← lanes_half hw]

/-- Unpacking writes half-width lanes `first + k`, signed or unsigned. -/
theorem laneWise_unpack {i : Instr} {s : State} {d a : Reg} {w : BitVec 2} {high signed : Bool}
    (hi : exec i s = put d (unpack w high signed (rd s a)) s) :
    let n := laneBits w
    LaneWise i s d n same fun k =>
      (if signed then sl s a (n / 2) else nl s a (n / 2)) (if high then 64 / n + k else k) := by
  refine laneWise_of_put hi fun k hk => ?_
  rw [unpack, assemble, List.map_map]
  refine (extract_packLanes_range _ hk).trans ((ofNat_wrapN _ _).trans ?_)
  cases signed <;> simp [quiet, nl_eq_lane, sext_lane]

/-! ### Moves (R122) -/

/-- A member that fills the lanes of a word from unsigned lane values, without a flag. -/
theorem laneWise_of_packLanes {i : Instr} {s : State} {d : Reg} {n : Nat} {f : Nat → Nat} {x : Nat → Int}
    (hi : exec i s = put d (nat64 (packLanes n ((List.range (64 / n)).map f))) s) (hf : ∀ k, x k = f k) :
    LaneWise i s d n same x := by
  refine laneWise_of_put hi fun k hk => ?_
  rw [extract_packLanes_range f hk, hf, BitVec.ofInt_natCast]

/-- Settles O17: packs and unpacks renumber the lanes of half the width, the moves fill a word lane by lane, and PSEL
chooses bit by bit. -/
theorem laneMoves : Obligations.LaneMoves := by
  unfold Obligations.LaneMoves
  intro d a b w i s hw n h l both
  refine ⟨fun _ => ⟨?packs, ?packns, ?pack, ?unpkl, ?unpkh, ?unpkln, ?unpkhn⟩, fun _ => ⟨?bcast, ?ins, ?ext⟩,
    ?shuf, ?sel⟩
  case packs => exact laneWise_pack (fun _ x => x) hw rfl fun _ x => satI_eq_clamped x _
  case packns => exact laneWise_pack (fun _ x => x) hw rfl fun _ x => satN_eq_clamped x _
  case pack => exact laneWise_pack (fun p _ => p) hw rfl fun _ _ => quiet_of_eq rfl
  case unpkl => exact laneWise_unpack (high := false) (signed := true) rfl
  case unpkh => exact laneWise_unpack (high := true) (signed := true) rfl
  case unpkln => exact laneWise_unpack (high := false) (signed := false) rfl
  case unpkhn => exact laneWise_unpack (high := true) (signed := false) rfl
  case bcast => exact laneWise_of_packLanes rfl fun _ => nl_eq_lane s a n _
  case ins =>
    refine laneWise_of_packLanes rfl fun k => ?_
    rw [nl_eq_lane, nl_eq_lane, Nat.cast_ite]
    rfl
  case ext =>
    rw [nl_eq_lane, wrap64, BitVec.ofInt_natCast]
    rfl
  case shuf =>
    refine laneWise_of_packLanes (n := 8) rfl fun k => ?_
    rw [nl_eq_lane s b, Nat.cast_ite, ← nl_eq_lane s a]
    exact if_congr Nat.ofNat_le_cast rfl rfl
  case sel =>
    refine ⟨_, rfl, fun k hk => ?_⟩
    rw [BitVec.getLsbD_or, BitVec.getLsbD_and, BitVec.getLsbD_and, BitVec.getLsbD_not]
    cases (rd s d).getLsbD k <;> simp [hk]

end Sys2Proof.Proofs
end

section
/-!
PROOF. Complex Q15 arithmetic and the CQ31 accumulators (R123-R125): the components of a complex lane as the statements
name them, and members that give four Q15 or two Q31 results.
-/

namespace Sys2Proof.Proofs

open Sys2Proof Sys2Proof.Machine Sys2Proof.Claims

/-! ### Components -/

theorem cx_eq (s : State) (r : Reg) (k : Nat) : cx (rd s r) k = (re s r k, im s r k) := by
  rw [cx, comp, comp, sext_lane, sext_lane]
  rfl

theorem sat16_eq_clamped (x : Int) : sat16 x = clamped (clampS 16) x := satI_eq_clamped x 16

theorem half16_eq_clamped (x : Int) : half16 x = clamped (clampS 16) (roundHalf x 1) := satQ_eq_clamped x 1 16

theorem q15_eq_clamped (x : Int) : q15 x = clamped (clampS 16) (roundHalf x 15) := satQ_eq_clamped x 15 16

/-! ### Members -/

section Members

variable {i : Instr} {s : State} {d a b : Reg}

/-- A lane by lane complex member (R124) whose components are the clamps of `round` of the formula's. -/
theorem laneWise_clanes {f : Int → Int × Nat} {g : Int × Int → Int × Int → Int × Int} (round : Int → Int)
    (hi : exec i s = clanes f g d a b s) (hf : ∀ x, f x = clamped (clampS 16) (round x)) :
    let l := fun k => g (re s a k, im s a k) (re s b k, im s b k)
    LaneWise i s d 16 (clampS 16) (parts (fun k => round (l k).1) (fun k => round (l k).2)) := by
  apply laneWise_of_assemble
  rw [hi, clanes, cput, cx_eq, cx_eq, cx_eq, cx_eq, hf, hf, hf, hf]
  rfl

/-- CDOT and CDOTJ add twice the sum of the lane products to the accumulator (R125). -/
theorem laneWise_cdot {g : Int × Int → Int × Int → Int × Int}
    (hi : exec i s = putF d (cdot g (rd s a) (rd s b) (rd s d)) s) :
    let p := fun k => g (re s a k, im s a k) (re s b k, im s b k)
    LaneWise i s d 32 (clampS 32) fun k =>
      sl s d 32 k + 2 * if k = 0 then (p 0).1 + (p 1).1 else (p 0).2 + (p 1).2 := by
  apply laneWise_of_assemble
  rw [hi, cdot, cx_eq, cx_eq, cx_eq, cx_eq, sext_lane, sext_lane, satI_eq_clamped, satI_eq_clamped]
  rfl

theorem laneWise_cnorm : LaneWise (.cnorm d a) s d 32 (clampS 32)
    fun k => 2 * (re s a k * re s a k + im s a k * im s a k) := by
  apply laneWise_of_assemble
  have hi : exec (.cnorm d a) s = execCnorm d a s := rfl
  rw [hi, execCnorm, cx_eq, cx_eq, cnorm, cnorm, satI_eq_clamped, satI_eq_clamped]
  rfl

theorem bfly_eq_clamped (x p : Int) : bfly x p = clamped (clampS 16) (roundHalf (x * 2 ^ 15 + p) 16) :=
  satQ_eq_clamped _ 16 16

theorem crnd_eq_clamped (s : State) (r : Reg) (k : Nat) :
    crnd (rd s r) k = clamped (clampS 16) (roundHalf (sl s r 32 k) 16) := by
  rw [crnd, sext_lane, satQ_eq_clamped]

/-- The butterfly adds and subtracts the product of the twiddle, lane 0 of `b`, and lane 1 of `a` (R125). -/
theorem laneWise_cbfly :
    let p := cprod (re s b 0, im s b 0) (re s a 1, im s a 1)
    LaneWise (.cbfly d a b) s d 16 (clampS 16)
      (parts (fun k => roundHalf (re s a 0 * 2 ^ 15 + if k = 0 then p.1 else -p.1) 16)
        (fun k => roundHalf (im s a 0 * 2 ^ 15 + if k = 0 then p.2 else -p.2) 16)) := by
  apply laneWise_of_assemble
  have hi : exec (.cbfly d a b) s = execCbfly d a b s := rfl
  rw [hi, execCbfly, cx_eq, cx_eq, cx_eq]
  simp only [bfly_eq_clamped]
  rfl

theorem laneWise_crnd : LaneWise (.crnd d a b) s d 16 (clampS 16)
    fun k => roundHalf (if k < 2 then sl s a 32 k else sl s b 32 (k - 2)) 16 := by
  apply laneWise_of_assemble
  have hi : exec (.crnd d a b) s = execCrnd d a b s := rfl
  rw [hi, execCrnd, crnd_eq_clamped, crnd_eq_clamped, crnd_eq_clamped, crnd_eq_clamped]
  rfl

theorem laneWise_cscl : LaneWise (.cscl d a b) s d 16 (clampS 16)
    (parts (fun k => roundHalf (re s a k * re s b 0) 15) (fun k => roundHalf (im s a k * re s b 0) 15)) := by
  have factor : comp (rd s b) 0 0 = re s b 0 := congrArg Prod.fst (cx_eq s b 0)
  rw [← factor]
  exact laneWise_clanes (b := 0) (g := fun x _ => (x.1 * comp (rd s b) 0 0, x.2 * comp (rd s b) 0 0))
    (roundHalf · 15) rfl q15_eq_clamped

end Members

/-- Settles O18: the lane by lane members by their lane formula and rounding, the others by their own lemmas. -/
theorem complex : Obligations.Complex := by
  unfold Obligations.Complex
  intro d a b s x xi y yi q rr ri jr ji half
  refine ⟨?add, ?sub, ?addh, ?subh, ?mul, ?mulj, ?j, ?mj, laneWise_cnorm, ?dot, ?dotj, laneWise_cbfly, laneWise_cscl,
    laneWise_crnd⟩
  case add => exact laneWise_clanes (g := cplus) id rfl sat16_eq_clamped
  case sub => exact laneWise_clanes (g := cminus) id rfl sat16_eq_clamped
  case addh => exact laneWise_clanes (g := cplus) (roundHalf · 1) rfl half16_eq_clamped
  case subh => exact laneWise_clanes (g := cminus) (roundHalf · 1) rfl half16_eq_clamped
  case mul => exact laneWise_clanes (g := cprod) (roundHalf · 15) rfl q15_eq_clamped
  case mulj => exact laneWise_clanes (g := cprodJ) (roundHalf · 15) rfl q15_eq_clamped
  case j => exact laneWise_clanes (b := 0) (g := fun x _ => (x.1, -x.2)) id rfl sat16_eq_clamped
  case mj => exact laneWise_clanes (b := 0) (g := fun x _ => (-x.2, x.1)) id rfl sat16_eq_clamped
  case dot => exact laneWise_cdot (g := cprod) rfl
  case dotj => exact laneWise_cdot (g := cprodJ) rfl

end Sys2Proof.Proofs
end

section
/-!
PROOF. F32 patterns and their values (R42-R44): the model's reading of a pattern in terms of its fields, and the real
value of a finite pattern and of a sum of exact terms.
-/

namespace Sys2Proof.Proofs

open Sys2Proof Sys2Proof.Machine Sys2Proof.Claims

/-! ### The kinds of a pattern (R44) -/

/-- Significand and exponent of a finite pattern: its magnitude is `mant x` times 2^(`lsb x`). -/
def mant (x : Nat) : Nat := if fexp x = 0 then frac x else 2 ^ 23 + frac x
def lsb (x : Nat) : Int := if fexp x = 0 then -149 else (fexp x : Int) - 150

/-- Bits above the lowest 32 do not matter to the fields. -/
theorem f32_eq (x : Nat) : f32 x =
    if fexp x = 255 then if frac x = 0 then .inf (decide (fneg x)) else .nan (decide (frac x < 2 ^ 22))
    else .fin (decide (fneg x)) (mant x) (lsb x) := by
  have sign : x % 2 ^ 32 / 2 ^ (8 + 23) % 2 = x / 2 ^ 31 % 2 := by omega
  have expo : x % 2 ^ 32 / 2 ^ 23 % 256 = fexp x := by unfold fexp; omega
  have low : x % 2 ^ 32 % 2 ^ 23 = frac x := by unfold frac; omega
  have quiet : (frac x / 2 ^ (23 - 1) == 0) = decide (frac x < 2 ^ 22) := by
    rw [beq_eq_decide]; congr 1; rw [eq_iff_iff]; omega
  rw [f32, fdecode, sign, expo, low, quiet, mant, lsb, Int.sub_sub]
  split_ifs <;> rfl

theorem f32_of_isNan {x : Nat} (h : isNan x) : f32 x = .nan (decide (frac x < 2 ^ 22)) := by
  rw [f32_eq, if_pos h.1, if_neg h.2]

theorem f32_of_isInf {x : Nat} (h : isInf x) : f32 x = .inf (decide (fneg x)) := by
  rw [f32_eq, if_pos h.1, if_pos h.2]

theorem f32_of_fin {x : Nat} (h : fin x) : f32 x = .fin (decide (fneg x)) (mant x) (lsb x) := by
  rw [f32_eq, if_neg h]

/-- Every pattern is a NaN, an infinity or finite. -/
theorem pattern_cases (x : Nat) : isNan x ∨ isInf x ∨ fin x := by
  by_cases h : fexp x = 255
  · by_cases h0 : frac x = 0
    · exact .inr (.inl ⟨h, h0⟩)
    · exact .inl ⟨h, h0⟩
  · exact .inr (.inr h)

theorem fin_of_isZero {x : Nat} (h : isZero x) : fin x := by
  intro e
  rw [h.1] at e
  exact absurd e (by decide)

theorem not_isInf_of_isNan {x : Nat} (h : isNan x) : ¬isInf x := fun i => h.2 i.2
theorem not_isZero_of_isNan {x : Nat} (h : isNan x) : ¬isZero x := fun z => fin_of_isZero z h.1
theorem not_isNan_of_isInf {x : Nat} (h : isInf x) : ¬isNan x := fun n => n.2 h.2
theorem not_isNan_of_fin {x : Nat} (h : fin x) : ¬isNan x := fun n => h n.1
theorem not_isInf_of_fin {x : Nat} (h : fin x) : ¬isInf x := fun i => h i.1

/-- The significand is zero for the zeros alone. -/
theorem mant_eq_zero_iff {x : Nat} : mant x = 0 ↔ isZero x := by
  by_cases e : fexp x = 0
  · rw [mant, if_pos e, isZero, and_iff_right e]
  · rw [mant, if_neg e, isZero]
    exact ⟨fun z => absurd z (by positivity), fun z => absurd z.1 e⟩

theorem isNaN_f32 (x : Nat) : (f32 x).isNaN = true ↔ isNan x := by
  rcases pattern_cases x with h | h | h
  · simp [f32_of_isNan h, FVal.isNaN, h]
  · simp [f32_of_isInf h, FVal.isNaN, not_isNan_of_isInf h]
  · simp [f32_of_fin h, FVal.isNaN, not_isNan_of_fin h]

theorem isSNaN_f32 (x : Nat) : (f32 x).isSNaN = true ↔ isSig x := by
  rcases pattern_cases x with h | h | h
  · simp [f32_of_isNan h, FVal.isSNaN, isSig, h]
  · simp [f32_of_isInf h, FVal.isSNaN, isSig, not_isNan_of_isInf h]
  · simp [f32_of_fin h, FVal.isSNaN, isSig, not_isNan_of_fin h]

theorem isInf_f32 (x : Nat) : (f32 x).isInf = true ↔ isInf x := by
  rcases pattern_cases x with h | h | h
  · simp [f32_of_isNan h, FVal.isInf, not_isInf_of_isNan h]
  · simp [f32_of_isInf h, FVal.isInf, h]
  · simp [f32_of_fin h, FVal.isInf, not_isInf_of_fin h]

theorem isZero_fin (neg : Bool) (m : Nat) (e : Int) : (FVal.fin neg m e).isZero = decide (m = 0) := by
  cases m <;> rfl

theorem isZero_f32 (x : Nat) : (f32 x).isZero = true ↔ isZero x := by
  rcases pattern_cases x with h | h | h
  · simp [f32_of_isNan h, FVal.isZero, not_isZero_of_isNan h]
  · simp [f32_of_isInf h, FVal.isZero, isZero, h.1]
  · simp [f32_of_fin h, isZero_fin, mant_eq_zero_iff]

/-! ### Patterns with a sign -/

theorem signBit_decide (p : Prop) [Decidable p] (m : Nat) : m + signBit 23 (decide p) = signedPat m p := by
  by_cases h : p <;> simp [signBit, signedPat, h]

theorem infPat_decide (p : Prop) [Decidable p] : infPat 23 (decide p) = signedPat 0x7F800000 p := signBit_decide p _

theorem signBit_eq_signedPat (p : Prop) [Decidable p] : signBit 23 (decide p) = signedPat 0 p := by
  rw [← signBit_decide, Nat.zero_add]

/-- The signs of a quotient or product. -/
theorem bne_decide (p q : Prop) [Decidable p] [Decidable q] : (decide p != decide q) = decide (p ↔ ¬q) := by
  by_cases hp : p <;> by_cases hq : q <;> simp [hp, hq]

theorem infPat_of_isInf {x : Nat} (hx : x < 2 ^ 32) (h : isInf x) : infPat 23 (decide (fneg x)) = x := by
  obtain ⟨e, f⟩ := h
  rw [infPat_decide, signedPat]
  unfold fexp at e
  unfold frac at f
  split_ifs with n <;> omega

theorem signBit_of_isZero {x : Nat} (hx : x < 2 ^ 32) (h : isZero x) : signBit 23 (decide (fneg x)) = x := by
  obtain ⟨e, f⟩ := h
  rw [signBit_eq_signedPat, signedPat]
  unfold fexp at e
  unfold frac at f
  split_ifs with n <;> omega

/-! ### Values (R42, R43) -/

/-- The value of an exact term. -/
noncomputable def termVal (t : Term) : ℝ := (if t.neg then -1 else 1) * t.m * (2 : ℝ) ^ t.e

/-- The exact term of a finite pattern. -/
def termOf (x : Nat) : Term := ⟨decide (fneg x), mant x, lsb x⟩

theorem termVal_termOf (x : Nat) : termVal (termOf x) = fval x := by
  simp only [termVal, termOf, fval, mant, lsb, decide_eq_true_eq, mul_assoc]
  split_ifs <;> norm_num

theorem fval_of_isZero {x : Nat} (h : isZero x) : fval x = 0 := by
  rw [← termVal_termOf, termVal, termOf, mant_eq_zero_iff.mpr h]
  simp

/-- A sum in units of 2^e0 is the sum of the values, where no exponent is below e0. -/
theorem sumAt_mul (e0 : Int) (ts : List Term) (h : ∀ t ∈ ts, e0 ≤ t.e) :
    (sumAt e0 ts : ℝ) * (2 : ℝ) ^ e0 = (ts.map termVal).sum := by
  induction ts with
  | nil => simp [sumAt]
  | cons t ts ih =>
    rw [List.forall_mem_cons] at h
    have scale : (2 : ℝ) ^ (t.e - e0).toNat * (2 : ℝ) ^ e0 = (2 : ℝ) ^ t.e := by
      rw [← zpow_natCast, ← zpow_add₀ two_ne_zero]
      congr 1
      omega
    rw [List.map_cons, List.sum_cons, ← ih h.2, sumAt, Int.cast_add, add_mul, termVal, ← scale]
    congr 1
    split_ifs <;> push_cast <;> ring

theorem minExp_le (ts : List Term) (e : Int) : minExp ts e ≤ e ∧ ∀ t ∈ ts, minExp ts e ≤ t.e := by
  induction ts generalizing e with
  | nil => exact ⟨le_rfl, by simp⟩
  | cons t ts ih =>
    obtain ⟨le, all⟩ := ih (min t.e e)
    exact ⟨le.trans (min_le_right _ _), List.forall_mem_cons.mpr ⟨le.trans (min_le_left _ _), all⟩⟩

/-- Comparing finite patterns gives an integer with the sign of the difference of their values. -/
theorem fcompare_mul {x y : Nat} (hx : fin x) (hy : fin y) :
    (fcompare (f32 x) (f32 y) : ℝ) * (2 : ℝ) ^ min (lsb x) (lsb y) = fval x - fval y := by
  have unit (z : Nat) (hz : min (lsb x) (lsb y) ≤ lsb z) :
      (sumAt (min (lsb x) (lsb y)) [termOf z] : ℝ) * (2 : ℝ) ^ min (lsb x) (lsb y) = fval z := by
    rw [sumAt_mul _ _ (by simpa [termOf] using hz)]
    simp [termVal_termOf]
  rw [← unit x (min_le_left _ _), ← unit y (min_le_right _ _), ← sub_mul, f32_of_fin hx, f32_of_fin hy]
  push_cast [fcompare, termOf]
  rfl

theorem fcompare_neg_iff {x y : Nat} (hx : fin x) (hy : fin y) : fcompare (f32 x) (f32 y) < 0 ↔ fval x < fval y := by
  rw [← sub_neg (a := fval x), ← fcompare_mul hx hy, ← lt_div_iff₀ (by positivity), zero_div, Int.cast_lt_zero]

theorem fcompare_eq_zero_iff {x y : Nat} (hx : fin x) (hy : fin y) :
    fcompare (f32 x) (f32 y) = 0 ↔ fval x = fval y := by
  rw [← sub_eq_zero (a := fval x), ← fcompare_mul hx hy, mul_eq_zero_iff_right (by positivity), Int.cast_eq_zero]

theorem fcompare_nonpos_iff {x y : Nat} (hx : fin x) (hy : fin y) : fcompare (f32 x) (f32 y) ≤ 0 ↔ fval x ≤ fval y := by
  rw [le_iff_lt_or_eq, le_iff_lt_or_eq, fcompare_neg_iff hx hy, fcompare_eq_zero_iff hx hy]

end Sys2Proof.Proofs
end

section
/-!
PROOF. Special values of F32 (R43-R45, R127-R130): what sums, products, quotients, roots, selections, comparisons and
classes give for NaNs, infinities and zeros.
-/

namespace Sys2Proof.Proofs

open Sys2Proof Sys2Proof.Machine Sys2Proof.Claims

/-! ### Sums of values (R43-R45) -/

/-- An invalid product or a signalling NaN makes a sum the canonical NaN with NV. -/
theorem fsum_of_invalid {m : Nat} {nv : Bool} {vs : List FVal} (h : nv = true ∨ ∃ v ∈ vs, v.isSNaN = true) :
    fsum 23 m nv vs = (qnan, fNV) := by
  rw [← List.any_eq_true, ← Bool.or_eq_true] at h
  rw [fsum, if_pos h]
  rfl

/-- Quiet NaNs make it the canonical NaN without a flag. -/
theorem fsum_of_quiet {m : Nat} {nv : Bool} {vs : List FVal} (hv : ¬(nv = true ∨ ∃ v ∈ vs, v.isSNaN = true))
    (hn : ∃ v ∈ vs, v.isNaN = true) : fsum 23 m nv vs = (qnan, 0) := by
  rw [← List.any_eq_true, ← Bool.or_eq_true] at hv
  rw [← List.any_eq_true] at hn
  rw [fsum, if_neg hv, if_pos hn, if_pos hn]
  exact ite_self _

theorem fsum_inf_inf (m : Nat) (p q : Bool) :
    fsum 23 m false [.inf p, .inf q] = if p = q then (infPat 23 p, 0) else (qnan, fNV) := by
  cases p <;> cases q <;> rfl

theorem fsum_inf_fin (m : Nat) (p n : Bool) (k : Nat) (e : Int) :
    fsum 23 m false [.inf p, .fin n k e] = (infPat 23 p, 0) := by
  cases p <;> rfl

theorem fsum_fin_fin (m : Nat) (p q : Bool) (k n : Nat) (e f : Int) :
    fsum 23 m false [.fin p k e, .fin q n f] = roundSum 23 m [⟨p, k, e⟩, ⟨q, n, f⟩] := by
  simp [fsum, FVal.isSNaN, FVal.isNaN]

theorem fsum_inf (m : Nat) (p : Bool) : fsum 23 m false [.inf p] = (infPat 23 p, 0) := by
  cases p <;> rfl

theorem isNaN_negate (v : FVal) : v.negate.isNaN = v.isNaN := by cases v <;> rfl

theorem isSNaN_negate (v : FVal) : v.negate.isSNaN = v.isSNaN := by cases v <;> rfl

theorem isNaN_negateIf (b : Bool) (v : FVal) : (if b = true then v.negate else v).isNaN = v.isNaN := by
  cases b
  · rfl
  · exact isNaN_negate v

theorem isSNaN_negateIf (b : Bool) (v : FVal) : (if b = true then v.negate else v).isSNaN = v.isSNaN := by
  cases b
  · rfl
  · exact isSNaN_negate v

/-! ### Products of values (R44) -/

/-- A product is invalid for infinity times zero. -/
theorem fprod_invalid : (v w : FVal) →
    ((fprod v w).2 = true ↔ v.isInf = true ∧ w.isZero = true ∨ v.isZero = true ∧ w.isInf = true)
  | .nan _, _ => by simp [fprod, FVal.isInf, FVal.isZero]
  | .inf _, .nan _ | .fin .., .nan _ => by simp [fprod, FVal.isInf, FVal.isZero]
  | .inf _, .inf _ | .fin .., .fin .. => by simp [fprod, FVal.isInf, FVal.isZero]
  | .inf _, .fin _ n _ => by by_cases h : n = 0 <;> simp [fprod, FVal.isInf, isZero_fin, h]
  | .fin _ n _, .inf _ => by by_cases h : n = 0 <;> simp [fprod, FVal.isInf, isZero_fin, h]

theorem fprod_isNaN : {v w : FVal} → v.isNaN = true ∨ w.isNaN = true → (fprod v w).1.isNaN = true
  | .nan _, _, _ => rfl
  | .inf _, .nan _, _ | .fin .., .nan _, _ => rfl

/-- A signalling product has a signalling operand. -/
theorem fprod_isSNaN : {v w : FVal} → (fprod v w).1.isSNaN = true → v.isSNaN = true ∨ w.isSNaN = true
  | .nan _, _, h => .inl h
  | .inf _, .nan _, h | .fin .., .nan _, h => .inr h
  | .inf _, .fin _ n _, h => by by_cases z : n = 0 <;> simp [fprod, FVal.isSNaN, z] at h
  | .fin _ n _, .inf _, h => by by_cases z : n = 0 <;> simp [fprod, FVal.isSNaN, z] at h

/-! ### NaN operands (R44, R127, R131, R132) -/

section NaN

variable {m x y z : Nat}

theorem not_isSig_of_not_isNan (h : ¬isNan x) : ¬isSig x := fun g => h g.1

theorem fadd_of_isSig (h : isSig x ∨ isSig y) : fadd m x y = (qnan, fNV) :=
  fsum_of_invalid (by simpa [isSNaN_f32] using h)

theorem fadd_of_quiet (h : (isNan x ∨ isNan y) ∧ ¬isSig x ∧ ¬isSig y) : fadd m x y = (qnan, 0) :=
  fsum_of_quiet (by simpa [isSNaN_f32] using h.2) (by simpa [isNaN_f32] using h.1)

theorem fsub_of_isSig (h : isSig x ∨ isSig y) : fsub m x y = (qnan, fNV) :=
  fsum_of_invalid (by simpa [isSNaN_negate, isSNaN_f32] using h)

theorem fsub_of_quiet (h : (isNan x ∨ isNan y) ∧ ¬isSig x ∧ ¬isSig y) : fsub m x y = (qnan, 0) :=
  fsum_of_quiet (by simpa [isSNaN_negate, isSNaN_f32] using h.2) (by simpa [isNaN_negate, isNaN_f32] using h.1)

theorem isSig_of_fprod (h : (fprod (f32 x) (f32 y)).1.isSNaN = true) : isSig x ∨ isSig y := by
  simpa only [isSNaN_f32] using fprod_isSNaN h

/-- What makes a fused form invalid (R132): a signalling operand, or infinity times zero. -/
theorem ffma_invalid_iff {p q : Bool} :
    (((fprod (f32 x) (f32 y)).2 || (f32 x).isSNaN || (f32 y).isSNaN || (f32 z).isSNaN) = true ∨
      ∃ v ∈ [if p = true then (fprod (f32 x) (f32 y)).1.negate else (fprod (f32 x) (f32 y)).1,
        if q = true then (f32 z).negate else f32 z], v.isSNaN = true) ↔
    isSig x ∨ isSig y ∨ isSig z ∨ isInf x ∧ isZero y ∨ isZero x ∧ isInf y := by
  have signalling := isSig_of_fprod (x := x) (y := y)
  simp only [List.exists_mem_cons_iff, List.not_mem_nil, isSNaN_negateIf, Bool.or_eq_true, fprod_invalid, isSNaN_f32,
    isInf_f32, isZero_f32, false_and, exists_false, or_false]
  tauto

theorem ffma_of_invalid {p q : Bool} (h : isSig x ∨ isSig y ∨ isSig z ∨ isInf x ∧ isZero y ∨ isZero x ∧ isInf y) :
    ffma m p q x y z = (qnan, fNV) :=
  fsum_of_invalid (ffma_invalid_iff.mpr h)

theorem ffma_of_quiet {p q : Bool} (hn : isNan x ∨ isNan y ∨ isNan z)
    (hv : ¬(isSig x ∨ isSig y ∨ isSig z ∨ isInf x ∧ isZero y ∨ isZero x ∧ isInf y)) :
    ffma m p q x y z = (qnan, 0) := by
  have product : isNan x ∨ isNan y → (fprod (f32 x) (f32 y)).1.isNaN = true := by
    simpa only [isNaN_f32] using fprod_isNaN (v := f32 x) (w := f32 y)
  refine fsum_of_quiet (mt ffma_invalid_iff.mp hv) ?_
  simp only [List.exists_mem_cons_iff, List.not_mem_nil, isNaN_negateIf, isNaN_f32, false_and, exists_false, or_false]
  tauto

/-- What makes a product invalid (R127). -/
theorem fmul_invalid_iff :
    (((fprod (f32 x) (f32 y)).2 || (f32 x).isSNaN || (f32 y).isSNaN) = true ∨
      ∃ v ∈ [(fprod (f32 x) (f32 y)).1], v.isSNaN = true) ↔
    isSig x ∨ isSig y ∨ isInf x ∧ isZero y ∨ isZero x ∧ isInf y := by
  have signalling := isSig_of_fprod (x := x) (y := y)
  simp only [List.exists_mem_cons_iff, List.not_mem_nil, Bool.or_eq_true, fprod_invalid, isSNaN_f32,
    isInf_f32, isZero_f32, false_and, exists_false, or_false]
  tauto

theorem fmul_of_invalid (h : isSig x ∨ isSig y ∨ isInf x ∧ isZero y ∨ isZero x ∧ isInf y) :
    fmul m x y = (qnan, fNV) :=
  fsum_of_invalid (fmul_invalid_iff.mpr h)

theorem fmul_of_quiet (h : (isNan x ∨ isNan y) ∧ ¬isSig x ∧ ¬isSig y) : fmul m x y = (qnan, 0) := by
  have product : (fprod (f32 x) (f32 y)).1.isNaN = true := fprod_isNaN (by simpa only [isNaN_f32] using h.1)
  refine fsum_of_quiet (mt fmul_invalid_iff.mp ?_) ⟨_, List.mem_cons_self, product⟩
  have hx := not_isInf_of_isNan (x := x)
  have hx0 := not_isZero_of_isNan (x := x)
  have hy := not_isInf_of_isNan (x := y)
  have hy0 := not_isZero_of_isNan (x := y)
  tauto

/-- A quotient with a NaN: the canonical one, with NV if an operand signals. -/
theorem fdiv_of_isNan (h : isNan x ∨ isNan y) :
    fdiv m x y = (qnan, flagIf ((f32 x).isSNaN || (f32 y).isSNaN) fNV) := by
  rcases h with h | h
  · rw [fdiv, f32_of_isNan h]
    rfl
  · rw [fdiv, f32_of_isNan h]
    cases f32 x <;> rfl

theorem fdiv_of_isSig (h : isSig x ∨ isSig y) : fdiv m x y = (qnan, fNV) := by
  have signals : ((f32 x).isSNaN || (f32 y).isSNaN) = true := by simpa only [Bool.or_eq_true, isSNaN_f32] using h
  rw [fdiv_of_isNan (h.imp And.left And.left), signals]
  rfl

theorem fdiv_of_quiet (h : (isNan x ∨ isNan y) ∧ ¬isSig x ∧ ¬isSig y) : fdiv m x y = (qnan, 0) := by
  obtain ⟨hn, hx, hy⟩ := h
  rw [← isSNaN_f32, Bool.not_eq_true] at hx hy
  rw [fdiv_of_isNan hn, hx, hy]
  rfl

/-- A signalling pattern sets NV. -/
theorem signals_of_isSig (h : isSig x) : flagIf (decide (frac x < 2 ^ 22)) fNV = fNV := by
  rw [decide_eq_true h.2]
  rfl

theorem signals_of_quiet (h : isNan x ∧ ¬isSig x) : flagIf (decide (frac x < 2 ^ 22)) fNV = 0 := by
  rw [decide_eq_false fun lt => h.2 ⟨h.1, lt⟩]
  rfl

theorem fsqrt_of_isSig (h : isSig x) : fsqrt m x = (qnan, fNV) := by
  rw [fsqrt, f32_of_isNan h.1]
  exact congrArg (Prod.mk qnan) (signals_of_isSig h)

theorem fsqrt_of_quiet (h : isNan x ∧ ¬isSig x) : fsqrt m x = (qnan, 0) := by
  rw [fsqrt, f32_of_isNan h.1]
  exact congrArg (Prod.mk qnan) (signals_of_quiet h)

theorem frnd_of_isSig (h : isSig x) : frnd m x = (qnan, fNV) := by
  rw [frnd, f32_of_isNan h.1]
  exact congrArg (Prod.mk qnan) (signals_of_isSig h)

theorem frnd_of_quiet (h : isNan x ∧ ¬isSig x) : frnd m x = (qnan, 0) := by
  rw [frnd, f32_of_isNan h.1]
  exact congrArg (Prod.mk qnan) (signals_of_quiet h)

end NaN

/-! ### Infinities and zeros (R127) -/

section Special

variable {m x y : Nat}

theorem fadd_inf_inf (hb : x < 2 ^ 32) (hx : isInf x) (hy : isInf y) :
    fadd m x y = (if fneg x ↔ fneg y then x else qnan, if fneg x ↔ fneg y then 0 else fNV) := by
  rw [fadd, f32_of_isInf hx, f32_of_isInf hy, fsum_inf_inf, infPat_of_isInf hb hx]
  by_cases same : fneg x ↔ fneg y
  · rw [if_pos (decide_eq_decide.mpr same), if_pos same, if_pos same]
  · rw [if_neg (mt decide_eq_decide.mp same), if_neg same, if_neg same]

theorem fsub_inf_inf (hb : x < 2 ^ 32) (hx : isInf x) (hy : isInf y) :
    fsub m x y = (if fneg x ↔ fneg y then qnan else x, if fneg x ↔ fneg y then fNV else 0) := by
  have opposite : (decide (fneg x) = !decide (fneg y)) ↔ ¬(fneg x ↔ fneg y) := by
    rw [← decide_not, decide_eq_decide]
    tauto
  rw [fsub, f32_of_isInf hx, f32_of_isInf hy, FVal.negate, fsum_inf_inf, infPat_of_isInf hb hx]
  by_cases same : fneg x ↔ fneg y
  · rw [if_neg (by tauto), if_pos same, if_pos same]
  · rw [if_pos (opposite.mpr same), if_neg same, if_neg same]

theorem fadd_inf_fin (hb : x < 2 ^ 32) (hx : isInf x) (hy : fin y) : fadd m x y = (x, 0) := by
  rw [fadd, f32_of_isInf hx, f32_of_fin hy, fsum_inf_fin, infPat_of_isInf hb hx]

theorem fsub_inf_fin (hb : x < 2 ^ 32) (hx : isInf x) (hy : fin y) : fsub m x y = (x, 0) := by
  rw [fsub, f32_of_isInf hx, f32_of_fin hy, FVal.negate, fsum_inf_fin, infPat_of_isInf hb hx]

theorem fmul_inf_fin (hx : isInf x) (hy : fin y) (hz : ¬isZero y) :
    fmul m x y = (signedPat 0x7F800000 (fneg x ↔ ¬fneg y), 0) := by
  have product : fprod (f32 x) (f32 y) = (.inf (decide (fneg x ↔ ¬fneg y)), false) := by
    rw [f32_of_isInf hx, f32_of_fin hy, fprod, if_neg (mt mant_eq_zero_iff.mp hz), bne_decide]
  have hsx : (f32 x).isSNaN = false := by rw [f32_of_isInf hx]; rfl
  have hsy : (f32 y).isSNaN = false := by rw [f32_of_fin hy]; rfl
  rw [fmul]
  dsimp only
  rw [product, hsx, hsy]
  exact (fsum_inf m _).trans (by rw [infPat_decide])

theorem fdiv_inf_inf (hx : isInf x) (hy : isInf y) : fdiv m x y = (qnan, fNV) := by
  rw [fdiv, f32_of_isInf hx, f32_of_isInf hy]

theorem fdiv_inf_fin (hx : isInf x) (hy : fin y) :
    fdiv m x y = (signedPat 0x7F800000 (fneg x ↔ ¬fneg y), 0) := by
  rw [fdiv, f32_of_isInf hx, f32_of_fin hy]
  dsimp only
  rw [bne_decide, infPat_decide]

theorem fdiv_fin_inf (hx : fin x) (hy : isInf y) : fdiv m x y = (signedPat 0 (fneg x ↔ ¬fneg y), 0) := by
  rw [fdiv, f32_of_fin hx, f32_of_isInf hy]
  dsimp only
  rw [bne_decide, signBit_eq_signedPat]

theorem fdiv_zero_zero (hx : isZero x) (hy : isZero y) : fdiv m x y = (qnan, fNV) := by
  rw [fdiv, f32_of_fin (fin_of_isZero hx), f32_of_fin (fin_of_isZero hy)]
  dsimp only
  rw [if_pos (mant_eq_zero_iff.mpr hy), if_pos (mant_eq_zero_iff.mpr hx)]

theorem fdiv_fin_zero (hx : fin x) (hz : ¬isZero x) (hy : isZero y) :
    fdiv m x y = (signedPat 0x7F800000 (fneg x ↔ ¬fneg y), fDZ) := by
  rw [fdiv, f32_of_fin hx, f32_of_fin (fin_of_isZero hy)]
  dsimp only
  rw [if_pos (mant_eq_zero_iff.mpr hy), if_neg (mt mant_eq_zero_iff.mp hz), bne_decide, infPat_decide]

theorem fsqrt_of_fneg (hs : fneg x) (hn : ¬isNan x) (hz : ¬isZero x) : fsqrt m x = (qnan, fNV) := by
  rcases pattern_cases x with h | h | h
  · exact absurd h hn
  · rw [fsqrt, f32_of_isInf h, decide_eq_true hs]
  · rw [fsqrt, f32_of_fin h, decide_eq_true hs]
    dsimp only
    rw [if_neg (mt mant_eq_zero_iff.mp hz), if_pos rfl]

/-- The zeros and plus infinity are their own roots. -/
theorem fsqrt_self (hb : x < 2 ^ 32) (h : isZero x ∨ isInf x ∧ ¬fneg x) : fsqrt m x = (x, 0) := by
  rcases h with h | ⟨h, hs⟩
  · rw [fsqrt, f32_of_fin (fin_of_isZero h)]
    dsimp only
    rw [if_pos (mant_eq_zero_iff.mpr h), signBit_of_isZero hb h]
  · have self := infPat_of_isInf hb h
    rw [decide_eq_false hs] at self
    rw [fsqrt, f32_of_isInf h, decide_eq_false hs]
    dsimp only
    rw [self]

/-- An exact zero is positive unless both terms are negative, or their signs differ in direction 2 (R43). -/
theorem roundSum_of_zero {t u : Term} (h : termVal t + termVal u = 0) :
    roundSum 23 m [t, u] = (signBit 23 (t.neg && u.neg || t.neg != u.neg && m == 2), 0) := by
  have scaled := sumAt_mul (minExp [t, u] 0) [t, u] (minExp_le [t, u] 0).2
  have zero : sumAt (minExp [t, u] 0) [t, u] = 0 := by
    rw [List.map_cons, List.map_singleton, List.sum_pair, h] at scaled
    exact_mod_cast (mul_eq_zero_iff_right (by positivity)).mp scaled
  rw [roundSum]
  dsimp only
  rw [if_pos zero]
  cases ht : t.neg <;> cases hu : u.neg <;> simp [ht, hu]

/-- When a zero is negative, over decided propositions. -/
theorem zeroSign_decide (p q r : Prop) [Decidable p] [Decidable q] [Decidable r] :
    (decide p && decide q || decide p != decide q && decide r) = decide (p ∧ q ∨ ¬(p ↔ q) ∧ r) := by
  by_cases hp : p <;> by_cases hq : q <;> simp [hp, hq]

theorem fadd_exact_zero (hx : fin x) (hy : fin y) (h : fval x + fval y = 0) :
    fadd m x y = (signedPat 0 (fneg x ∧ fneg y ∨ ¬(fneg x ↔ fneg y) ∧ m = 2), 0) := by
  have sum : fadd m x y = roundSum 23 m [termOf x, termOf y] := by
    rw [fadd, f32_of_fin hx, f32_of_fin hy, fsum_fin_fin, termOf, termOf]
  rw [sum, roundSum_of_zero (by rwa [termVal_termOf, termVal_termOf]), termOf, termOf, beq_eq_decide, zeroSign_decide,
    signBit_eq_signedPat]

end Special

/-! ### Selection and signs (R128) -/

section Selection

variable {x y : Nat} {maxi : Bool}

/-- The order by which FMIN and FMAX select (R128). -/
def fless (x y : Nat) : Bool :=
  decide (fcompare (f32 x) (f32 y) < 0) || fcompare (f32 x) (f32 y) == 0 && (f32 x).sign && !(f32 y).sign

theorem fminmax_of_isSig (h : isSig x ∨ isSig y) : fminmax maxi x y = (qnan, fNV) := by
  have signals : ((f32 x).isSNaN || (f32 y).isSNaN) = true := by simpa only [Bool.or_eq_true, isSNaN_f32] using h
  rw [fminmax]
  exact if_pos signals

/-- Without a signalling operand, what FMIN and FMAX select depends on which operands are NaNs. -/
theorem fminmax_of_not_isSig (hx : ¬isSig x) (hy : ¬isSig y) : fminmax maxi x y =
    if (f32 x).isNaN && (f32 y).isNaN then (qnan, 0)
    else if (f32 x).isNaN then (y % 2 ^ 32, 0)
    else if (f32 y).isNaN then (x % 2 ^ 32, 0)
    else ((if fless x y != maxi then x else y) % 2 ^ 32, 0) := by
  rw [← isSNaN_f32, Bool.not_eq_true] at hx hy
  rw [fminmax, hx, hy]
  rfl

theorem fminmax_of_isNan (hx : isNan x) (hy : isNan y) (sx : ¬isSig x) (sy : ¬isSig y) :
    fminmax maxi x y = (qnan, 0) := by
  rw [fminmax_of_not_isSig sx sy, (isNaN_f32 x).mpr hx, (isNaN_f32 y).mpr hy]
  rfl

theorem fminmax_of_isNan_left (hb : y < 2 ^ 32) (hx : isNan x) (sx : ¬isSig x) (hy : ¬isNan y) :
    fminmax maxi x y = (y, 0) := by
  rw [fminmax_of_not_isSig sx (not_isSig_of_not_isNan hy), (isNaN_f32 x).mpr hx,
    Bool.eq_false_iff.mpr (mt (isNaN_f32 y).mp hy), Nat.mod_eq_of_lt hb]
  rfl

theorem fminmax_of_isNan_right (hb : x < 2 ^ 32) (hy : isNan y) (sy : ¬isSig y) (hx : ¬isNan x) :
    fminmax maxi x y = (x, 0) := by
  rw [fminmax_of_not_isSig (not_isSig_of_not_isNan hx) sy, (isNaN_f32 y).mpr hy,
    Bool.eq_false_iff.mpr (mt (isNaN_f32 x).mp hx), Nat.mod_eq_of_lt hb]
  rfl

theorem fminmax_of_fin (hbx : x < 2 ^ 32) (hby : y < 2 ^ 32) (hx : fin x) (hy : fin y) :
    fminmax maxi x y = (if fless x y != maxi then x else y, 0) := by
  have nx := not_isNan_of_fin hx
  have ny := not_isNan_of_fin hy
  rw [fminmax_of_not_isSig (not_isSig_of_not_isNan nx) (not_isSig_of_not_isNan ny),
    Bool.eq_false_iff.mpr (mt (isNaN_f32 x).mp nx), Bool.eq_false_iff.mpr (mt (isNaN_f32 y).mp ny)]
  cases fless x y != maxi
  · exact congrArg (·, 0) (Nat.mod_eq_of_lt hby)
  · exact congrArg (·, 0) (Nat.mod_eq_of_lt hbx)

/-- The smaller of two finite patterns is less, and -0 is less than +0. -/
theorem fless_of_below (hx : fin x) (hy : fin y) (h : fval x < fval y ∨ isZero x ∧ isZero y ∧ fneg x ∧ ¬fneg y) :
    fless x y = true ∧ fless y x = false := by
  rcases h with lt | ⟨zx, zy, nx, py⟩
  · have less := (fcompare_neg_iff hx hy).mpr lt
    have notLess := mt (fcompare_neg_iff hy hx).mp lt.not_gt
    have notEqual := mt (fcompare_eq_zero_iff hy hx).mp lt.ne'
    simp [fless, less, notLess, notEqual]
  · have equal := (fcompare_eq_zero_iff hx hy).mpr ((fval_of_isZero zx).trans (fval_of_isZero zy).symm)
    have equal' := (fcompare_eq_zero_iff hy hx).mpr ((fval_of_isZero zy).trans (fval_of_isZero zx).symm)
    have signX : (f32 x).sign = true := by rw [f32_of_fin hx]; exact decide_eq_true nx
    have signY : (f32 y).sign = false := by rw [f32_of_fin hy]; exact decide_eq_false py
    simp [fless, equal, equal', signX, signY]

theorem signed_of_isNan {neg : Bool} (h : isNan x) : signed x neg = (qnan, 0) := by
  rw [signed, if_pos ((isNaN_f32 x).mpr h)]

theorem signed_of_not_isNan (p : Prop) [Decidable p] (h : ¬isNan x) :
    signed x (decide p) = (signedPat (x % 2 ^ 31) p, 0) := by
  rw [signed, if_neg (mt (isNaN_f32 x).mp h), signBit_decide]

theorem fneg32_eq (hb : x < 2 ^ 32) : fneg32 x = decide (2 ^ 31 ≤ x) := by
  rw [fneg32, beq_eq_decide]
  congr 1
  rw [eq_iff_iff]
  omega

theorem not_fneg32_eq (hb : x < 2 ^ 32) : (!fneg32 x) = decide (x < 2 ^ 31) := by
  rw [fneg32_eq hb, ← decide_not]
  congr 1
  rw [not_le]

end Selection

/-! ### Comparisons and classes (R129, R130) -/

section Comparison

variable {x y : Nat}

/-- The relation of comparison `k` (R129) on the sign of a difference. -/
def fcmpHolds (k : Nat) (c : Int) : Bool :=
  match k with
  | 0 => c == 0
  | 1 => decide (c < 0)
  | _ => decide (c ≤ 0)

theorem fcmp_of_isNan (k : Nat) (h : isNan x ∨ isNan y) :
    fcmp k x y = (0, flagIf (if k = 0 then (f32 x).isSNaN || (f32 y).isSNaN else true) fNV) := by
  have nan : ((f32 x).isNaN || (f32 y).isNaN) = true := by simpa only [Bool.or_eq_true, isNaN_f32] using h
  rw [fcmp]
  exact if_pos nan

/-- FCMPEQ with a NaN sets NV only for a signalling one. -/
theorem fcmp_quiet_of_isNan (h : isNan x ∨ isNan y) :
    ∃ f, fcmp 0 x y = (0, f) ∧ (f = fNV ∧ (isSig x ∨ isSig y) ∨ f = 0 ∧ ¬(isSig x ∨ isSig y)) := by
  refine ⟨_, fcmp_of_isNan 0 h, ?_⟩
  rw [if_pos rfl, ← isSNaN_f32, ← isSNaN_f32, ← Bool.or_eq_true]
  cases (f32 x).isSNaN || (f32 y).isSNaN
  · exact .inr ⟨rfl, Bool.false_ne_true⟩
  · exact .inl ⟨rfl, rfl⟩

/-- A comparison of finite patterns gives 1 if its relation holds of their comparison, else 0. -/
theorem fcmp_of_fin (k : Nat) (hx : fin x) (hy : fin y) : fcmp k x y =
    (if fcmpHolds k (fcompare (f32 x) (f32 y)) then 1 else 0, 0) := by
  have notNan : ((f32 x).isNaN || (f32 y).isNaN) = false := by
    rw [f32_of_fin hx, f32_of_fin hy]
    rfl
  rw [fcmp, notNan]
  rfl

theorem one_or_zero {b : Bool} {p : Prop} (h : b = true ↔ p) :
    nat64 (if b then 1 else 0) = 1 ∧ p ∨ nat64 (if b then 1 else 0) = 0 ∧ ¬p := by
  cases b
  · exact .inr ⟨rfl, mt h.mpr Bool.false_ne_true⟩
  · exact .inl ⟨rfl, h.mp rfl⟩

theorem fclass_eq (hb : x < 2 ^ 32) : fclass x =
    (if fexp x = 0 then if frac x = 0 then 0 else 1
      else if fexp x = 255 then if frac x = 0 then 3 else if frac x / 2 ^ 22 = 1 then 4 else 5 else 2) +
    8 * (x / 2 ^ 31) + 16 * fexp x := by
  have sign : x / 2 ^ 31 % 2 = x / 2 ^ 31 := by omega
  rw [fclass, sign]
  rfl

/-- The kind of a class word is that of the pattern (R130). -/
theorem fclass_kind (hb : x < 2 ^ 32) : ∃ k, fclass x = k + 8 * (x / 2 ^ 31) + 16 * fexp x ∧
    (k = 0 ∧ isZero x ∨ k = 1 ∧ fexp x = 0 ∧ frac x ≠ 0 ∨ k = 2 ∧ fin x ∧ fexp x ≠ 0 ∨ k = 3 ∧ isInf x ∨
      k = 4 ∧ isNan x ∧ ¬isSig x ∨ k = 5 ∧ isSig x) := by
  have bit : frac x / 2 ^ 22 = 1 ↔ ¬frac x < 2 ^ 22 := by unfold frac; omega
  refine ⟨_, fclass_eq hb, ?_⟩
  split_ifs with e f i f q
  · exact .inl ⟨rfl, e, f⟩
  · exact .inr (.inl ⟨rfl, e, f⟩)
  · exact .inr (.inr (.inr (.inl ⟨rfl, i, f⟩)))
  · exact .inr (.inr (.inr (.inr (.inl ⟨rfl, ⟨i, f⟩, fun s => bit.mp q s.2⟩))))
  · exact .inr (.inr (.inr (.inr (.inr ⟨rfl, ⟨i, f⟩, not_not.mp (mt bit.mpr q)⟩))))
  · exact .inr (.inr (.inl ⟨rfl, i, e⟩))

end Comparison

/-! ### Instructions -/

theorem fr_lt (s : State) (r : Reg) : fr s r < 2 ^ 32 := Nat.mod_lt _ (by decide)

theorem roundMode_eq_modeOf (s : State) (r : BitVec 3) : roundMode s r = modeOf s r := by
  have seven : r = 7 ↔ r.toNat = 7 := BitVec.toNat_inj.symm
  have field : frm s = s.cur.a.sr.tmr.toNat % 4 := by
    rw [frm, fieldOf, BitVec.extractLsb'_toNat, Nat.shiftRight_zero]
  rw [roundMode, modeOf, field]
  exact if_congr seven rfl rfl

/-- A member that puts an F32 result with its flags. -/
theorem givesF_of_putX {i : Instr} {s : State} {d : Reg} {r : Nat × Nat} {v f : Nat} (hi : exec i s = putX d r s)
    (hr : r = (v, f)) : GivesF i s d (nat64 v) f := by
  rw [GivesF, hi, hr, putX_eq]

/-- Settles O22: each clause is the lemma about the operation at the patterns of its registers. -/
theorem floatSpecials : Obligations.FloatSpecials := by
  unfold Obligations.FloatSpecials
  refine ⟨fun d a b c r s => ?arith, fun d a b s => ?select⟩
  case arith =>
    intro x y z
    have ltX : x < 2 ^ 32 := fr_lt s a
    refine ⟨?two, ?one, ?fused, ?infinf, ?inffin, ?fininf, ?zerozero, ?finzero, ?negroot, ?selfroot, ?exact⟩
    case two =>
      intro i hi
      simp only [List.mem_cons, List.not_mem_nil, or_false] at hi
      rcases hi with rfl | rfl | rfl | rfl
      · exact ⟨fun h => givesF_of_putX rfl (fadd_of_isSig h), fun h => givesF_of_putX rfl (fadd_of_quiet h)⟩
      · exact ⟨fun h => givesF_of_putX rfl (fsub_of_isSig h), fun h => givesF_of_putX rfl (fsub_of_quiet h)⟩
      · exact ⟨fun h => givesF_of_putX rfl (fmul_of_invalid (h.imp_right .inl)),
          fun h => givesF_of_putX rfl (fmul_of_quiet h)⟩
      · exact ⟨fun h => givesF_of_putX rfl (fdiv_of_isSig h), fun h => givesF_of_putX rfl (fdiv_of_quiet h)⟩
    case one =>
      intro i hi
      simp only [List.mem_cons, List.not_mem_nil, or_false] at hi
      rcases hi with rfl | rfl
      · exact ⟨fun h => givesF_of_putX rfl (fsqrt_of_isSig h), fun h => givesF_of_putX rfl (fsqrt_of_quiet h)⟩
      · exact ⟨fun h => givesF_of_putX rfl (frnd_of_isSig h), fun h => givesF_of_putX rfl (frnd_of_quiet h)⟩
    case fused =>
      intro i hi
      simp only [List.mem_cons, List.not_mem_nil, or_false] at hi
      rcases hi with rfl | rfl | rfl | rfl <;>
        exact ⟨fun h => givesF_of_putX rfl (ffma_of_invalid h), fun h => givesF_of_putX rfl (ffma_of_quiet h.1 h.2)⟩
    case infinf =>
      exact fun ⟨hx, hy⟩ => ⟨givesF_of_putX rfl (fadd_inf_inf ltX hx hy), givesF_of_putX rfl (fsub_inf_inf ltX hx hy),
        givesF_of_putX rfl (fdiv_inf_inf hx hy)⟩
    case inffin =>
      exact fun ⟨hx, hy⟩ => ⟨givesF_of_putX rfl (fadd_inf_fin ltX hx hy), givesF_of_putX rfl (fsub_inf_fin ltX hx hy),
        givesF_of_putX rfl (fdiv_inf_fin hx hy), fun hz => givesF_of_putX rfl (fmul_inf_fin hx hy hz),
        fun hz => givesF_of_putX rfl (fmul_of_invalid (.inr (.inr (.inl ⟨hx, hz⟩))))⟩
    case fininf => exact fun ⟨hx, hy⟩ => givesF_of_putX rfl (fdiv_fin_inf hx hy)
    case zerozero => exact fun ⟨hx, hy⟩ => givesF_of_putX rfl (fdiv_zero_zero hx hy)
    case finzero => exact fun ⟨hx, hz, hy⟩ => givesF_of_putX rfl (fdiv_fin_zero hx hz hy)
    case negroot => exact fun ⟨hs, hn, hz⟩ => givesF_of_putX rfl (fsqrt_of_fneg hs hn hz)
    case selfroot => exact fun h => givesF_of_putX rfl (fsqrt_self ltX h)
    case exact =>
      intro ⟨hx, hy, h⟩
      rw [← roundMode_eq_modeOf]
      exact givesF_of_putX rfl (fadd_exact_zero hx hy h)
  case select =>
    intro x y flip
    have ltX : x < 2 ^ 32 := fr_lt s a
    have ltY : y < 2 ^ 32 := fr_lt s b
    refine ⟨?sig, ?nans, ?nanleft, ?nanright, ?below, ?nansign, ?sign, ?nancmp, ?cmp, ?classword⟩
    case sig => exact fun h => ⟨givesF_of_putX rfl (fminmax_of_isSig h), givesF_of_putX rfl (fminmax_of_isSig h)⟩
    case nans =>
      exact fun ⟨hx, hy, sx, sy⟩ =>
        ⟨givesF_of_putX rfl (fminmax_of_isNan hx hy sx sy), givesF_of_putX rfl (fminmax_of_isNan hx hy sx sy)⟩
    case nanleft =>
      exact fun ⟨hx, sx, hy⟩ =>
        ⟨givesF_of_putX rfl (fminmax_of_isNan_left ltY hx sx hy),
          givesF_of_putX rfl (fminmax_of_isNan_left ltY hx sx hy)⟩
    case nanright =>
      exact fun ⟨hy, sy, hx⟩ =>
        ⟨givesF_of_putX rfl (fminmax_of_isNan_right ltX hy sy hx),
          givesF_of_putX rfl (fminmax_of_isNan_right ltX hy sy hx)⟩
    case below =>
      intro ⟨hx, hy, h⟩
      obtain ⟨less, notLess⟩ := fless_of_below hx hy h
      have xy (maxi : Bool) := fminmax_of_fin (maxi := maxi) ltX ltY hx hy
      have yx (maxi : Bool) := fminmax_of_fin (maxi := maxi) ltY ltX hy hx
      rw [less] at xy
      rw [notLess] at yx
      exact ⟨givesF_of_putX rfl (xy false), givesF_of_putX rfl (xy true), givesF_of_putX rfl (yx false),
        givesF_of_putX rfl (yx true)⟩
    case nansign =>
      exact fun h => ⟨givesF_of_putX rfl (signed_of_isNan h), givesF_of_putX rfl (signed_of_isNan h),
        givesF_of_putX rfl (signed_of_isNan h)⟩
    case sign =>
      intro h
      refine ⟨givesF_of_putX rfl (signed_of_not_isNan False h), givesF_of_putX rfl ?_, givesF_of_putX rfl ?_⟩
      · exact (congrArg (signed x) (not_fneg32_eq ltX)).trans (signed_of_not_isNan _ h)
      · exact (congrArg (signed x) (fneg32_eq ltY)).trans (signed_of_not_isNan _ h)
    case nancmp =>
      intro h
      obtain ⟨f, equal, flag⟩ := fcmp_quiet_of_isNan h
      exact ⟨⟨f, givesF_of_putX rfl equal, flag⟩, givesF_of_putX rfl (fcmp_of_isNan 1 h),
        givesF_of_putX rfl (fcmp_of_isNan 2 h)⟩
    case cmp =>
      exact fun ⟨hx, hy⟩ => ⟨_, _, _, givesF_of_putX rfl (fcmp_of_fin 0 hx hy),
        givesF_of_putX rfl (fcmp_of_fin 1 hx hy),
        givesF_of_putX rfl (fcmp_of_fin 2 hx hy), one_or_zero (beq_iff_eq.trans (fcompare_eq_zero_iff hx hy)),
        one_or_zero (decide_eq_true_iff.trans (fcompare_neg_iff hx hy)),
        one_or_zero (decide_eq_true_iff.trans (fcompare_nonpos_iff hx hy))⟩
    case classword =>
      obtain ⟨k, word, kind⟩ := fclass_kind ltX
      exact ⟨k, givesF_of_putX rfl (congrArg (·, 0) word), kind⟩

end Sys2Proof.Proofs
end
